-- ==== Sys2Proof/Word.lean ====
section
/-! DEFINITION. The word types of the KX256 (R9: a halfword is 16 bits, a word 32 bits, a doubleword 64 bits)
and the plain names the other files use for them. -/

namespace Sys2Proof

/-- A byte of a memory or a frame. -/
abbrev Byte := BitVec 8

/-- A 32-bit word: a register, a working register, an instruction word (R9, R12). -/
abbrev Word := BitVec 32

/-- A TIME64 value: 5 ns periods in bits [63:8], fraction in bits [7:0] (R11). -/
abbrev Time64 := BitVec 64

/-- A number of a working register, w0 to w15 (R102). -/
abbrev Reg := Fin 16

/-- A 9-bit master identity (R29, Table 1.4). -/
abbrev Id := BitVec 9

end Sys2Proof
end

