-- ==== Sys2Proof/Syntax.lean ====
section
/-! DEFINITION. The commands of the KX256: one constructor of `Instr` for each row of spec/opcode_table.json, with
the row's operands: first the rows that have operands, then those that have none, each in the table's order. A command that is an instruction of a thread carries the beat it
executes in. A command that is a register access carries the identity of the master that makes it (R29). A command
that is a frame carries the port it arrives at and the frame. -/

namespace Sys2Proof

/-- The beat in which a thread executes an instruction (R71 to R73): the engine, the thread, the wheel position, and
what the comparison of a Twin pair finds at the write state (R100; 0 where the pair's outputs agree, and ignored
while the engine is in no pair). -/
structure Beat where
  eng : Fin 16
  thr : Fin 16
  pos : Fin 16
  diff : BitVec 5
  deriving DecidableEq, Repr

/-- The second operand of ADD, SUB, AND, OR, XOR and CMP: rb or imm14 (R105, R108). -/
inductive Operand where
  | reg (rb : Reg)
  | imm (v : BitVec 14)
  deriving DecidableEq, Repr

/-- What falls within the beats of a divide (R112, R113): nothing; the arrival of an event at EVk; or the command ends with
the divide still in progress, which the next command for the thread meets (a halt, a reset, the retention of its island,
or the divide that goes on). -/
inductive DivCut where
  | whole
  | event (k : Fin 4)
  | part
  deriving DecidableEq, Repr

/-- The amount of a shift: rb[4:0] or imm[4:0] (R109). -/
inductive ShiftAmount where
  | reg (rb : Reg)
  | imm (v : BitVec 5)
  deriving DecidableEq, Repr

/-- The source of MOV: ra or imm18 (R108). -/
inductive MovSource where
  | reg (ra : Reg)
  | imm (v : BitVec 18)
  deriving DecidableEq, Repr

/-- The pad of PSET and PCAP: imm[6:0] with X = 0, ra[6:0] with X = 1 (R137). -/
inductive PadSelect where
  | num (p : BitVec 7)
  | reg (ra : Reg)
  deriving DecidableEq, Repr

/-- The two chain ports (R323). -/
inductive Port where
  | a
  | b
  deriving DecidableEq, Repr

/-- Where a dictionary request comes from (R44): the chain or the local register port. -/
inductive Source where
  | chain
  | lrp
  deriving DecidableEq, Repr

/-- What wakes a unit from Doze or Dormant (R50, R221): a slot of the latch routes, or the wake timer. -/
inductive WakeSource where
  | latch (slot : Fin 32)
  | timer
  deriving DecidableEq, Repr

/-- The strap pins of Table 17.1 that a unit reset samples (R43, R54, R452). -/
structure Straps where
  dictsrc : BitVec 2
  profsel : BitVec 2
  nvsize : BitVec 3
  jtagMid : BitVec 11
  deriving DecidableEq, Repr

/-- A frame of the chain as it arrives at a port (R327, Table 12.2): the header fields, whether its CRC is good, and
the payload bytes. -/
structure Frame where
  dst : Byte
  src : Byte
  type : BitVec 4
  dir : Bool
  wrap : Bool
  fold : Bool
  record : Bool
  seq : Byte
  hops : BitVec 10
  good : Bool
  payload : List Byte
  deriving DecidableEq, Repr

/-- The header of a dictionary request (Table 12.8) with its source; `seq` is the SEQ of the DQ frame that carried
it, 0 through the local register port. `bcast` says that the frame was sent to DST 255, which no unit answers
(R349). -/
structure DictHeader where
  src : Source
  seq : Byte
  bcast : Bool
  tag : Byte
  index : BitVec 16
  sub : Byte
  segno : BitVec 16
  last : Bool
  deriving DecidableEq, Repr

/-- The commands of the block, one constructor for each row of spec/opcode_table.json. -/
inductive Instr where
  /-- ADD (R108): Adds a register or sign-extended immediate to ra, writes rd and sets N Z C V in one beat. -/
  | add (b : Beat) (rd ra : Reg) (x : Operand)
  /-- SUB (R108): Subtracts a register or sign-extended immediate from ra, writes rd and sets N Z C V. -/
  | sub (b : Beat) (rd ra : Reg) (x : Operand)
  /-- AND (R108): Bitwise AND of ra with a register or zero-extended immediate into rd, setting N Z. -/
  | andOp (b : Beat) (rd ra : Reg) (x : Operand)
  /-- OR (R108): Bitwise OR of ra with a register or zero-extended immediate into rd, setting N Z. -/
  | orOp (b : Beat) (rd ra : Reg) (x : Operand)
  /-- XOR (R108): Bitwise XOR of ra with a register or zero-extended immediate into rd, setting N Z. -/
  | xorOp (b : Beat) (rd ra : Reg) (x : Operand)
  /-- SHL (R109): Shifts ra left with zero fill by rb[4:0] or imm[4:0], setting N Z C. -/
  | shl (b : Beat) (rd ra : Reg) (x : ShiftAmount)
  /-- SHR (R109): Shifts ra right with zero fill, setting N Z C. -/
  | shr (b : Beat) (rd ra : Reg) (x : ShiftAmount)
  /-- SAR (R109): Shifts ra right filled with bit 31, setting N Z C. -/
  | sar (b : Beat) (rd ra : Reg) (x : ShiftAmount)
  /-- ROT (R109): Rotates ra right, setting N Z and C to bit 31 of the result. -/
  | rot (b : Beat) (rd ra : Reg) (x : ShiftAmount)
  /-- CMP (R109): Computes ra minus the operand, discards the result and sets N Z C V. -/
  | cmp (b : Beat) (ra : Reg) (x : Operand)
  /-- MOV (R108): Copies ra or a sign-extended imm18 into rd without changing flags. -/
  | mov (b : Beat) (rd : Reg) (x : MovSource)
  /-- MOVH (R108): Writes imm[15:0] into rd[31:16] and keeps rd[15:0]. -/
  | movh (b : Beat) (rd : Reg) (imm : BitVec 16)
  /-- MUL (R110): Writes the low 32 bits of ra times rb into rd in 2 beats, setting N Z. -/
  | mul (b : Beat) (rd ra rb : Reg)
  /-- MULH (R110): Writes the high 32 bits of the signed 64-bit product into rd in 2 beats. -/
  | mulh (b : Beat) (rd ra rb : Reg)
  /-- DIV (R111): Signed division in 17 beats, with defined results and V for zero divisor and overflow. -/
  | divOp (b : Beat) (rd ra rb : Reg) (cut : DivCut)
  /-- DIVU (R111): Unsigned division in 17 beats, with defined result and V for a zero divisor. -/
  | divu (b : Beat) (rd ra rb : Reg) (cut : DivCut)
  /-- REM (R111): Signed remainder with the sign of ra in 17 beats. -/
  | remOp (b : Beat) (rd ra rb : Reg) (cut : DivCut)
  /-- REMU (R111): Unsigned remainder in 17 beats. -/
  | remu (b : Beat) (rd ra rb : Reg) (cut : DivCut)
  /-- LDW (R114): Loads a word from local SRAM at ra plus imm18, merging merge-buffer lanes. -/
  | ldw (b : Beat) (rd ra : Reg) (imm : BitVec 18)
  /-- LDH (R114): Loads a sign-extended halfword from local SRAM. -/
  | ldh (b : Beat) (rd ra : Reg) (imm : BitVec 18)
  /-- LDHU (R114): Loads a zero-extended halfword from local SRAM. -/
  | ldhu (b : Beat) (rd ra : Reg) (imm : BitVec 18)
  /-- LDB (R114): Loads a sign-extended byte from local SRAM. -/
  | ldb (b : Beat) (rd ra : Reg) (imm : BitVec 18)
  /-- LDBU (R114): Loads a zero-extended byte from local SRAM. -/
  | ldbu (b : Beat) (rd ra : Reg) (imm : BitVec 18)
  /-- STW (R120): Stores a word to data SRAM or, with CODEW, as a code store with fetch-ahead snoop. -/
  | stw (b : Beat) (rd ra : Reg) (imm : BitVec 18)
  /-- STH (R176): Stores a halfword into the local merge entry of data SRAM. -/
  | sth (b : Beat) (rd ra : Reg) (imm : BitVec 18)
  /-- STB (R176): Stores a byte into the local merge entry of data SRAM. -/
  | stb (b : Beat) (rd ra : Reg) (imm : BitVec 18)
  /-- FLD_W (R126): Issues a far word load and marks rd pending. -/
  | fldW (b : Beat) (rd ra : Reg) (imm : BitVec 14)
  /-- FLD_H (R126): Issues a far sign-extended halfword load and marks rd pending. -/
  | fldH (b : Beat) (rd ra : Reg) (imm : BitVec 14)
  /-- FLD_HU (R126): Issues a far zero-extended halfword load and marks rd pending. -/
  | fldHu (b : Beat) (rd ra : Reg) (imm : BitVec 14)
  /-- FLD_B (R126): Issues a far sign-extended byte load and marks rd pending. -/
  | fldB (b : Beat) (rd ra : Reg) (imm : BitVec 14)
  /-- FLD_BU (R126): Issues a far zero-extended byte load and marks rd pending. -/
  | fldBu (b : Beat) (rd ra : Reg) (imm : BitVec 14)
  /-- FST_W (R179): Issues a far word store, through the far merge entry for image memory. -/
  | fstW (b : Beat) (rd ra : Reg) (imm : BitVec 14)
  /-- FST_H (R179): Issues a far halfword store to image memory through the far merge entry. -/
  | fstH (b : Beat) (rd ra : Reg) (imm : BitVec 14)
  /-- FST_B (R179): Issues a far byte store to image memory through the far merge entry. -/
  | fstB (b : Beat) (rd ra : Reg) (imm : BitVec 14)
  /-- FBT (R133): Reads one image memory bit indivisibly into rd and T, both pending. -/
  | fbt (b : Beat) (rd ra : Reg) (off : BitVec 9) (bit : BitVec 5)
  /-- FBS (R133): Reads one image memory bit and sets it in one read-modify-write. -/
  | fbs (b : Beat) (rd ra : Reg) (off : BitVec 9) (bit : BitVec 5)
  /-- FBC (R133): Reads one image memory bit and clears it in one read-modify-write. -/
  | fbc (b : Beat) (rd ra : Reg) (off : BitVec 9) (bit : BitVec 5)
  /-- FBW (R133): Reads one image memory bit and writes rb[0] to it in one read-modify-write. -/
  | fbw (b : Beat) (rd rb ra : Reg) (off : BitVec 9) (bit : BitVec 5)
  /-- B_COND (R122): Branches when the condition on the flags holds, taking 2 beats when taken. -/
  | bCond (b : Beat) (cond : BitVec 4) (off : BitVec 22)
  /-- B (R121): Branches unconditionally to the pc-relative target in 2 beats. -/
  | br (b : Beat) (off : BitVec 22)
  /-- BL (R121): Branches and writes the return address into lk. -/
  | bl (b : Beat) (off : BitVec 22)
  /-- JR (R121): Jumps to the address in ra. -/
  | jr (b : Beat) (ra : Reg)
  /-- JR_L (R121): Jumps to ra and writes the return address into lk. -/
  | jrL (b : Beat) (ra : Reg)
  /-- RET (R121): Jumps to the address in lk. -/
  | ret (b : Beat)
  /-- TSET (R89): Engine master writes one context selector of a STOPPED, TRAPPED or HALTED thread. -/
  | tset (b : Beat) (rd ra : Reg) (sel : BitVec 8)
  /-- TGET (R90): Engine master reads one context selector of a thread of its engine. -/
  | tget (b : Beat) (rd ra : Reg) (sel : BitVec 8)
  /-- TGO (R91): Engine master releases a STOPPED thread to READY at its context pc. -/
  | tgo (b : Beat) (ra : Reg)
  /-- TSTOP (R92): Moves the issuing thread to STOPPED with its pc at the next instruction. -/
  | tstop (b : Beat)
  /-- TRST (R93): Engine master resets a thread to STOPPED with reset context, releasing and marking its locks. -/
  | trst (b : Beat) (ra : Reg)
  /-- YIELD (R78): A slack holder gives up the pool and is excluded once from the next selection. -/
  | yield (b : Beat)
  /-- PRIO (R96): Writes the issuing thread's slack priority. -/
  | prio (b : Beat) (n : BitVec 3)
  /-- SIG (R136): Raises event channel 256 + 16 × engine + n. -/
  | sig (b : Beat) (n : BitVec 4)
  /-- WAITE (R138): Waits for an armed input event and reports it into rd. -/
  | waite (b : Beat) (rd : Reg)
  /-- ARM (R136): Sets the thread's armed mask of event inputs. -/
  | arm (b : Beat) (mask : BitVec 4)
  /-- LOCK (R139): Requests an image-word lock and returns the outcome code pending into rd and T. -/
  | lock (b : Beat) (rd ra : Reg) (imm : BitVec 14)
  /-- ULOCK (R193): Releases a lock held by the issuing identity. -/
  | ulock (b : Beat) (ra : Reg) (imm : BitVec 14)
  /-- WAITL (R194): Suspends the thread until the named lock is free, registering as a waiter. -/
  | waitl (b : Beat) (ra : Reg) (imm : BitVec 14)
  /-- MPUT (R199): Stages word 0 or commits word 1 of a mail channel. -/
  | mput (b : Beat) (rd : Reg) (ch : Fin 64) (w : Bool)
  /-- MGET (R202): Reads word 0 or 1 of the committed mail message, latching word 1 for the reader. -/
  | mget (b : Beat) (rd : Reg) (ch : Fin 64) (w : Bool)
  /-- PSET (R259): Queues an edge to a level on a pad at an offset in 78.125 ps steps. -/
  | pset (b : Beat) (pad : PadSelect) (level : BitVec 2) (rb : Reg)
  /-- PCAP (R270): Removes the head stamp of a pad's FIFO into an even register pair. -/
  | pcap (b : Beat) (rd : Reg) (pad : PadSelect)
  /-- TRAP (R141): Raises trap code 0x10 + n with the saved pc after the instruction. -/
  | trapOp (b : Beat) (n : BitVec 4)
  /-- RFI (R155): Waits for awaited frame words then restores pc, status, w0–w3 and lk from the frame. -/
  | rfi (b : Beat)
  /-- SYNC (R134): Waits until all earlier far requests are answered and the merge buffer holds no store of the thread. -/
  | syncOp (b : Beat)
  /-- NOP (R141): Does nothing for one beat. -/
  | nop (b : Beat) (word : Word)
  /-- FAR_REPLY (R126): A far reply arrives, writes its destination or frame word and clears the pending mark. -/
  | farReply (eng thr : Fin 16) (n : Nat)
  /-- FAR_ERROR_REPLY (R143): A refused or failed far reply writes 0 and makes the thread trap at its next beat. -/
  | farErrorReply (eng thr : Fin 16) (n : Nat)
  /-- REGISTER_WRITE (R42): A write to a register without behaviour of its own lands and takes effect under the common field rules. -/
  | registerWrite (id : Id) (addr value : Word)
  /-- INTERRUPT_ENTRY (R149): An interrupt input holding an event is taken at a boundary, stacking a frame in 3 beats and vectoring. -/
  | interruptEntry (eng thr : Fin 16)
  /-- WDOG (R161): A thread's watchdog count reaches its period and WDOG becomes due. -/
  | wdog (eng thr : Fin 16)
  /-- EVENT_DELIVERY (R213): A latched event crosses to the engine and completes a wait or makes an interrupt due. -/
  | eventDelivery (eng thr : Fin 16) (k : Fin 4)
  /-- CONSUME_NOTE (R213): A consume note lands in the fabric, empties the input entry and updates HF_RTSL/HF_RTSH. -/
  | consumeNote (eng thr : Fin 16)
  /-- MODE_REQUEST (R50): A write of SYS_MODEREQ requests a mode transition, accepted or refused under the transition table. -/
  | modeRequest (id : Id) (value : Word)
  /-- SOFT_RESET (R54): A write of SYS_RST with key 0xC1A5 starts a software unit reset. -/
  | softReset (id : Id) (value : Word)
  /-- POWER_ON_RESET (R56): PORST_N resets all islands and clears always-on retention. -/
  | powerOnReset (pins : Straps)
  /-- RECALL_COMPLETE (R404): The Keeper's Recall scan ends, loading the profile and moving the unit to Unaddressed or Preparation. -/
  | recallComplete (key : Option (BitVec 256))
  /-- SYS_ENGPWR_WRITE (R469): A write of engine power states queues power-ups, removes entries or places islands in retention. -/
  | sysEngpwrWrite (id : Id) (value : Word)
  /-- SYS_ENGSTART_WRITE (R468): A write queues engine starts with the governor. -/
  | sysEngstartWrite (id : Id) (value : Word)
  /-- ISLAND_LOCK (R61): An admitted engine island's generator reports lock, its threads run and a merged start acts. -/
  | islandLock (eng : Fin 16)
  /-- WAKE_EVENT (R67): A wake source brings the unit out of Doze into Preparation or out of Dormant into Recall. -/
  | wakeEvent (src : WakeSource)
  /-- ENGINE_RESET (R94): A keyed write of ENG_CTL.RST resets all threads of the engine and queues the engine start. -/
  | engineReset (id : Id) (eng : Fin 16) (value : Word)
  /-- ENG_WHCTL_COMMIT (R84): A write of COMMIT marks a wheel commit pending. -/
  | engWhctlCommit (id : Id) (eng : Fin 16) (value : Word)
  /-- WHEEL_SWITCH (R85): At the next position 0 the active wheel takes the shadow contents and threads change class. -/
  | wheelSwitch (eng : Fin 16)
  /-- TRP_REL (R159): A write releases TRAPPED threads to READY at their context pc. -/
  | trpRel (id : Id) (eng : Fin 16) (value : Word)
  /-- DBG_FREEZE (R165): A write of DBG_CTL.FREEZE halts or resumes every thread of the unit. -/
  | dbgFreeze (id : Id) (value : Word)
  /-- DBG_CTXDATA_ACCESS (R163): A DBG_CTXDATA access reads the selected context as TGET or writes it as TSET. -/
  | dbgCtxdataAccess (id : Id) (wr : Option Word)
  /-- DBG_MDATA_ACCESS (R163): A DBG_MDATA access reads or writes engine local SRAM and advances the address. -/
  | dbgMdataAccess (id : Id) (wr : Option Word)
  /-- DBG_HALT (R165): A halt request lands and halts the named threads at their next boundary. -/
  | dbgHalt (id : Id) (eng : Fin 16) (value : Word)
  /-- DBG_RUN (R165): A resume request restores each halted thread to the state in HPREV. -/
  | dbgRun (id : Id) (eng : Fin 16) (value : Word)
  /-- DBG_STEP (R166): A step makes a halted READY thread execute exactly one instruction and halt again. -/
  | dbgStep (id : Id) (eng : Fin 16) (value : Word)
  /-- SCRUB_STEP (R183): In a free slot the scrubber checks one code word and writes back a corrected one. -/
  | scrubStep (m : Fin 35)
  /-- CLRCNT (R186): A write of ECC_CTL.CLRCNT clears every ECC_CNT. -/
  | clrcnt (id : Id) (value : Word)
  /-- ECC_INJ_ARM (R188): Arms one error injection into the next whole code word written to the chosen memory. -/
  | eccInjArm (id : Id) (value : Word)
  /-- LOCAL_MERGE_TIMEOUT (R177): No narrow store joins the local merge entry within 16 engine clocks, so the entry is flushed. -/
  | localMergeTimeout (eng : Fin 16)
  /-- FAR_MERGE_TIMEOUT (R180): No store joins the far merge entry within 16 engine clocks, so it is flushed toward the fabric. -/
  | farMergeTimeout (eng : Fin 16)
  /-- LREQ_ACQUIRE (R192): A TUM_LREQ acquire takes a lock under the writer's identity and records the outcome. -/
  | lreqAcquire (id : Id) (woff : BitVec 17)
  /-- LREQ_RELEASE (R193): A TUM_LREQ release frees a lock held by the writer and completes its waiters. -/
  | lreqRelease (id : Id) (woff : BitVec 17)
  /-- LREQ_CLEAR (R198): A TUM_LREQ clear removes the BROKEN mark of a free lock. -/
  | lreqClear (id : Id) (woff : BitVec 17)
  /-- TUM_LQRY (R196): A lock query records the lock's state in TUM_LINFO for the writer's identity. -/
  | tumLqry (id : Id) (woff : BitVec 17)
  /-- BCLRALL (R198): A write of TUM_CTL.BCLRALL clears every BROKEN mark. -/
  | bclrall (id : Id)
  /-- TUM_CNTCLR (R207): A write of TUM_CTL.CNTCLR clears the Tumbler counters. -/
  | tumCntclr (id : Id)
  /-- MB_W0_WRITE (R199): A write of MB_W0 stages word 0 of a mail channel and records the writer. -/
  | mbW0Write (id : Id) (ch : Fin 64) (value : Word)
  /-- MB_W1_WRITE (R200): A write of MB_W1 by the recorded writer commits the mail message and raises its event. -/
  | mbW1Write (id : Id) (ch : Fin 64) (value : Word)
  /-- MB_W0_READ (R202): A read of MB_W0 returns word 0 and latches word 1 for the reader. -/
  | mbW0Read (id : Id) (ch : Fin 64)
  /-- MB_W1_READ (R202): A read of MB_W1 returns the reader's latched word 1 or the committed one. -/
  | mbW1Read (id : Id) (ch : Fin 64)
  /-- RAISE (R211): A producer's raise enters the Hinge fabric with its timestamp, merging raises of one cycle. -/
  | raiseEvent (ch : Fin 1024) (stamp : Option Time64)
  /-- HF_RACC_WR (R217): Writes HF_RD0–3, after clamps, into the route named by HF_RIDX. -/
  | hfRaccWr (id : Id)
  /-- HF_RACC_RD (R217): Loads the route named by HF_RIDX into HF_RD0–3. -/
  | hfRaccRd (id : Id)
  /-- HF_COMMIT (R222): A write of HF_CTL.COMMIT starts a latch route commit that collects, refuses loops and assigns slots. -/
  | hfCommit (id : Id)
  /-- HF_CNTCLR (R226): A write of HF_CTL.CNTCLR clears HF_CNT and HF_TCNT. -/
  | hfCntclr (id : Id)
  /-- HF_RAISE (R219): A write of HF_RAISEj raises virtual channels in the landing cycle. -/
  | hfRaise (id : Id) (j : Fin 6) (value : Word)
  /-- HF_GRPEN_WRITE (R220): A write of the group enables changes group states and raises the group channels. -/
  | hfGrpenWrite (id : Id) (j : Fin 2) (value : Word)
  /-- LATCH_ROUTE_FIRE (R221): A selected pad edge fires a latch route asynchronously to SFORCE, HOLD, WAKE or LFCAP. -/
  | latchRouteFire (slot : Fin 32)
  /-- TIMER_STEP (R242): In each fabric cycle a timer captures, serves reads, applies writes, starts or stops and steps. -/
  | timerStep (t : Fin 32)
  /-- COMPARE_MATCH (R245): A step ends on an armed compare value and the slot raises its channel. -/
  | compareMatch (t : Fin 32) (slot : Fin 4)
  /-- TIMER_WRAP (R239): A wrap step sets WRAP, raises wrap slots and ends a one-shot run. -/
  | timerWrap (t : Fin 32)
  /-- TSTART (R241): A write starts the named timers in the landing cycle. -/
  | tstart (id : Id) (value : Word)
  /-- TMRSTOP (R241): A write stops the named timers in the landing cycle. -/
  | tmrstop (id : Id) (value : Word)
  /-- TMR_CNTL_WRITE (R248): A write commits the count with the staged high part. -/
  | tmrCntlWrite (id : Id) (t : Fin 32) (value : Word)
  /-- TMR_CNTL_READ (R249): A read returns count[31:0], latches the high part and increments SEQ. -/
  | tmrCntlRead (id : Id) (t : Fin 32)
  /-- TMR_TOPL_WRITE (R248): A write commits the top value with the staged high part. -/
  | tmrToplWrite (id : Id) (t : Fin 32) (value : Word)
  /-- COMP_L_WRITE (R244): A write commits a compare value and arms it, fires it at once or marks it MISSED. -/
  | compLWrite (id : Id) (t : Fin 32) (slot : Fin 4) (value : Word)
  /-- CAP_L_READ (R246): A read of CAPs_L opens a read pair of the capture slot. -/
  | capLRead (id : Id) (t : Fin 32) (slot : Fin 4)
  /-- CAP_H_READ (R246): A read of CAPs_H closes the pair and moves a pending capture into the front. -/
  | capHRead (id : Id) (t : Fin 32) (slot : Fin 4)
  /-- CAPTURE_PAIR_TIMEOUT (R246): A read pair still open 64 fabric cycles after opening closes on its timeout. -/
  | capturePairTimeout (t : Fin 32) (slot : Fin 4)
  /-- TB_RATE_WRITE (R232): A write of the rate trim queues a correction. -/
  | tbRateWrite (id : Id) (value : Word)
  /-- TB_STEPL_WRITE (R233): A write of TB_STEPL queues a step of the timebase. -/
  | tbSteplWrite (id : Id) (value : Word)
  /-- TB_CTL_WRITE (R235): A write of TB_CTL.SRC selects servo or register corrections and may clear SYNC. -/
  | tbCtlWrite (id : Id) (value : Word)
  /-- TB_NOWL_READ (R236): A read returns chain time bits [31:0] and latches the high half for the reader. -/
  | tbNowlRead (id : Id)
  /-- PSET_LAND (R259): A PSET lands in the pad island and becomes an edge queue entry or is dropped. -/
  | psetLand (eng : Fin 16)
  /-- EDGE_PLACE (R262): At a pad clock edge the head entry is decided and placed on the grid or by a fine unit. -/
  | edgePlace (pad : Fin 128)
  /-- PAD_EDGE (R268): A selected pin edge is stamped into the FIFO and raises the pad's channel. -/
  | padEdge (pad : Fin 128) (level : Bool) (sub : BitVec 6)
  /-- PCAP_LAND (R270): A PCAP lands and removes the FIFO head as one 64-bit stamp reply. -/
  | pcapLand (eng : Fin 16)
  /-- PAD_STL_READ (R271): A read removes the FIFO head, latches its high half and increments POPSEQ. -/
  | padStlRead (id : Id) (pad : Fin 128)
  /-- PAD_STAMP (R272): PAD_CTL.STAMP enters the current timebase into the pad's FIFO. -/
  | padStamp (id : Id) (pad : Fin 128)
  /-- QFLUSH (R265): PAD_CTL.QFLUSH empties the pad's edge queue. -/
  | qflush (id : Id) (pad : Fin 128)
  /-- PAD_RELEASE (R275): PAD_CTL.RELEASE clears both latches of the pad. -/
  | padRelease (id : Id) (pad : Fin 128)
  /-- PAD_HOLD (R275): PAD_CTL.HOLD sets the pad's hold latch. -/
  | padHold (id : Id) (pad : Fin 128)
  /-- PAD_SFORCE (R275): PAD_CTL.SFORCE sets the pad's force latch. -/
  | padSforce (id : Id) (pad : Fin 128)
  /-- PAD_CFG_WRITE (R259): A PAD_CFG write changes the pad, empties the queue on OSRC and clears the last scheduled time on REF. -/
  | padCfgWrite (id : Id) (pad : Fin 128) (value : Word)
  /-- PAD_FPU_WRITE (R267): A write assigns a fine placement unit, clamping EN for a pad already served. -/
  | padFpuWrite (id : Id) (u : Fin 64) (value : Word)
  /-- CAL_LAP (R273): A lap of continued calibration completes and updates LAPUS. -/
  | calLap (us : Nat)
  /-- CVT_SCHEDL_WRITE (R280): A write commits a scheduled converter trigger request. -/
  | cvtSchedlWrite (id : Id) (port : Fin 8) (value : Word)
  /-- CVT_CFG_WRITE (R281): A write configures the port; clearing EN discards a pending request. -/
  | cvtCfgWrite (id : Id) (port : Fin 8) (value : Word)
  /-- TRIGGER_PLACE (R280): A trigger request is placed and the output rises, recording CVT_LAST and raising its channel. -/
  | triggerPlace (port : Fin 8)
  /-- TRIGGER_FALL (R280): The trigger pulse falls WIDTH pad clocks after it rose. -/
  | triggerFall (port : Fin 8)
  /-- CVT_BUSY_TIMEOUT (R282): No sample arrives within TMO µs, so the busy window ends with TMOUT. -/
  | cvtBusyTimeout (port : Fin 8)
  /-- SAMPLE_DELIVERY (R284): A converter delivers a sample that enters the return FIFO with its trigger stamp. -/
  | sampleDelivery (port : Fin 8) (sample : Word)
  /-- CVT_RDATA_READ (R284): A read removes the FIFO head sample and loads its trigger stamp. -/
  | cvtRdataRead (id : Id) (port : Fin 8)
  /-- CVT_LASTL_READ (R283): A read returns the latest trigger time and latches the high half for the reader. -/
  | cvtLastlRead (id : Id) (port : Fin 8)
  /-- SCN_FLIPL_WRITE (R309): A write commits and arms a bank flip time. -/
  | scnFliplWrite (id : Id) (value : Word)
  /-- FLIP_CANCEL (R310): SCN_FLIPST.CANCEL disarms a scheduled flip. -/
  | flipCancel (id : Id)
  /-- SCN_CNTCLR (R307): A write of SCN_CTL.CNTCLR clears the scan counters. -/
  | scnCntclr (id : Id)
  /-- SH_GO (R317): SH_CTL.GO starts a channel that is not running. -/
  | shGo (id : Id) (c : Fin 32)
  /-- SH_STOP (R318): SH_CTL.STOP stops the channel at its next element boundary. -/
  | shStop (id : Id) (c : Fin 32)
  /-- SH_RST (R318): SH_CTL.RST stops the channel at once and releases and marks its locks. -/
  | shRst (id : Id) (c : Fin 32)
  /-- SHUTTLE_DESCRIPTOR (R315): A running channel fetches a descriptor and acquires its lock when asked. -/
  | shuttleDescriptor (c : Fin 32)
  /-- SHUTTLE_ELEMENT (R315): In its turn a channel reads one source element and writes it to the destination. -/
  | shuttleElement (c : Fin 32)
  /-- SHUTTLE_DESCRIPTOR_DONE (R315): The last write of a descriptor is acknowledged, its lock released and the done event raised. -/
  | shuttleDescriptorDone (c : Fin 32)
  /-- SHUTTLE_LOCK_RETRY (R316): Every 16 fabric cycles a channel retries a held lock. -/
  | shuttleLockRetry (c : Fin 32)
  /-- PORT_UP (R326): A chain port comes up after 1,024 valid symbols with RDY idles. -/
  | portUp (p : Port)
  /-- PORT_DOWN (R326): A chain port goes down on code violations, loss of lock or a not-ready idle, and traffic wraps. -/
  | portDown (p : Port)
  /-- FRAME_FORWARD (R328): A frame not consumed is forwarded cut-through 400 ns later with HOPS incremented. -/
  | frameForward (p : Port) (f : Frame)
  /-- ADDRESS (R333): A good ADDRESS frame assigns an address or is forwarded with COUNT + 1. -/
  | addressFrame (p : Port) (f : Frame)
  /-- DQ (R349): A dictionary request frame is passed to the agent and answered with a DR. -/
  | dqFrame (p : Port) (f : Frame)
  /-- TICK (R337): A good TICK frame sets or reschedules the schedule and supplies broadcast data. -/
  | tickFrame (p : Port) (f : Frame)
  /-- TICK_RECORD (R343): A record of a TICK train is collected into the chain image slot of its sender. -/
  | tickRecord (p : Port) (f : Frame)
  /-- TIME_DISTRIBUTION (R346): A distribution TIME frame is corrected and forwarded, and applied to the servo. -/
  | timeDistribution (p : Port) (f : Frame) (stamp : Time64) (residence : Nat)
  /-- PROBE_SEND (R345): A port sends a probe request in the first own-frame window 1 ms after its previous probe. -/
  | probeSend (p : Port)
  /-- PROBE_REQUEST (R345): A received probe request is answered at once with an echo carrying T2 and T3. -/
  | probeRequest (p : Port) (f : Frame) (t2 t3 : Time64)
  /-- PROBE_ECHO (R345): A received echo gives one delay sample averaged into CH_DLYA or CH_DLYB. -/
  | probeEcho (p : Port) (f : Frame) (t4 : Time64)
  /-- EVENT (R350): A good EVENT frame stores its data and raises channel 592 + class. -/
  | eventFrame (p : Port) (f : Frame)
  /-- CH_EVSEND (R350): A write queues an EVENT frame for sending. -/
  | chEvsend (id : Id) (value : Word)
  /-- UPDATE_FIRMWARE_KIND (R351): An UPDATE frame of KIND 0x80–0xFF is copied into CH_UPBUF and raises channel 584. -/
  | updateFirmwareKind (p : Port) (f : Frame)
  /-- CH_UPST_ACK (R351): CH_UPST.ACK clears FULL of the UPDATE buffer. -/
  | chUpstAck (id : Id)
  /-- CH_CNTCLR (R352): A write of CH_CTL.CNTCLR clears the chain counters. -/
  | chCntclr (id : Id)
  /-- CH_TIL_READ (R352): A read returns the tick instant low word and latches the high word for the reader. -/
  | chTilRead (id : Id)
  /-- SHACKLE (R390): A SHACKLE frame from the partner is copied into CH_SHRX; its final frame is the heartbeat. -/
  | shackleFrame (p : Port) (f : Frame)
  /-- SWREQ (R397): SHK_CTL.SWREQ requests a planned switchover of ownership. -/
  | swreq (id : Id)
  /-- SWCAN (R397): SHK_CTL.SWCAN withdraws a switchover request. -/
  | swcan (id : Id)
  /-- SHK_CNTCLR (R400): SHK_CTL.CNTCLR clears the Shackle counters. -/
  | shkCntclr (id : Id)
  /-- DICT_READ (R359): An expedited read returns a value of at most 8 bytes. -/
  | dictRead (r : DictHeader)
  /-- DICT_WRITE (R359): An expedited write stores a value of at most 8 bytes, clamping out-of-range values. -/
  | dictWrite (r : DictHeader) (data : List Byte)
  /-- SEGMENTED_READ_INITIATE (R360): Opens a segmented read and returns the value's length. -/
  | segmentedReadInitiate (r : DictHeader)
  /-- SEGMENTED_WRITE_INITIATE (R360): Opens a segmented write of a given total length. -/
  | segmentedWriteInitiate (r : DictHeader) (data : List Byte)
  /-- SEGMENT (R360): Reads or writes the next segment of an open transfer. -/
  | segment (r : DictHeader) (data : List Byte) (room : Nat)
  /-- ABORT (R361): Aborts an open segmented transfer. -/
  | abortTransfer (r : DictHeader)
  /-- TRANSFER_TIMEOUT (R361): An open transfer without a segment for 100 ms closes. -/
  | transferTimeout (src : Source) (tag : Byte)
  /-- SAVE_COMPLETE (R422): A profile save commits its anchor or fails and sets SAVESTAT. -/
  | saveComplete (nverr : Bool)
  /-- FIRMWARE_OBJECT_REQUEST (R378): A request to 0xA000–0xBFFF is written into the firmware buffer and raises channel 583. -/
  | firmwareObjectRequest (r : DictHeader) (cmd : BitVec 8) (data : List Byte)
  /-- DFW_RSP (R378): A write commits firmware's response and the agent sends the DR. -/
  | dfwRsp (id : Id) (value : Word)
  /-- LRP_GO (R461): LRP_CTL.GO sends the request buffer to the dictionary agent. -/
  | lrpGo (value : Word)
  /-- LRP_ACK (R461): LRP_CTL.ACK marks the response as read and clears DONE. -/
  | lrpAck (value : Word)
  /-- LRP_REQ_WRITE (R461): A write of the request buffer is stored, or discarded with REJ while a request is in service. -/
  | lrpReqWrite (off : BitVec 10) (value : Word)
  /-- RAW_READ (R415): Copies bytes of a raw NV page into KPR_BUF. -/
  | rawRead (id : Id) (page : BitVec 12) (start lenm1 : Byte)
  /-- RAW_WRITE (R413): Writes bytes of KPR_BUF into a raw page through a journalled intent record. -/
  | rawWrite (id : Id) (page : BitVec 12) (start lenm1 : Byte)
  /-- RING_READ (R418): Returns the latest accepted value of a ring item. -/
  | ringRead (id : Id) (item : BitVec 12)
  /-- RING_WRITE (R418): Queues a new value of a ring item for background writing. -/
  | ringWrite (id : Id) (item : BitVec 12)
  /-- FORMAT (R421): Formats the NV macro with new anchors, directory, rings and journal. -/
  | formatNv (id : Id)
  /-- KEEPER_COMMAND_DONE (R410): A Keeper command ends, KPR_RES takes its outcome and channel 662 is raised. -/
  | keeperCommandDone (mismatches : Nat) (nverr : Bool)
  /-- RING_STEP (R419): Ring management writes one queued item into its next slot with read-back. -/
  | ringStep (failures : Nat)
  /-- TORNCLR (R414): KPR_CTL.TORNCLR clears the torn report and the journal's intent record. -/
  | tornclr (id : Id)
  /-- KPR_CNTCLR (R424): KPR_CTL.CNTCLR clears KPR_CNT. -/
  | kprCntclr (id : Id)
  /-- KEEPER_RESCAN (R408): At a Keeper power-up outside Recall the Keeper rescans the NV macro. -/
  | keeperRescan (key : Option (BitVec 256))
  /-- UPDATE_OPEN (R432): An UPDATE frame of KIND 0x01 or a write of 0x6101 opens a staging session. -/
  | updateOpen (p : Port) (f : Frame)
  /-- UPDATE_DATA (R433): An UPDATE frame of KIND 0x02 writes payload words into the inactive banks. -/
  | updateData (p : Port) (f : Frame)
  /-- UPDATE_CLOSE (R435): An UPDATE frame of KIND 0x03 aborts the named session unless armed. -/
  | updateClose (p : Port) (f : Frame)
  /-- SEAL (R434): A seal command starts the seal once every word is covered. -/
  | sealImage (id : Id)
  /-- SEAL_DONE (R434): A seal verifies, authenticates and persists the image and enters READY or FAILED. -/
  | sealDone (nverr : Bool)
  /-- UPD_ABORT (R435): UPD_CTL.ABORT returns the session to IDLE unless armed. -/
  | updAbort (id : Id)
  /-- UPD_CNTCLR (R443): UPD_CTL.CNTCLR clears UPD_CNT. -/
  | updCntclr (id : Id)
  /-- ACTIVATION_COMMIT (R436): The Keeper commits the new engine image extents after the activation. -/
  | activationCommit (nverr : Bool)
  /-- DBGA (R463): Update-DR of DBGA launches a debug read or stores a write address. -/
  | dbga (value : Word)
  /-- DBGD_UPDATE (R463): Update-DR of DBGD launches the debug write of the shifted data. -/
  | dbgdUpdate (value : Word)
  /-- DBGRST (R463): Update-DR of DBGRST with 0xC1A5 starts a debug reset. -/
  | dbgrst (value : BitVec 16)
  /-- DBGEN_CHANGE (R452): The DBGEN input changes and, from the next TCK rising edge, enables or disables DBGA, DBGD and DBGRST. -/
  | dbgenChange (level : Bool)
  /-- DEADLK (R206): The quiet count reaches 4,096 cycles and DEADLK becomes due to the unit master. -/
  | deadlk
  /-- PIN_RESET (R451): RST_N low for 3 fabric cycles triggers a unit reset at its release. -/
  | pinReset
  /-- REFCLK_LOSS (R450): REFCLK absent for two LFCLK periods forces every pad safe and holds other islands in reset. -/
  | refclkLoss
  /-- REFCLK_RETURN (R450): REFCLK present again for two LFCLK periods causes a pin reset. -/
  | refclkReturn
  /-- GOVERNOR_ADMISSION (R59): The governor admits the head of its queue once the interval and budget terms have passed. -/
  | governorAdmission
  /-- WAKE_TIMER (R66): The wake timer counts down to zero in Doze or Dormant and wakes the unit. -/
  | wakeTimer
  /-- AON_WRITE_DONE (R28): A write to the always-on island completes its slow crossing and clears BUSY. -/
  | aonWriteDone
  /-- ROUTE_DISPATCH (R218): The dispatcher reads the routes of raised channels, checks EN and group, and spills beyond 32. -/
  | routeDispatch
  /-- ROUTE_FIRE (R218): The targets of a passed swing route fire in their fire cycle with the outcomes at each task input. -/
  | routeFire
  /-- LOOP_WINDOW (R224): Every 200 fabric cycles a new loop window restarts the route raise counts. -/
  | loopWindow
  /-- LATCH_COMMIT_DONE (R222): The new latch slots replace the old ones at one LFCLK edge and CPEND clears. -/
  | latchCommitDone
  /-- LF_TICK (R251): An LFCLK rising edge advances timers in LF running and the fabric copy in Doze. -/
  | lfTick
  /-- TB_CORRECTION (R232): At the correction instant a rate or step takes effect in the timebase and fabric copy. -/
  | tbCorrection
  /-- OUTPUT_COMMIT (R266): At the output commit instant pads in commit mode take their PAD_COMMIT levels. -/
  | outputCommit
  /-- CAL_SETTLED (R273): Delay-line calibration settles, sets SETTLED and raises channel 670. -/
  | calSettled
  /-- OWN_OUT_CHANGE (R278): OWN_OUT takes its new level at the first pad clock edge at or after the commit instant. -/
  | ownOutChange
  /-- SHACKLE_HOLD_EXPIRY (R279): HOLDT elapses after OWN_OUT falls and the Shackle gate shows the safe state. -/
  | shackleHoldExpiry
  /-- TICK_INSTANT (R336): At the tick instant inputs are latched, channel 576 raised and ownership decided. -/
  | tickInstant
  /-- HALF_TICK (R339): At the half-tick instant a missing TICK frame counts as lost and may cause tick loss. -/
  | halfTick
  /-- LOCAL_INPUT_PASS (R297): The local input pass, pads to TX snapshot, goes on. -/
  | localInputPass
  /-- EXCHANGE_COMPLETE (R343): Every record of the tick is collected and the image exchange completes. -/
  | exchangeComplete
  /-- CHAIN_INPUT_PASS (R305): The chain input pass, RX window and chain points, goes on. -/
  | chainInputPass
  /-- OUTPUT_PASS (R300): The output pass, from the image to the destinations, goes on. -/
  | outputPass
  /-- COMMIT_BUFFER_LAND (R301): The output pass commit buffer lands in the pad island and updates PAD_COMMIT levels. -/
  | commitBufferLand
  /-- FLIP (R309): At the flip tick named waiting threads are relocated to the other bank. -/
  | flip
  /-- SYNC_TIMEOUT (R347): 100 ms without an applied frame clears SYNC. -/
  | syncTimeout
  /-- OWN_FRAME_SEND (R330): A queued own frame starts on a port inside its own-frame window. -/
  | ownFrameSend
  /-- HEARTBEAT_SEND (R388): After its snapshot a paired unit sends its heartbeat train ahead of its other own frames. -/
  | heartbeatSend
  /-- MIRROR_APPLY (R391): A complete mirror is copied into the Tracking unit's windows and IV is raised. -/
  | mirrorApply
  /-- APPLY_DEADLINE (R391): The apply deadline passes without a mirror, so IV is raised and NOMIR set. -/
  | applyDeadline
  /-- DICT_RESET (R375): After the response of a keyed write of 0x2010 has left, a dictionary reset starts. -/
  | dictReset
  /-- DFW_TIMEOUT (R378): No response within TMO × 100 µs, so the agent answers BUSY. -/
  | dfwTimeout
  /-- LRP_RESPONSE (R461): The DR is ready, fills LRP_RSP and sets DONE and LRP_IRQ. -/
  | lrpResponse
  /-- ACTIVATION (R439): At the activation tick the unit checks again and switches banks, relocating or restarting. -/
  | activation
  /-- DBGD_CAPTURE (R463): Capture-DR of DBGD returns DONE, ERR and read data of the latest access. -/
  | dbgdCapture
  /-- DEBUG_ACCESS_DONE (R463): A debug access completes or is refused at its target. -/
  | debugAccessDone
  /-- IDCODE (R462): The IDCODE instruction selects the 32-bit identification register. -/
  | idcode
  /-- TRST_N (R464): TRST_N low places the test port in Test-Logic-Reset without resetting the unit. -/
  | trstN
  /-- NV_READY (R457): NV_READY rises, letting the Keeper read the NV macro. -/
  | nvReady
  /-- DOZE_ENTRY_START (R374): For a Doze or Dormant request accepted through the dictionary, the entry sequence of R65 starts once the DR has left both ports, or 10 ms after acceptance, whichever comes first. -/
  | dozeEntryStart
  /-- KEEPER_RESCAN_END (R408): The Keeper's rescan after a wake from Doze ends, clearing KPR_STAT.SCAN and reporting a torn raw write on channel 663. -/
  | keeperRescanEnd
  /-- RST_N_ASSERT (R451): RST_N is recognised low in 3 consecutive fabric cycles, and every island except the always-on island is held in reset until RST_N is sampled high. -/
  | rstNAssert
  deriving DecidableEq, Repr

end Sys2Proof
end

