-- ==== Sys2Proof/WellFormed.lean ====
section
/-! DEFINITION. What a command of the block's own interfaces can carry: the identities that Table 1.4 issues, frames and
payloads of the lengths of R327 and Table 12.8, image words that exist, aligned accesses. `exec` is total and does not ask
for it. -/

namespace Sys2Proof

/-- An identity of Table 1.4; 291 to 511 are never issued (R29). -/
def idWf (id : Id) : Bool := decide (id.toNat ≤ 290)

/-- A frame carries at most 1,024 payload bytes, which LEN counts in 11 bits (R327). -/
def Frame.wf (f : Frame) : Bool := decide (f.payload.length ≤ 1024)

/-- A request through the local register port has neither a SEQ nor a destination 255 (R349, R461). -/
def DictHeader.wf (r : DictHeader) : Bool := r.src == .chain || (r.seq == 0 && !r.bcast)

/-- A word of image memory: 384 KB hold 98,304 words (Table 1.5). -/
def woffWf (woff : BitVec 17) : Bool := decide (woff.toNat < 98304)

/-- An access of the local register port is an aligned word (R459). -/
def aligned (off : BitVec 10) : Bool := off.toNat % 4 == 0

/-- A register access is an aligned word (R34). -/
def wordAligned (addr : Word) : Bool := addr.toNat % 4 == 0

/-- A dictionary payload has at most 1,016 data bytes (Table 12.8). -/
def dataWf (data : List Byte) : Bool := decide (data.length ≤ 1016)

/-- The command is one that the interfaces of the unit can carry. -/
def Instr.wf : Instr → Bool
  | .add _ _ _ _ => true
  | .sub _ _ _ _ => true
  | .andOp _ _ _ _ => true
  | .orOp _ _ _ _ => true
  | .xorOp _ _ _ _ => true
  | .shl _ _ _ _ => true
  | .shr _ _ _ _ => true
  | .sar _ _ _ _ => true
  | .rot _ _ _ _ => true
  | .cmp _ _ _ => true
  | .mov _ _ _ => true
  | .movh _ _ _ => true
  | .mul _ _ _ _ => true
  | .mulh _ _ _ _ => true
  | .divOp _ _ _ _ _ => true
  | .divu _ _ _ _ _ => true
  | .remOp _ _ _ _ _ => true
  | .remu _ _ _ _ _ => true
  | .ldw _ _ _ _ => true
  | .ldh _ _ _ _ => true
  | .ldhu _ _ _ _ => true
  | .ldb _ _ _ _ => true
  | .ldbu _ _ _ _ => true
  | .stw _ _ _ _ => true
  | .sth _ _ _ _ => true
  | .stb _ _ _ _ => true
  | .fldW _ _ _ _ => true
  | .fldH _ _ _ _ => true
  | .fldHu _ _ _ _ => true
  | .fldB _ _ _ _ => true
  | .fldBu _ _ _ _ => true
  | .fstW _ _ _ _ => true
  | .fstH _ _ _ _ => true
  | .fstB _ _ _ _ => true
  | .fbt _ _ _ _ _ => true
  | .fbs _ _ _ _ _ => true
  | .fbc _ _ _ _ _ => true
  | .fbw _ _ _ _ _ _ => true
  | .bCond _ _ _ => true
  | .br _ _ => true
  | .bl _ _ => true
  | .jr _ _ => true
  | .jrL _ _ => true
  | .ret _ => true
  | .tset _ _ _ _ => true
  | .tget _ _ _ _ => true
  | .tgo _ _ => true
  | .tstop _ => true
  | .trst _ _ => true
  | .yield _ => true
  | .prio _ _ => true
  | .sig _ _ => true
  | .waite _ _ => true
  | .arm _ _ => true
  | .lock _ _ _ _ => true
  | .ulock _ _ _ => true
  | .waitl _ _ _ => true
  | .mput _ _ _ _ => true
  | .mget _ _ _ _ => true
  | .pset _ _ _ _ => true
  | .pcap _ _ _ => true
  | .trapOp _ _ => true
  | .rfi _ => true
  | .syncOp _ => true
  | .nop _ _ => true
  | .farReply _ _ _ => true
  | .farErrorReply _ _ _ => true
  | .registerWrite id addr _ => idWf id && wordAligned addr
  | .interruptEntry _ _ => true
  | .wdog _ _ => true
  | .eventDelivery _ _ _ => true
  | .consumeNote _ _ => true
  | .modeRequest id _ => idWf id
  | .softReset id _ => idWf id
  | .powerOnReset _ => true
  | .recallComplete _ => true
  | .sysEngpwrWrite id _ => idWf id
  | .sysEngstartWrite id _ => idWf id
  | .islandLock _ => true
  | .wakeEvent _ => true
  | .engineReset id _ _ => idWf id
  | .engWhctlCommit id _ _ => idWf id
  | .wheelSwitch _ => true
  | .trpRel id _ _ => idWf id
  | .dbgFreeze id _ => idWf id
  | .dbgCtxdataAccess id _ => idWf id
  | .dbgMdataAccess id _ => idWf id
  | .dbgHalt id _ _ => idWf id
  | .dbgRun id _ _ => idWf id
  | .dbgStep id _ _ => idWf id
  | .scrubStep _ => true
  | .clrcnt id _ => idWf id
  | .eccInjArm id _ => idWf id
  | .localMergeTimeout _ => true
  | .farMergeTimeout _ => true
  | .lreqAcquire id woff => idWf id && woffWf woff
  | .lreqRelease id woff => idWf id && woffWf woff
  | .lreqClear id woff => idWf id && woffWf woff
  | .tumLqry id woff => idWf id && woffWf woff
  | .bclrall id => idWf id
  | .tumCntclr id => idWf id
  | .mbW0Write id _ _ => idWf id
  | .mbW1Write id _ _ => idWf id
  | .mbW0Read id _ => idWf id
  | .mbW1Read id _ => idWf id
  | .raiseEvent _ _ => true
  | .hfRaccWr id => idWf id
  | .hfRaccRd id => idWf id
  | .hfCommit id => idWf id
  | .hfCntclr id => idWf id
  | .hfRaise id _ _ => idWf id
  | .hfGrpenWrite id _ _ => idWf id
  | .latchRouteFire _ => true
  | .timerStep _ => true
  | .compareMatch _ _ => true
  | .timerWrap _ => true
  | .tstart id _ => idWf id
  | .tmrstop id _ => idWf id
  | .tmrCntlWrite id _ _ => idWf id
  | .tmrCntlRead id _ => idWf id
  | .tmrToplWrite id _ _ => idWf id
  | .compLWrite id _ _ _ => idWf id
  | .capLRead id _ _ => idWf id
  | .capHRead id _ _ => idWf id
  | .capturePairTimeout _ _ => true
  | .tbRateWrite id _ => idWf id
  | .tbSteplWrite id _ => idWf id
  | .tbCtlWrite id _ => idWf id
  | .tbNowlRead id => idWf id
  | .psetLand _ => true
  | .edgePlace _ => true
  | .padEdge _ _ _ => true
  | .pcapLand _ => true
  | .padStlRead id _ => idWf id
  | .padStamp id _ => idWf id
  | .qflush id _ => idWf id
  | .padRelease id _ => idWf id
  | .padHold id _ => idWf id
  | .padSforce id _ => idWf id
  | .padCfgWrite id _ _ => idWf id
  | .padFpuWrite id _ _ => idWf id
  | .calLap _ => true
  | .cvtSchedlWrite id _ _ => idWf id
  | .cvtCfgWrite id _ _ => idWf id
  | .triggerPlace _ => true
  | .triggerFall _ => true
  | .cvtBusyTimeout _ => true
  | .sampleDelivery _ _ => true
  | .cvtRdataRead id _ => idWf id
  | .cvtLastlRead id _ => idWf id
  | .scnFliplWrite id _ => idWf id
  | .flipCancel id => idWf id
  | .scnCntclr id => idWf id
  | .shGo id _ => idWf id
  | .shStop id _ => idWf id
  | .shRst id _ => idWf id
  | .shuttleDescriptor _ => true
  | .shuttleElement _ => true
  | .shuttleDescriptorDone _ => true
  | .shuttleLockRetry _ => true
  | .portUp _ => true
  | .portDown _ => true
  | .frameForward _ f => f.wf
  | .addressFrame _ f => f.wf
  | .dqFrame _ f => f.wf
  | .tickFrame _ f => f.wf
  | .tickRecord _ f => f.wf
  | .timeDistribution _ f _ _ => f.wf
  | .probeSend _ => true
  | .probeRequest _ f _ _ => f.wf
  | .probeEcho _ f _ => f.wf
  | .eventFrame _ f => f.wf
  | .chEvsend id _ => idWf id
  | .updateFirmwareKind _ f => f.wf
  | .chUpstAck id => idWf id
  | .chCntclr id => idWf id
  | .chTilRead id => idWf id
  | .shackleFrame _ f => f.wf
  | .swreq id => idWf id
  | .swcan id => idWf id
  | .shkCntclr id => idWf id
  | .dictRead r => r.wf
  | .dictWrite r data => r.wf && dataWf data
  | .segmentedReadInitiate r => r.wf
  | .segmentedWriteInitiate r data => r.wf && dataWf data
  | .segment r data _ => r.wf && dataWf data
  | .abortTransfer r => r.wf
  | .transferTimeout _ _ => true
  | .saveComplete _ => true
  | .firmwareObjectRequest r _ data => r.wf && dataWf data
  | .dfwRsp id _ => idWf id
  | .lrpGo _ => true
  | .lrpAck _ => true
  | .lrpReqWrite off _ => aligned off
  | .rawRead id _ _ _ => idWf id
  | .rawWrite id _ _ _ => idWf id
  | .ringRead id _ => idWf id
  | .ringWrite id _ => idWf id
  | .formatNv id => idWf id
  | .keeperCommandDone _ _ => true
  | .ringStep _ => true
  | .tornclr id => idWf id
  | .kprCntclr id => idWf id
  | .keeperRescan _ => true
  | .updateOpen _ f => f.wf
  | .updateData _ f => f.wf
  | .updateClose _ f => f.wf
  | .sealImage id => idWf id
  | .sealDone _ => true
  | .updAbort id => idWf id
  | .updCntclr id => idWf id
  | .activationCommit _ => true
  | .dbga _ => true
  | .dbgdUpdate _ => true
  | .dbgrst _ => true
  | .dbgenChange _ => true
  | .deadlk => true
  | .pinReset => true
  | .refclkLoss => true
  | .refclkReturn => true
  | .governorAdmission => true
  | .wakeTimer => true
  | .aonWriteDone => true
  | .routeDispatch => true
  | .routeFire => true
  | .loopWindow => true
  | .latchCommitDone => true
  | .lfTick => true
  | .tbCorrection => true
  | .outputCommit => true
  | .calSettled => true
  | .ownOutChange => true
  | .shackleHoldExpiry => true
  | .tickInstant => true
  | .halfTick => true
  | .localInputPass => true
  | .exchangeComplete => true
  | .chainInputPass => true
  | .outputPass => true
  | .commitBufferLand => true
  | .flip => true
  | .syncTimeout => true
  | .ownFrameSend => true
  | .heartbeatSend => true
  | .mirrorApply => true
  | .applyDeadline => true
  | .dictReset => true
  | .dfwTimeout => true
  | .lrpResponse => true
  | .activation => true
  | .dbgdCapture => true
  | .debugAccessDone => true
  | .idcode => true
  | .trstN => true
  | .nvReady => true
  | .dozeEntryStart => true
  | .keeperRescanEnd => true
  | .rstNAssert => true

end Sys2Proof
end

