-- ==== Sys2Proof/Decode.lean ====
section
/-! DEFINITION. The command that a word spells by the opcode table's bits. No row of the table gives bits: every row's
field list is empty, since the commands are events at the macro's ports and in its time, not words (DESIGN CHOICE, log
entry 15). So no word spells a command. The encodings of thread instructions (Table 4.5) are operands of `Instr`. -/

namespace Sys2Proof

/-- The command of a word: none, for every width and word. -/
def decodeTableWord (_nbits _w : Nat) : Option Instr := none

end Sys2Proof
end

