-- ==== Sys2Proof/Config.lean ====
section
/-! DEFINITION. What an implementation fixes and the spec leaves open. Each constant below has no body: nothing in
Lean can evaluate it, so a claim about it holds for every value. Each is applied to `State.free`, a plain counter
that the step which draws a value advances (log entry 3). -/

namespace Sys2Proof.Config

/-- A free choice between two outcomes that the spec allows both (log entry 3): the content a latch commit uses of
a route written while it runs (R222), whether a debug write in flight at a unit reset took effect (R463), whether
the segment in flight of a raw write cut short is old or new (R414). -/
opaque freeBit : Nat → Bool

/-- A free number (log entry 3): how many segments of a raw write were complete when a reset cut it short (R414). -/
opaque freeNat : Nat → Nat

/-- A free word (log entry 3): a result that the spec leaves undefined or does not state. -/
opaque freeWord : Nat → Word

end Sys2Proof.Config
end

