-- ==== Sys2Proof/Machine/RegMap.lean ====
section
/-! DEFINITION. The register map: for each register of the spec's register tables its address (with stride and count
where it is an array), the bits that a write sets (RW), the bits that a written 1 clears (W1C) and its Reset value.
Bits in neither mask ignore writes (RO, Reserved: R13, R14); bits whose write acts (WO, W1S) are in neither mask,
their action is the register's own operation. A P field takes the value its table gives when the profile holds none
(0 where the table gives none; log entry 6); a U field reads 0 until its first write (log entry 7). -/

namespace Sys2Proof.Machine

/-- One row of the register map. -/
structure RegRow where
  base : Nat
  stride : Nat
  count : Nat
  rw : Nat
  w1c : Nat
  reset : Nat
  deriving DecidableEq, Repr

/-- The row covers an address. -/
def RegRow.covers (r : RegRow) (a : Nat) : Bool :=
  decide (r.base ≤ a) && (if r.stride = 0 then decide (a = r.base)
    else decide ((a - r.base) % r.stride = 0) && decide ((a - r.base) / r.stride < r.count))

/-- Tables 1.6 to 1.12a and 2.3 to 2.12: the system registers. -/
def sysRows : List RegRow :=
  [⟨0x500F0000, 0, 1, 0, 0, 0x02560100⟩,            -- SYS_ID
   ⟨0x500F0014, 0, 1, 0, 0, 0⟩,                     -- SYS_CLAMP
   ⟨0x500F0018, 0, 1, 0, 0, 0⟩,                     -- SYS_XERR
   ⟨0x500F0020, 0, 1, 0, 1, 0⟩,                     -- SYS_XFLAG
   ⟨0x500F0100, 0, 1, 0, 0x700, 0⟩,                 -- SYS_MODE (CUR, PREV held here)
   ⟨0x500F0108, 0, 1, 0, 0x3F, 1⟩,                  -- SYS_RSTCAUSE
   ⟨0x500F0110, 0, 1, 0, 0x3F, 0⟩,                  -- SYS_SAFECAUSE
   ⟨0x500F0114, 0, 1, 0xFFFFFFFF, 0, 0⟩,            -- SYS_ENGPWR
   ⟨0x500F0118, 0, 1, 0, 0, 0⟩,                     -- SYS_ENGSTART
   ⟨0x500F011C, 0, 1, 0xFF7F, 0, 0x480F⟩,           -- SYS_GOVCFG
   ⟨0x500F0120, 0, 1, 0, 0, 0⟩,                     -- SYS_GOVST (LASTDEFER held here)
   ⟨0x500F0124, 0, 1, 0, 0, 0⟩,                     -- SYS_GOVCNT
   ⟨0x500F0128, 0, 1, 3, 0, 3⟩,                     -- SYS_WAKECFG
   ⟨0x500F012C, 0, 1, 0xFFFFFFFF, 0, 0⟩,            -- SYS_WAKETMR
   ⟨0x500F0130, 0, 1, 0, 3, 0⟩,                     -- SYS_WAKESRC
   ⟨0x500F0200, 0, 1, 0xFF, 0, 0⟩,                  -- SYS_TWIN
   ⟨0x500F0204, 0, 1, 0, 0x80000000, 0⟩]            -- SYS_TWINERR

/-- Tables 3.4 to 3.10, 5.5 to 5.8, 5.10, 5.11: engine, trap and debug registers. Engine blocks lie 0x100 apart. -/
def engRows : List RegRow :=
  [⟨0x500F1010, 0x100, 16, 0xCFCFCFCF, 0, 0x80808080⟩, ⟨0x500F1014, 0x100, 16, 0xCFCFCFCF, 0, 0x80808080⟩,
   ⟨0x500F1018, 0x100, 16, 0xCFCFCFCF, 0, 0x80808080⟩, ⟨0x500F101C, 0x100, 16, 0xCFCFCFCF, 0, 0x80808080⟩,
   ⟨0x500F1020, 0x100, 16, 0, 0, 0x80808080⟩, ⟨0x500F1024, 0x100, 16, 0, 0, 0x80808080⟩,
   ⟨0x500F1028, 0x100, 16, 0, 0, 0x80808080⟩, ⟨0x500F102C, 0x100, 16, 0, 0, 0x80808080⟩,
   ⟨0x500F2000, 0x100, 16, 0x00FFFFFC, 0, 0x00555554⟩,   -- TRP_POL
   ⟨0x500F2008, 0x100, 16, 0, 0x80000000, 0⟩,            -- TRP_RECA
   ⟨0x500F200C, 0x100, 16, 0, 0, 0⟩,                     -- TRP_RECB
   ⟨0x500F2010, 0x100, 16, 0, 0, 0⟩,                     -- TRP_RECC
   ⟨0x500F2014, 0x100, 16, 0, 0, 0⟩,                     -- TRP_CNT
   ⟨0x500F3000, 0, 1, 3, 8, 0⟩,                          -- DBG_CTL
   ⟨0x500F3004, 0, 1, 0xFFFF, 0, 0⟩,                     -- DBG_CTXSEL
   ⟨0x500F300C, 0, 1, 0x1FFFFC, 0, 0⟩,                   -- DBG_MADDR
   ⟨0x500F3110, 0x20, 16, 0xFFFFFFFF, 0, 0⟩, ⟨0x500F3114, 0x20, 16, 0xFFFFFFFF, 0, 0⟩,
   ⟨0x500F3118, 0x20, 16, 0xFFFFFFFF, 0, 0⟩, ⟨0x500F311C, 0x20, 16, 0xFFFFFFFF, 0, 0⟩]  -- DBG_BP0 to 3

/-- ENG_THCFGt of every engine (Table 3.10): 16 engine blocks, 16 registers 4 bytes apart from offset 0x40. -/
def isThcfg (a : Nat) : Bool :=
  decide (0x500F1000 ≤ a) && decide (a < 0x500F2000) && decide (0x40 ≤ a % 0x100) && decide (a % 0x100 < 0x80)
    && decide (a % 4 = 0)

/-- Tables 6.6 to 6.9: the error registers. -/
def eccRows : List RegRow :=
  [⟨0x500F4000, 0, 1, 3, 0, 1⟩,                          -- ECC_CTL
   ⟨0x500F4014, 0, 1, 0x7F007F7F, 0, 0⟩,                 -- ECC_INJ (ARM held here)
   ⟨0x500F4100, 0x20, 35, 0, 0, 0⟩,                      -- ECC_CNT
   ⟨0x500F4104, 0x20, 35, 0, 0x80000000, 0⟩,             -- ECC_CST
   ⟨0x500F4108, 0x20, 35, 0, 0, 0⟩,                      -- ECC_CADDR
   ⟨0x500F410C, 0x20, 35, 0, 0x80000000, 0⟩,             -- ECC_UST
   ⟨0x500F4110, 0x20, 35, 0, 0, 0⟩,                      -- ECC_UADDR
   ⟨0x500F4114, 0x20, 35, 0, 0, 0⟩]                      -- ECC_LAPM

/-- Tables 7.5 to 7.8: the Tumbler registers. -/
def tumRows : List RegRow :=
  [⟨0x50040000, 0, 1, 1, 0, 1⟩,                          -- TUM_CTL
   ⟨0x50040008, 0, 1, 0, 0, 0⟩,                          -- TUM_CNT
   ⟨0x5004000C, 0, 1, 0, 0, 0⟩,                          -- TUM_MCNT
   ⟨0x50040024, 0, 1, 0, 0, 0⟩]                          -- TUM_QCNT

/-- Tables 8.9 to 8.11: the Hinge fabric registers. -/
def hfRows : List RegRow :=
  [⟨0x50010004, 0, 1, 0, 2, 0⟩,                          -- HF_STAT (CDIRTY held here)
   ⟨0x50010008, 0, 1, 0xFFF, 0, 0⟩,                      -- HF_RIDX
   ⟨0x50010010, 4, 4, 0xFFFFFFFF, 0, 0⟩,                 -- HF_RD0 to 3
   ⟨0x50010020, 4, 2, 0xFFFFFFFF, 0, 0xFFFFFFFF⟩,        -- HF_GRPEN0, 1
   ⟨0x50010030, 0, 1, 0, 0, 0⟩,                          -- HF_CNT
   ⟨0x50010034, 0, 1, 0, 0, 0⟩,                          -- HF_TCNT
   ⟨0x50010038, 0, 1, 0, 0, 0⟩,                          -- HF_LOOPDIAG
   ⟨0x5001003C, 0, 1, 0, 0xFFFFFFFF, 0⟩,                 -- HF_LFIRE
   ⟨0x50010400, 4, 40, 0, 0xFFFFFFFF, 0⟩,                -- HF_COINCj
   ⟨0x50010500, 4, 40, 0, 0xFFFFFFFF, 0⟩,                -- HF_OVRj
   ⟨0x50011000, 4, 704, 0, 0x40000000, 0⟩,               -- HF_CHc, c = 0 to 703
   ⟨0x50011B00, 4, 320, 0x1F, 0xC0000000, 16⟩]           -- HF_CHc, c = 704 to 1023

/-- Tables 9.4 to 9.7: the timer window. Timer blocks lie 0x100 apart, slots 0x20 apart. -/
def tmrRows : List RegRow :=
  [⟨0x50000000, 0x100, 32, 0x3B3, 0, 0⟩,                 -- TMR_CTL
   ⟨0x50000008, 0x100, 32, 0xFFFF, 0, 0⟩,                -- TMR_PRESC
   ⟨0x5000000C, 0x100, 32, 0xFFFFFFFF, 0, 6104⟩,         -- TMR_LFINC
   ⟨0x50000040, 0x100, 32, 0xB, 0x3C0, 0⟩, ⟨0x50000060, 0x100, 32, 0xB, 0x3C0, 0⟩,
   ⟨0x50000080, 0x100, 32, 0xB, 0x3C0, 0⟩, ⟨0x500000A0, 0x100, 32, 0xB, 0x3C0, 0⟩,   -- SLOTs_CFG
   ⟨0x50000048, 0x100, 32, 0xFFFF, 0, 0⟩, ⟨0x50000068, 0x100, 32, 0xFFFF, 0, 0⟩,
   ⟨0x50000088, 0x100, 32, 0xFFFF, 0, 0⟩, ⟨0x500000A8, 0x100, 32, 0xFFFF, 0, 0⟩]     -- COMPs_H

/-- The timebase registers (Tables 9.4 and 9.7). -/
def tbRows : List RegRow :=
  [⟨0x50002010, 0, 1, 1, 0, 0⟩,                          -- TB_CTL
   ⟨0x50002014, 0, 1, 0, 0x10000, 0⟩,                    -- TB_STAT
   ⟨0x50002020, 0, 1, 0, 0, 0⟩,                          -- TB_RATE
   ⟨0x50002028, 0, 1, 0, 0, 0⟩,                          -- TB_STEPH (written under R235)
   ⟨0x5000202C, 0, 1, 0xFFFFFFFF, 0, 6104⟩]              -- TB_LFINC

/-- Tables 10.3a to 10.7: the pad window. CVT_CFG.WIDTH and TMO hold 1 where no profile is loaded, the lowest value that
Table 10.7 allows them (DESIGN CHOICE, log entry 84). -/
def padRows : List RegRow :=
  [⟨0x50020000, 0x20, 128, 0x01FED000, 0, 0⟩,            -- PAD_CFG
   ⟨0x50020004, 0x20, 128, 0, 0xFE, 0⟩,                  -- PAD_STAT (flags held here)
   ⟨0x5002000C, 0x20, 128, 3, 0, 2⟩,                     -- PAD_COMMIT
   ⟨0x50021000, 4, 64, 0x8000007F, 0, 0⟩,                -- PAD_FPUu
   ⟨0x50021100, 0, 1, 0, 0, 0⟩,                          -- PAD_ECNT
   ⟨0x50021104, 0, 1, 0, 0, 0⟩,                          -- PAD_SCNT
   ⟨0x50021108, 0, 1, 0, 0, 0⟩,                          -- CAL_STAT
   ⟨0x5002110C, 0, 1, 0, 0, 0⟩,                          -- OWN_STAT
   ⟨0x50021110, 0, 1, 0xFFFF, 0, 1000⟩,                  -- OWN_CFG
   ⟨0x50022000, 0x40, 8, 0xFF00FFFF, 0, 0x01000001⟩,     -- CVT_CFG
   ⟨0x50022004, 0x40, 8, 0, 0xF, 0⟩,                     -- CVT_STAT (flags held here)
   ⟨0x50022008, 0x40, 8, 0xFFFFFFFF, 0, 0⟩,              -- CVT_TOFF
   ⟨0x50022010, 0x40, 8, 0xFFFFFFFF, 0, 0⟩]              -- CVT_SCHEDH

/-- Table 11.9: the scan registers. -/
def scanRows : List RegRow :=
  [⟨0x500F5000, 0, 1, 1, 0, 1⟩,                          -- SCN_CTL
   ⟨0x500F5004, 0, 1, 0, 0x3E, 0⟩,                       -- SCN_STAT
   ⟨0x500F5008, 0, 1, 0x7F7F7F7F, 0, 0x04101010⟩,        -- SCN_LAY
   ⟨0x500F500C, 4, 2, 0x3FFF7FFF, 0, 0⟩,                 -- SCN_INLIST, SCN_OUTLIST
   ⟨0x500F5014, 0, 1, 0xFFFF, 0, 200⟩,                   -- SCN_OLEAD
   ⟨0x500F5018, 0, 1, 0xFFFFFFFF, 0, 0xFFFFFFFF⟩,        -- SCN_EVT
   ⟨0x500F501C, 0, 1, 0x7FFF8, 0, 0⟩,                    -- IMG_TXOFF
   ⟨0x500F5020, 0, 1, 0x1FF, 0, 0⟩,                      -- IMG_TXLEN
   ⟨0x500F5024, 0, 1, 0x7FFF8, 0, 0⟩,                    -- IMG_RXOFF
   ⟨0x500F5028, 0, 1, 0xFFFF, 0, 0⟩,                     -- IMG_RXLEN
   ⟨0x500F502C, 0, 1, 0x7FFF8, 0, 0x34000⟩,              -- WRD_QBASE
   ⟨0x500F5030, 0, 1, 0x7FFFC, 0, 0x34800⟩,              -- WRD_SWBASE
   ⟨0x500F5034, 4, 4, 0, 0, 0⟩,                          -- SCN_PLEN0, 1, SCN_CNT0, 1
   ⟨0x500F5044, 4, 2, 0xFFFFFFFF, 0, 0⟩,                 -- SCN_FLIPL, SCN_FLIPH
   ⟨0x500F504C, 0, 1, 0, 0x40000000, 0⟩,                 -- SCN_FLIPST
   ⟨0x500F5050, 4, 8, 0xFFFFFFFF, 0, 0⟩]                 -- SCN_FLIPTj

/-- Table 11.13: the Shuttle registers. -/
def shRows : List RegRow :=
  [⟨0x50030004, 0x20, 32, 0, 0x10000000, 0⟩,             -- SH_STAT (BROKEN held here)
   ⟨0x50030008, 0x20, 32, 0xFFFFFFF0, 0, 0⟩,             -- SH_DPTR
   ⟨0x5003000C, 0x20, 32, 0x7FFFC, 0, 0⟩,                -- SH_LOCKA
   ⟨0x50030010, 0x20, 32, 0, 0, 0⟩,                      -- SH_ERRA
   ⟨0x50030014, 0x20, 32, 0, 0, 0⟩]                      -- SH_CNT

/-- Tables 12.12 and 12.13: the chain registers. -/
def chRows : List RegRow :=
  [⟨0x50050000, 0, 1, 0xF07, 0, 0x303⟩,                  -- CH_CTL
   ⟨0x50050004, 0, 1, 0, 0x03000000, 0⟩,                 -- CH_STAT
   ⟨0x50050008, 0, 1, 0, 0, 0⟩,                          -- CH_ADDR
   ⟨0x5005000C, 0, 1, 0, 0, 0⟩,                          -- CH_TICKN
   ⟨0x50050018, 0, 1, 0x1FFFFF, 0, 200000⟩,              -- CH_PER
   ⟨0x5005001C, 0, 1, 0x1FFFFF, 0, 160000⟩,              -- CH_COFF
   ⟨0x50050020, 4, 2, 0, 0, 0xFFFFFFFF⟩,                 -- CH_DLYA, CH_DLYB
   ⟨0x50050028, 0, 1, 0xFFFFFFFF, 0, 0⟩,                 -- CH_ASYM
   ⟨0x5005002C, 0, 1, 0, 0, 0⟩,                          -- CH_OFFS
   ⟨0x50050030, 0, 1, 0xFFFF, 0, 200⟩,                   -- CH_SERVO
   ⟨0x50050034, 4, 3, 0, 0, 0⟩,                          -- CH_CNT0 to 2
   ⟨0x50050040, 0, 1, 0, 0x40000000, 0⟩,                 -- CH_EVSEND
   ⟨0x50050044, 4, 4, 0xFFFFFFFF, 0, 0⟩,                 -- CH_EVD0, CH_EVD1, CH_EVTL, CH_EVTH
   ⟨0x50050054, 0, 1, 0, 0, 0⟩,                          -- CH_UPST
   ⟨0x50050058, 0, 1, 0, 0, 0⟩,                          -- CH_TKLEN
   ⟨0x50050060, 4, 8, 0, 0, 0⟩]                          -- CH_RXOKj

/-- Table 14.5: the Shackle registers. -/
def shkRows : List RegRow :=
  [⟨0x500F7000, 0, 1, 1, 0, 0⟩,                          -- SHK_CTL (SWREQ held here)
   ⟨0x500F7004, 0, 1, 0xFF, 0, 0⟩,                       -- SHK_CFG
   ⟨0x500F7008, 0, 1, 0x1FFFFF, 0, 140000⟩,              -- SHK_ADL
   ⟨0x500F700C, 0, 1, 0x3FFFFFF8, 0, 0x10000⟩,           -- SHK_INWIN
   ⟨0x500F7010, 0, 1, 0x3FFFFFF8, 0, 0⟩,                 -- SHK_SDWIN
   ⟨0x500F7014, 0, 1, 0, 0x3E000000, 0⟩,                 -- SHK_STAT
   ⟨0x500F7018, 0, 1, 0, 0, 0⟩,                          -- SHK_PEER
   ⟨0x500F701C, 0, 1, 0, 0, 0⟩]                          -- SHK_CNT

/-- Tables 13.11, 15.7 and 16.5: firmware objects, Keeper and update registers. -/
def kprRows : List RegRow :=
  [⟨0x500F6000, 0, 1, 0xFF01, 0, 0x1400⟩,                -- DFW_CTL
   ⟨0x500F6004, 0, 1, 0, 0x4000, 0⟩,                     -- DFW_STAT
   ⟨0x500F6008, 0, 1, 0x7FFF8, 0, 0x5FC00⟩,              -- DFW_BUF
   ⟨0x50060004, 0, 1, 0, 0x0C000000, 0⟩,                 -- KPR_STAT (UNFMT, TORN, REJ, NVERR held here)
   ⟨0x5006000C, 0, 1, 0, 0, 0⟩,                          -- KPR_RES
   ⟨0x50060018, 4, 3, 0, 0, 0⟩,                          -- KPR_TORN0, KPR_TORN1, KPR_CNT
   ⟨0x50060204, 0, 1, 0, 0x100, 0⟩,                      -- UPD_STAT (NVLAG, REASON held here)
   ⟨0x50060208, 0, 1, 0, 0, 0⟩,                          -- UPD_SESS
   ⟨0x5006020C, 0, 1, 0, 0, 0⟩,                          -- UPD_BANK
   ⟨0x50060218, 0, 1, 0, 0, 0x00010101⟩,                 -- UPD_LVL
   ⟨0x5006021C, 4, 2, 0, 0, 0⟩]                          -- UPD_CNT, UPD_MISS

end Sys2Proof.Machine
end

