-- ==== Sys2Proof/Machine/Tab.lean ====
section
/-! DEFINITION. Sparse tables: lists of key and value with strictly rising keys. A unit holds many like things named
by a number (threads, timers, pads, registers by address); a key that is not listed stands for its default. -/

namespace Sys2Proof.Machine

/-- A sparse table by key, in strictly rising key order. -/
abbrev Tab (α : Type) := List (Nat × α)

/-- The value listed under `k`, where there is one. -/
def tabFind {α : Type} : Tab α → Nat → Option α
  | [], _ => none
  | (j, v) :: t, k => if j = k then some v else tabFind t k

/-- The value of `k`, the default `d` where none is listed. -/
def tabGet {α : Type} (d : α) (t : Tab α) (k : Nat) : α := (tabFind t k).getD d

/-- The table with `v` under `k`. -/
def tabSet {α : Type} : Tab α → Nat → α → Tab α
  | [], k, v => [(k, v)]
  | (j, u) :: t, k, v =>
    if j = k then (k, v) :: t else if k < j then (k, v) :: (j, u) :: t else (j, u) :: tabSet t k v

/-- The table with nothing listed under `k`. -/
def tabErase {α : Type} (t : Tab α) (k : Nat) : Tab α := t.filter fun kv => kv.1 != k

/-- The keys rise strictly. -/
def tabSorted {α : Type} : Tab α → Bool
  | [] => true
  | [_] => true
  | (j, _) :: (k, v) :: t => decide (j < k) && tabSorted ((k, v) :: t)

/-- Every key and value that passes `p` is dropped. -/
def tabDrop {α : Type} (p : Nat → α → Bool) (t : Tab α) : Tab α := t.filter fun kv => !p kv.1 kv.2

/-- Every listed value replaced by `f` of it. -/
def tabMap {α : Type} (f : Nat → α → α) (t : Tab α) : Tab α := t.map fun kv => (kv.1, f kv.1 kv.2)

end Sys2Proof.Machine
end

