-- ==== Sys2Proof/Machine/Mem.lean ====
section
/-! DEFINITION. The addressed memories and buffers as ONE list of (address, byte) pairs (Host.Cell) in one canonical
form: addresses strictly rising, no entry equal to what an unlisted address reads as. The address of a cell is the
Shuttle's address of it (Table 11.10) where the spec gives one; a buffer that no master addresses takes a base of the
model's own (log entry 5). -/

namespace Sys2Proof.Machine

/-- The cells that hold something other than `blankByte`. -/
abbrev Memory := List Host.Cell

/-- What an address with no cell reads as: a byte that nothing has written since its memory was powered up (R95,
R171 leave the contents undefined; DESIGN CHOICE 0, log entry 4). -/
def blankByte : Byte := 0

/-- The byte at an address. -/
def readByte (m : Memory) (a : Nat) : Byte := tabGet blankByte m a

/-- The memory with the byte `b` at an address, in canonical form. -/
def writeByte (m : Memory) (a : Nat) (b : Byte) : Memory :=
  if b = blankByte then tabErase m a else tabSet m a b

/-- The canonical form: rising addresses, no blank byte listed. -/
def Memory.wf (m : Memory) : Bool := tabSorted m && m.all fun c => decide (c.2 ≠ blankByte)

/-- The `n` bytes from an address on, lowest address first. -/
def readBytes (m : Memory) (a : Nat) : Nat → List Byte
  | 0 => []
  | n + 1 => readByte m a :: readBytes m (a + 1) n

/-- The memory with the bytes of a list stored from an address on. -/
def writeBytes (m : Memory) (a : Nat) : List Byte → Memory
  | [] => m
  | b :: bs => writeBytes (writeByte m a b) (a + 1) bs

/-- The memory with every cell in `lo ≤ address < hi` blank again. -/
def eraseRange (m : Memory) (lo hi : Nat) : Memory := tabDrop (fun a _ => decide (lo ≤ a ∧ a < hi)) m

/-- The little-endian number that bytes spell (R10). -/
def leNat : List Byte → Nat
  | [] => 0
  | b :: bs => b.toNat + 256 * leNat bs

/-- The `n` little-endian bytes of a number (R10). -/
def leBytes : Nat → Nat → List Byte
  | 0, _ => []
  | n + 1, v => BitVec.ofNat 8 v :: leBytes n (v / 256)

/-- The word at an address (R10). -/
def readWord (m : Memory) (a : Nat) : Word := BitVec.ofNat 32 (leNat (readBytes m a 4))

/-- The memory with a word stored at an address (R10). -/
def writeWord (m : Memory) (a : Nat) (v : Word) : Memory := writeBytes m a (leBytes 4 v.toNat)

/-- The doubleword at an address (R10). -/
def readDword (m : Memory) (a : Nat) : Time64 := BitVec.ofNat 64 (leNat (readBytes m a 8))

/-- The memory with a doubleword stored at an address (R10). -/
def writeDword (m : Memory) (a : Nat) (v : Time64) : Memory := writeBytes m a (leBytes 8 v.toNat)

end Sys2Proof.Machine
end

