-- ==== Sys2Proof/Machine/State.lean ====
section
/-! DEFINITION. The state of the KX256 as plain data, and the state right after a power-on reset. Every register of
the spec's register tables lives in `State.regs` under its address (Sys2Proof/Machine/RegMap.lean gives its fields
and its Reset value); what is no register (queues, latches, entries, positions) has a field of its own below. -/

namespace Sys2Proof.Machine

/-- The modes of Table 2.1 (R45). -/
inductive Mode where
  | recall
  | unaddressed
  | preparation
  | run
  | tracking
  | safe
  | doze
  | dormant
  deriving DecidableEq, Repr

/-- The power of an engine island (R46, R59 to R61, Table 1.9): off, retained, powering (admitted, its generator not
yet locked), on. -/
inductive Power where
  | off
  | retained
  | powering
  | on
  deriving DecidableEq, Repr

/-- The states of a thread (Table 3.11). -/
inductive ThreadState where
  | stopped
  | ready
  | running
  | waiting
  | trapped
  | halted
  deriving DecidableEq, Repr

/-- Where the value of a far load goes (R126, R154): a register, T, a word of an entry frame in data SRAM, or T (bit
27) in the status word of an entry frame. -/
inductive Dest where
  | reg (r : Reg)
  | flagT
  | frame (addr : Word) (r : Reg)
  | frameT (addr : Word)
  deriving DecidableEq, Repr

/-- Why a thread is WAITING (Table 3.9) and for what: WAITE with its rd, WAITL with its address, or a far stall (R78), of a
timed thread that is RUNNING too (R79), on source registers, on the limit of R129, on SYNC or on the frame of an RFI. -/
inductive Wait where
  | none
  | event (rd : Reg)
  | lock (addr : Word)
  | farSrc (rs : List Dest)
  | farLimit
  | farSync
  | farRfi (sp : Word)
  deriving DecidableEq, Repr

/-- The trap codes that hardware raises (Tables 5.6 and 5.8); TRAP n is `0x10 + n`. -/
inductive Trap where
  | illop
  | align
  | priv
  | ecci
  | eccd
  | farerr
  | brk
  | wdog
  | deadlk
  | stkov
  | trapN (n : BitVec 4)
  deriving DecidableEq, Repr

/-- An event at a thread input (R213, R214): channel, timestamp, COINC and OVR. -/
structure Ev where
  ch : BitVec 10
  ts : Time64
  coinc : Bool
  ovr : Bool
  deriving DecidableEq, Repr

/-- What a far request still waits for. `flight`: a PSET or PCAP on its way to the pad island. `merge`: a store in the
far merge entry (R179). `aon`: a write crossing to the always-on island (R132). `done`: the target has answered. -/
inductive FarPhase where
  | flight
  | merge
  | aon
  | done
  deriving DecidableEq, Repr

/-- The island that a far request goes to. Requests of a thread to one island, and their replies, keep their order
(R27). -/
inductive Isle where
  | fabric
  | pad
  | link
  | keeper
  | engine
  | aon
  deriving DecidableEq, Repr

/-- An outstanding far request of a thread (R126 to R129, R143): the address of the instruction, the destinations that
still take its value (with the value), the answer's error with its INFO, its island, its number in issue order. -/
structure FarReq where
  pc : Word
  phase : FarPhase
  dests : List (Dest × Word)
  err : Option (Trap × Word)
  isle : Isle
  ord : Nat
  deriving DecidableEq, Repr

/-- A far error reply that is due (R143): trap code, INFO, address and issue number of the far instruction, fabric cycle
of the arrival. -/
structure ErrDue where
  code : Trap
  info : Word
  pc : Word
  ord : Nat
  cyc : Nat
  deriving DecidableEq, Repr

/-- One hardware thread: its context (Tables 3.14 and 5.12), its state and what is due to it. -/
structure Thread where
  /-- w0 to w15 (R102); a register not listed holds its reset value: 0, and 0x0001_4000 for w14. -/
  w : Tab Word := []
  /-- Selector 0x10. -/
  pc : Word := 0
  /-- Selector 0x11, Table 4.1. -/
  status : Word := 0
  /-- Selector 0x12 (R153). -/
  vbase : Word := 0x7F00
  /-- Selector 0x13 (R164). -/
  slim : Word := 0x10000
  /-- Selector 0x16 (R165). -/
  hprev : ThreadState := .stopped
  st : ThreadState := .stopped
  wait : Wait := .none
  /-- The armed mask of R136. -/
  armed : BitVec 4 := 0
  /-- The engine's copies of the events latched at EV0 to EV3 (R213). -/
  ev : Tab Ev := []
  /-- The fetch-ahead word (R118): its address, the word, its bad mark (R173), and whether it is a bad vector word
  (R153). -/
  faAddr : Word := 0
  faWord : Word := 0
  faBad : Bool := false
  faVec : Bool := false
  /-- The same of the odd engine of a Twin pair (R98 to R101); outside a pair, a copy. -/
  faWord2 : Word := 0
  faBad2 : Bool := false
  /-- A divide in progress (R112, R113): the operands that its first beat read. -/
  div : Option (Word × Word) := Option.none
  /-- Outstanding far requests in issue order (R129). -/
  outst : List FarReq := []
  /-- Error replies that have arrived and are due: in the order of their arrival, those of one cycle in issue order
  (R143). -/
  errs : List ErrDue := []
  /-- WDOG is due (R161). -/
  wdDue : Bool := false
  /-- Engine beats counted by the watchdog up to `wdFrom` (R161). -/
  wdAcc : Nat := 0
  /-- The fabric cycle from which the watchdog counts on, while it counts. -/
  wdFrom : Option Nat := Option.none
  /-- A halt requested and not yet taken (R165). -/
  haltReq : Bool := false
  /-- Halted by FREEZE (R165). -/
  frozen : Bool := false
  /-- A step in progress: halt again after one instruction or entry (R166). -/
  stepping : Bool := false
  /-- The instruction at this address executes once without a breakpoint match (R167). -/
  bpSkip : Option Word := Option.none
  /-- A completed wait held until the island locks (R63): READY at lock. -/
  heldWake : Bool := false
  deriving DecidableEq, Repr

/-- The local merge entry (R176): data SRAM word address, valid lanes, threads with a store in it, fabric cycle of the
latest join. -/
structure LocalMerge where
  addr : Nat
  lanes : Tab Byte
  owners : List Nat
  last : Nat
  deriving DecidableEq, Repr

/-- The far merge entry (R179): image doubleword address, valid lanes, owning thread, fabric cycle of the latest
join. -/
structure FarMerge where
  addr : Nat
  lanes : Tab Byte
  owner : Nat
  last : Nat
  deriving DecidableEq, Repr

/-- A PSET or PCAP on its way to the pad island (R259, R270): the issuing thread, the pad, and the edge. -/
structure PadReq where
  thr : Nat
  pad : Nat
  pset : Option (BitVec 2 × Word)
  rd : Reg
  pc : Word
  deriving DecidableEq, Repr

/-- One wheel engine apart from its registers. -/
structure Engine where
  power : Power := .off
  /-- The fabric cycle of the latest admission of this island (R61: it locks 240 cycles later). -/
  admitted : Nat := 0
  /-- A write of 0b01 during the power-up: retention at lock (R469). -/
  retainAtLock : Bool := false
  /-- The generator has locked and the island waits for the other engine of its pair (R61). -/
  lockHeld : Bool := false
  /-- A start merged with the power-up acts at lock (R60, R468). -/
  startAtLock : Bool := false
  /-- The fabric cycle of the latest lock (ENG_REV counts from it, Table 3.9). -/
  lockedAt : Nat := 0
  /-- The slack pool's holder (R76). -/
  holder : Option (Fin 16) := none
  /-- The thread that the next selection excludes (R78). -/
  yielded : Option (Fin 16) := none
  /-- ENG_STAT.TWINSTOP (R100). -/
  twinStop : Bool := false
  /-- ENG_WHCTL.PEND (R84). -/
  commitPend : Bool := false
  localMerge : Option LocalMerge := none
  farMerge : Option FarMerge := none
  /-- PSET and PCAP requests on their way, oldest first (R27). -/
  padReqs : List PadReq := []
  deriving DecidableEq, Repr

/-- A raise that waits for dispatch (R211, R218): raise cycle, channel, timestamp; whether raises have merged in it, and
whether a route raise is among them (R224). -/
structure Raise where
  cyc : Nat
  ch : Nat
  ts : Time64
  merged : Bool
  route : Bool
  deriving DecidableEq, Repr

/-- A route of a raised channel that spilled (R218): route number and the raise. -/
structure Spill where
  route : Nat
  raise : Raise
  deriving DecidableEq, Repr

/-- A route that passed dispatch (R218): fire cycle, channel, timestamp, task numbers. -/
structure Fire where
  cyc : Nat
  ch : Nat
  ts : Time64
  tasks : List Nat
  deriving DecidableEq, Repr

/-- A consume note on its way to the fabric (R213): thread identity, input, timestamp of the consumed event. -/
structure Note where
  id : Nat
  k : Nat
  ts : Time64
  deriving DecidableEq, Repr

/-- The Hinge fabric apart from its registers and the route table memory. -/
structure Hinge where
  /-- Entries of the 1,024 thread inputs by 4 × identity + k (R213). -/
  inputs : Tab Ev := []
  /-- Inputs whose drop flag is set (R214). -/
  drops : Tab Bool := []
  notes : List Note := []
  raised : List Raise := []
  spills : List Spill := []
  fires : List Fire := []
  /-- The latest fabric cycle with a dispatch (R218). -/
  disp : Nat := 0
  /-- Route raises per channel in the current loop window, and channels raised in the previous one (R224, R225). -/
  count : Tab Nat := []
  prev : List Nat := []
  /-- The channels whose HF_CHc.INLOOP is 1 (R225). -/
  inloop : List Nat := []
  /-- The first fabric cycle of the current loop window (R224). -/
  window : Nat := 200
  /-- A latch commit in progress (R222), and the contents that routes written during it had before. -/
  commit : Bool := false
  oldRoutes : Tab (BitVec 128) := []
  /-- The fabric cycle in which that commit started. -/
  commitAt : Nat := 0
  /-- The live latch slots of the always-on island (R222), and HF_STAT.LSLOTS. -/
  slots : Tab (BitVec 128) := []
  lslots : Nat := 0
  /-- Pad and converter tasks in the fabric to pad crossing (R219): the fabric cycle in which each lands, the task, the
  number of its events. -/
  padDue : List (Nat × Nat × Nat) := []
  /-- Latch firings toward LFCAP in Doze that act at the next LFCLK edge (R247). -/
  lfcaps : List Nat := []
  /-- LFCAPs in the always-on to fabric crossing: timer, and the fabric cycle in which the report lands (R247). -/
  lfdue : List (Nat × Nat) := []
  /-- Timestamp of the event each thread consumed most recently (HF_RTSL/H, R227). -/
  rts : Tab Time64 := []
  deriving DecidableEq, Repr

/-- A slot of a timer apart from SLOTs_CFG and COMPs_H (R243 to R246). -/
structure Slot where
  armed : Bool := false
  cmp : BitVec 48 := 0
  land : BitVec 48 := 0
  front : BitVec 48 := 0
  cseq : BitVec 16 := 0
  capnew : Bool := false
  pend : Option (BitVec 48) := none
  /-- The fabric cycle in which the read pair opened, while it is open (R246). -/
  pair : Option Nat := none
  /-- The fabric cycle of the latest capture (an LFCAP and a SNAP of one cycle merge, R247). -/
  capCyc : Option Nat := none
  deriving DecidableEq, Repr

/-- A timer apart from TMR_CTL, TMR_PRESC, TMR_LFINC (R237 to R253). -/
structure Timer where
  cnt : BitVec 48 := 0
  top : BitVec 48 := 0xFFFFFFFFFFFF
  down : Bool := false
  run : Bool := false
  wrap : Bool := false
  phase : BitVec 16 := 0
  /-- The read latch, its sequence (R249) and the staged high part (R248). -/
  latch : BitVec 16 := 0
  seq : BitVec 16 := 0
  stageHi : BitVec 16 := 0
  stageTop : BitVec 16 := 0xFFFF
  slots : Tab Slot := []
  /-- The latest fabric cycle whose steps were taken. The count at the start of fabric cycle `c0Cyc`, the latest one in
  which something moved the count (R242). -/
  stepped : Nat := 0
  c0 : BitVec 48 := 0
  c0Cyc : Nat := 0
  /-- The latest fabric cycle with a count write or RELOAD, in which no step falls, and the latest one with a stop,
  in which the timer ends stopped (R241, R242). -/
  written : Nat := 0
  stopped : Nat := 0
  /-- The latest fabric cycle with a RELOAD, which comes after the register writes of its cycle (R242). -/
  reloaded : Nat := 0
  /-- STEP events of the present fabric cycle, whose steps are still to come (Table 9.2, R238). -/
  steps : Nat := 0
  deriving DecidableEq, Repr

/-- A correction on its way to the timebase (R232): its instant as a fabric cycle, a new rate, a step. -/
structure Correction where
  cyc : Nat
  rate : Option Word
  step : Option (BitVec 64)
  deriving DecidableEq, Repr

/-- An entry of an edge queue (R259): level, chain time, fabric cycle of the landing. -/
structure Edge where
  lvl : BitVec 2
  t : Time64
  land : Nat
  deriving DecidableEq, Repr

/-- A pad apart from PAD_CFG, PAD_COMMIT and its flags (R256 to R279). Levels are coded 0 low, 1 high, 2 Z. -/
structure Pad where
  slvl : BitVec 2 := 2
  /-- Placed edges whose instant may still lie ahead: fabric cycle and level (R262). -/
  placed : List (Nat × BitVec 2) := []
  queue : List Edge := []
  /-- The last scheduled time (R259) and the chain time of the previous placed edge (R262). -/
  last : Option Time64 := none
  prev : Option Time64 := none
  /-- The stamp FIFO, the read latch and POPSEQ (R269, R271). -/
  fifo : List Time64 := []
  /-- Stamps on their way into the FIFO, in order: the fabric cycle of the edge at which each enters (R269, R272). -/
  entering : List (Nat × Time64) := []
  sth : Word := 0
  popseq : Byte := 0
  /-- The force and hold latches with the level shown when each was set (R275, R276). -/
  force : Option (BitVec 2) := none
  hold : Option (BitVec 2) := none
  /-- The fabric cycles of the latest requests that set them: a release of the same cycle acts before (R275). -/
  forceCyc : Option Nat := none
  holdCyc : Option Nat := none
  /-- Whether the latches were set before each of their latest changes, oldest first: fabric cycle, force, hold. PAD_STAT
  shows a change two pad clocks later (R275). -/
  latches : List (Nat × Bool × Bool) := []
  /-- The fabric cycle of the latest decision of a queue head or a commit (R261). -/
  decided : Option Nat := none
  /-- The level shown when the mode gate took effect (R277). -/
  gateLvl : BitVec 2 := 2
  /-- The Shackle gate, while it is in effect: the level that stood (R279). -/
  shk : Option (BitVec 2) := none
  pin : Bool := false
  /-- A change of the level after a pad clock edge: that edge's fabric cycle and the level there, which PAD_PINj shows until the
  next one (Table 10.5). -/
  pinAt : Option (Nat × Bool) := none
  /-- The fabric cycle of the latest stamp (one stamp at most between two pad clock edges, R268). -/
  stampCyc : Option Nat := none
  deriving DecidableEq, Repr

/-- A trigger request that awaits placement (R280, R282): its time, whether it comes from CVT_SCHEDL, whether a late
placement sets LATE (scheduled or tick), the fabric cycle in which it arose. -/
structure CvtReq where
  t : Time64
  sched : Bool
  late : Bool
  cyc : Nat
  deriving DecidableEq, Repr

/-- A converter port apart from CVT_CFG, CVT_TOFF, CVT_SCHEDH and its flags (R280 to R284). -/
structure Cvt where
  /-- The busy window of the latest trigger has not been ended by a sample, its timeout or EN; the fabric cycle of that trigger's
  placed instant, from which it is busy (R282). -/
  busy : Bool := false
  rise : Nat := 0
  req : Option CvtReq := none
  sched : Word := 0
  last : Time64 := 0
  /-- The placed instant of the previous trigger (R280). -/
  prev : Option Time64 := none
  /-- The output is high until this fabric cycle (R280). -/
  fall : Option Nat := none
  fifo : List (Word × Time64) := []
  rst : Time64 := 0
  deriving DecidableEq, Repr

/-- A lock table entry (R191): held by an identity, or marked BROKEN. -/
inductive Lock where
  | held (id : Nat)
  | marked
  deriving DecidableEq, Repr

/-- A mail channel (R199 to R203). -/
structure Mail where
  valid : Bool := false
  w0 : Word := 0
  w1 : Word := 0
  half : Bool := false
  stage : Word := 0
  writer : Nat := 0
  seq : BitVec 16 := 0
  deriving DecidableEq, Repr

/-- The Tumbler unit apart from its control and counter registers. -/
structure Tumbler where
  /-- The lock table by image address (R191). -/
  locks : Tab Lock := []
  /-- The address each waiting thread is registered on, by identity (R194). -/
  waiters : Tab Nat := []
  /-- TUM_LRES and TUM_LINFO by identity (R196). -/
  lres : Tab Word := []
  linfo : Tab Word := []
  mail : Tab Mail := []
  /-- The word 1 latched for an identity: channel and word (R202). -/
  latch : Tab (Nat × Word) := []
  /-- The quiet detector (R206). -/
  qcyc : Nat := 0
  due : Bool := false
  quiet : Bool := false
  signalled : Bool := false
  deriving DecidableEq, Repr

/-- An entry of the governor's queue (R60): engine, what it asks for, fabric cycle of the latest request. -/
structure GovReq where
  eng : Nat
  powerUp : Bool
  start : Bool
  since : Nat
  deriving DecidableEq, Repr

/-- An entry into Doze or Dormant in progress (R65): the target, and for a request of the dictionary the fabric cycle
at which the sequence starts at the latest (R374). -/
structure DozeEntry where
  target : Mode
  waiting : Option Nat
  deriving DecidableEq, Repr

/-- A write on its way to the always-on island (R28): register address, value, and the thread that waits for its
acknowledgement (R132). -/
structure AonWrite where
  addr : Nat
  value : Word
  id : Option Nat
  deriving DecidableEq, Repr

/-- Modes, resets and the power-step governor apart from their registers. -/
structure Sys where
  mode : Mode := .recall
  /-- RST_N is low and holds the islands in reset (R451); REFCLK is absent (R450); PORST_N is low (R447). -/
  held : Bool := false
  noRef : Bool := false
  porLow : Bool := false
  straps : Straps := ⟨0, 0, 0, 0⟩
  gov : List GovReq := []
  /-- The fabric cycle of the latest admission since the unit reset (R59). -/
  lastAdm : Option Nat := none
  entry : Option DozeEntry := none
  /-- Engine islands that were on at Doze entry (R67). -/
  dozeOn : List Nat := []
  /-- Writes on their way to the always-on island, oldest first (R28). -/
  aon : List AonWrite := []
  /-- The output commit at which a Run or Tracking to Preparation gate change acts is still to come (R277). -/
  gatePend : Bool := false
  /-- The mode gate is in effect (R277). -/
  gate : Bool := true
  /-- The profile's pad configuration has been loaded since the unit reset (Table 10.3). -/
  padsLoaded : Bool := false
  /-- The chain address and the profile selection that the always-on island retains (R54, R334, R381), and PROFSEL as
  sampled at the latest power-on reset. -/
  keepAddr : Nat := 0
  keepSel : Nat := 0
  profsel : Nat := 0
  /-- The wake timer has reached 0 (R66). -/
  tmrDue : Bool := false
  /-- The fabric cycle from which the pad, link and Keeper islands run after a wake from Doze (Table 2.16). -/
  upAt : Nat := 0
  /-- A keyed write of SYS_RST by the access in progress (Table 2.7). -/
  resetReq : Bool := false
  deriving DecidableEq, Repr

/-- The memories' error bookkeeping apart from the error registers (R169 to R188). -/
structure Ecc where
  /-- Inverted bits of the code words that hold any, by the code word's address (R170, R174, R188). -/
  bad : Tab (BitVec 72) := []
  /-- Repair slots by memory number: a code word's address (R183). -/
  repair : Tab Nat := []
  /-- The fabric cycles counted in the current lap of a memory, and the cycle from which they count on while they do
  (R184). -/
  lapAcc : Tab Nat := []
  lapFrom : Tab Nat := []
  /-- The sweep position of a memory, in code words (ECC_POS). -/
  pos : Tab Nat := []
  deriving DecidableEq, Repr

/-- The fields of a descriptor (Table 11.11). -/
structure Desc where
  src : Word
  dst : Word
  count : Nat
  w64 : Bool
  sfix : Bool
  dfix : Bool
  sblk : Nat
  acq : Bool
  rel : Bool
  dev : Bool
  last : Bool
  next : Word
  deriving DecidableEq, Repr

/-- A Shuttle channel apart from SH_DPTR, SH_LOCKA, SH_ERRA, SH_CNT and SH_STAT.BROKEN (R314 to R319). -/
structure Chan where
  run : Bool := false
  /-- Retrying a held lock (R316), and the fabric cycle of the next retry. -/
  lockw : Bool := false
  retryAt : Nat := 0
  /-- The address of the lock that the channel holds. -/
  lock : Option Nat := none
  stopped : Bool := false
  /-- A STOP that acts at the next element boundary (R318). -/
  stopReq : Bool := false
  /-- SH_STAT.ERR (Table 11.12) and SH_STAT.REM. -/
  err : Nat := 0
  rem : Nat := 0
  /-- The current descriptor, where it has been fetched, and the elements moved. -/
  desc : Option Desc := none
  done : Nat := 0
  deriving DecidableEq, Repr

/-- The three passes of a tick (Table 11.5). -/
inductive Pass where
  | localIn
  | chainIn
  | output
  deriving DecidableEq, Repr

/-- A pass of a tick: the chain time at which it becomes due (R294), the output commit instant of its tick, for a
chain input pass that it runs without a good copy (R305), for an output pass that C has come and OLATE stands (R301). -/
structure PassDue where
  kind : Pass
  due : Time64
  c : Time64
  miss : Bool
  late : Bool
  deriving DecidableEq, Repr

/-- A step of a pass that runs (R303): a doubleword of the RX copy, from the address `src` of the chain image; an entry; the turn to
what follows the entries; a quality doubleword; a doubleword of the TX snapshot. -/
inductive PassStep where
  | copy (src i : Nat)
  | entry (i : Nat)
  | tail
  | quality (d : Nat)
  | snap (i : Nat)
  deriving DecidableEq, Repr

/-- A pass that runs (R296, R303): its kind, the output commit instant of its tick, whether it runs without a good copy,
the steps still to act, quality bits by entry, commit buffer, fabric cycles of its length that have passed, the fabric
cycle in which it started, the layout and windows that it started with (R308), the bytes of the TX snapshot so far. -/
structure PassRun where
  kind : Pass
  c : Time64
  miss : Bool
  todo : List PassStep
  q : List (Nat × Bool)
  buf : Tab (BitVec 2)
  cost : Nat
  start : Nat
  regs : Tab Word
  tx : List Byte := []
  deriving DecidableEq, Repr

/-- The accepted value, the candidate and the count of a point (R299). `seen`: a raw value has been filtered. -/
structure Filter where
  acc : Word := 0
  cand : Word := 0
  cnt : Nat := 0
  seen : Bool := false
  deriving DecidableEq, Repr

/-- A commit buffer on its way to the pad island (R301): levels by pad, the output commit instant of its tick, the
fabric cycle in which it lands at the earliest. -/
structure CommitBuf where
  levels : Tab (BitVec 2)
  c : Time64
  land : Nat
  deriving DecidableEq, Repr

/-- Point processing apart from the scan registers (R294 to R310). -/
structure Scan where
  passes : List PassDue := []
  run : Option PassRun := none
  /-- How many steps the coming pass commands make, an input of the model's own: where none is left, a pass runs to its
  end (log entry 96). -/
  cuts : List Nat := []
  /-- The passes of the present tick run (R294). -/
  on : Bool := false
  /-- The fabric copy of chain time at which the latest pass ended. -/
  ended : Option Time64 := none
  /-- The input latch (R295). -/
  latch : BitVec 128 := 0
  filt : Tab Filter := []
  bufs : List CommitBuf := []
  /-- The insertion buffer with the latest complete snapshot (R304), and whether it is of the present tick. -/
  tx : List Byte := []
  txNow : Bool := false
  /-- The armed flip time (R309), and that its flip tick has come. -/
  flip : Option Time64 := none
  flipDue : Bool := false
  deriving DecidableEq, Repr

/-- The tick schedule in force (R336): tick instant, period and commit offset of the present tick, which of its
half-tick and output commit instants have acted, and how many tick instants a step of the timebase passed over (R338). -/
structure Sched where
  i : Time64
  p : Nat
  coff : Nat
  half : Bool := false
  commit : Bool := false
  skip : Nat := 0
  deriving DecidableEq, Repr

/-- A frame of the unit's own that waits for its window (R330): type, destination, SEQ, payload. -/
structure OwnFrame where
  type : BitVec 4
  dst : Byte
  seq : Byte
  payload : List Byte
  deriving DecidableEq, Repr

/-- A port's delay measurement (R345): fabric cycle of its latest probe, last 16 samples, newest first. -/
structure Probe where
  sent : Option Nat := none
  samples : List Int := []
  deriving DecidableEq, Repr

/-- The chain time servo (R347): T0 of the frame applied last, integral term, consecutive good offsets, fabric cycle of
the latest applied frame. -/
structure Servo where
  t0 : Option Time64 := none
  ri : Int := 0
  good : Nat := 0
  since : Nat := 0
  deriving DecidableEq, Repr

/-- The chain apart from its registers and buffers. -/
structure Chain where
  /-- The tick instant of the present tick (R336), 0 before the first one (R259). -/
  ti : Time64 := 0
  /-- The tick instants before it, newest first (R259). -/
  past : List Time64 := []
  sched : Option Sched := none
  /-- PER and COFF for the next tick (R336, R340). -/
  per : Nat := 0
  coff : Nat := 0
  /-- The number of the present tick. -/
  tn : Word := 0
  /-- A good TICK frame of the present and of the previous tick has arrived. -/
  good : Bool := false
  prevGood : Bool := false
  /-- The exchange of the present tick has completed; the addresses whose record has been collected (R343). -/
  done : Bool := false
  got : List Nat := []
  /-- Copies of the train, by DIR, that have received the unit's record in the present tick (R342). -/
  inserted : List Bool := []
  upA : Bool := false
  upB : Bool := false
  /-- The last 4 SEQ values taken, by 256 × TYPE + SRC (R329). -/
  dups : Tab (List Byte) := []
  /-- Own frames that wait, oldest first (R330, R350), and the heartbeat train that goes ahead of them (R388). -/
  own : List OwnFrame := []
  train : List OwnFrame := []
  /-- The frames that the unit has originated, by 256 × TYPE + SEQ: the latest of each (R329). -/
  mine : Tab OwnFrame := []
  /-- The fabric cycle of the latest half-tick instant, at which own-frame windows open (R330). -/
  opened : Nat := 0
  /-- The SEQ of the next own frame of a type. -/
  seqs : Tab Byte := []
  /-- The latest frame that left through each port. -/
  sentA : Option Frame := none
  sentB : Option Frame := none
  probeA : Probe := {}
  probeB : Probe := {}
  servo : Servo := {}
  /-- CH_TIH as latched for each identity. -/
  tih : Tab Word := []
  deriving DecidableEq, Repr

/-- A heartbeat status block (Table 14.1). -/
structure Peer where
  tn : Word
  mode : Nat
  own : Bool
  heard : Bool
  swreq : Bool
  miss : Nat
  mirlen : Nat
  outcrc : Word
  take : Word
  deriving DecidableEq, Repr

/-- The Shackle unit apart from its registers and buffers (R388 to R399). -/
structure Shackle where
  /-- The decision of R393 and the tick number from which the present ownership runs. -/
  owner : Bool := false
  take : Word := 0xFFFFFFFF
  /-- Mode changes and OWN_OUT changes that a decision makes land at the output commit (R393): the new mode, none for
  Safe with SHACKLE; the new level of OWN_OUT. -/
  modeDue : Option (Option Mode) := none
  outDue : Option Bool := none
  /-- The chain time at or after which OWN_OUT takes its new level (R278). -/
  outAt : Option (Bool × Time64) := none
  /-- The fabric cycle at which HOLDT has elapsed (R279). -/
  holdEnd : Option Nat := none
  /-- The heartbeat of the present tick, when received (R390), and of the tick before. -/
  peer : Option Peer := none
  prev : Option Peer := none
  /-- The byte ranges of CH_SHRX copied in the present tick. -/
  ranges : List (Nat × Nat) := []
  /-- The snapshot of the present tick is complete and its train not yet queued (R388). -/
  snap : Bool := false
  /-- The mirror of the present tick has been applied (R391), or its deadline has passed. -/
  applied : Bool := false
  late : Bool := false
  /-- The own local input pass of the present tick has ended. -/
  localDone : Bool := false
  /-- The mode at the tick instant of the present tick, while the unit has stayed in Run or Tracking since (R399). -/
  began : Option Mode := none
  /-- The CRC over the output commit buffer of the present tick and of the tick before (Table 14.1), and whether the
  unit was in Run or Tracking through, and where it was in Tracking applied the mirror of, the tick before (R399). -/
  crc : Word := 0
  prevCrc : Word := 0
  prevOk : Bool := false
  deriving DecidableEq, Repr

/-- The stored image of an engine (Table 13.12, R436): its SRAM contents by local address, ENG_THCFG0 to 15, the bank it
runs, the header recorded with it, and a number that orders activations; the CRC-32 of its extent (R406). -/
structure EngImage where
  cells : Memory := []
  thcfg : Tab Word := []
  bankB : Bool := false
  header : Option (List Byte) := none
  order : Nat := 0
  crc : Word := 0
  deriving DecidableEq, Repr

/-- A profile as NV holds it (Table 13.12). `config`: the directory lists stored values, Ward table, routes and groups; each of these
extents has its CRC-32 (R406). `ward` and `routes` hold the bytes of the tables from offset 0 on. -/
structure Profile where
  config : Bool := false
  values : Tab Word := []
  ward : Memory := []
  routes : Memory := []
  grp0 : Word := 0xFFFFFFFF
  grp1 : Word := 0xFFFFFFFF
  mask : BitVec 16 := 0
  images : Tab EngImage := []
  crcValues : Word := 0
  crcWard : Word := 0
  crcRoutes : Word := 0
  deriving DecidableEq, Repr

/-- A ring item (R416): L/4 − 1, the number of slots, and the bytes of the slots that have been written, as Table 15.4 lays them
out. -/
structure RingItem where
  lw : Nat
  slots : Nat
  store : Tab (List Byte)
  deriving DecidableEq, Repr

/-- The intent record of a raw write that was cut short (R413, R414), with its progress. -/
structure Intent where
  page : Nat
  start : Nat
  lenm1 : Nat
  progress : Nat
  deriving DecidableEq, Repr

/-- The NV macro apart from its raw pages (R402, R416, R422). It outlives every reset. -/
structure Nv where
  formatted : Bool := false
  rawcnt : Nat := 0
  /-- Live pages (R403); the formats are internal to the Keeper, so the count of their pages is a free value. -/
  live : Nat := 0
  rings : Tab RingItem := []
  journal : Option Intent := none
  profiles : Tab Profile := []
  /-- Activations committed so far. -/
  orders : Nat := 0
  deriving DecidableEq, Repr

/-- A Keeper command in progress (R410): operation, argument, issuing identity, and the bytes of the buffer when it
started; `own` marks a command of the dictionary agent with its own buffer, `filled` counts the bytes that it has returned so far
(R411). -/
structure KprCmd where
  op : Nat
  arg : Nat
  start : Nat
  lenm1 : Nat
  id : Nat
  data : List Byte
  own : Bool
  filled : Nat := 0
  deriving DecidableEq, Repr

/-- The Keeper apart from its registers. -/
structure Keeper where
  /-- NV_READY (R457), and that the latest scan did not find it. -/
  nvReady : Bool := false
  noNv : Bool := false
  /-- The Recall scan or a rescan runs. -/
  scan : Bool := true
  /-- The device key (R409, R458). -/
  key : Option (BitVec 256) := none
  cmd : Option KprCmd := none
  /-- The profile of a save that runs (R383). -/
  save : Option Nat := none
  /-- The ring queue, oldest first: item and value (R418); the slot write of the oldest is known to be in progress. -/
  queue : List (Nat × List Byte) := []
  writing : Bool := false
  /-- Values whose writing was abandoned (R419). -/
  copies : Tab (List Byte) := []
  deriving DecidableEq, Repr

/-- An open segmented transfer (R360, R361): what it moves, its total, the bytes served, the latest SEGNO with the
offset and length of its bytes, staged bytes, and the fabric cycle of its latest segment. -/
structure Transfer where
  src : Source
  tag : Byte
  index : Nat
  sub : Nat
  write : Bool
  total : Nat
  pos : Nat
  seg : Nat
  segAt : Nat
  segLen : Nat
  staged : List Byte
  since : Nat
  deriving DecidableEq, Repr

/-- A firmware object request that waits for its answer (R378). -/
structure FwReq where
  hdr : DictHeader
  cmd : Nat
  since : Nat
  deriving DecidableEq, Repr

/-- A request that waits for a Keeper command of the agent's own (R411, R426): the request, whether it writes, and for
a read the range of the value that its response carries. -/
structure KprReq where
  hdr : DictHeader
  cmd : Nat
  write : Bool
  off : Nat
  len : Nat
  last : Bool
  deriving DecidableEq, Repr

/-- What an effect of the dictionary waits for (R374, R375): the responses to its source that have still to leave, its own the last of
them (one through the local register port leaves at the ACK that reads it, R461), and the always-on writes that have still to
complete, its own the last (R382). -/
structure DrWait where
  src : Source
  left : Nat
  aon : Nat := 0
  deriving DecidableEq, Repr

/-- The dictionary agent. -/
structure Agent where
  /-- Requests that have arrived over the chain and wait for service: SEQ, broadcast, payload. -/
  queue : List (Byte × Bool × List Byte) := []
  transfers : List Transfer := []
  /-- 0x2F11 and the place of the latest clamp. -/
  served : Word := 0
  errors : Word := 0
  timeouts : BitVec 16 := 0
  lastIndex : Nat := 0
  lastSub : Nat := 0
  /-- 0x2000 sub 2; 0x2100 subs 1, 5, 6, 8. -/
  request : Nat := 0
  active : Nat := 0xFF
  savestat : Nat := 0
  loadstat : Nat := 0
  present : Nat := 0
  fw : Option FwReq := none
  kprReq : Option KprReq := none
  /-- Dictionary resets that wait for their responses (R375), those of a reload for the always-on write too (R382). -/
  resetDue : List DrWait := []
  /-- The response that an entry to Doze or Dormant waits for (R374). -/
  dozeDue : Option DrWait := none
  /-- 0x6010 sub 1, 0x6100 sub 1, 0x6212. -/
  page : Nat := 0
  session : Word := 0
  lvl : Tab Nat := []
  deriving DecidableEq, Repr

/-- The local register port apart from its buffers (R461). -/
structure Lrp where
  busy : Bool := false
  done : Bool := false
  rej : Bool := false
  rlen : Nat := 0
  /-- Requests of the chain that had arrived at the agent before the one in the port and still wait (R44). -/
  ahead : Nat := 0
  /-- The request in service, and its response once it is ready. -/
  req : List Byte := []
  resp : Option (List Byte) := none
  deriving DecidableEq, Repr

/-- The stager apart from the update registers (R431 to R444). -/
structure Updater where
  /-- Table 16.2. -/
  state : Nat := 0
  header : List Byte := []
  /-- Byte ranges of the payload that are covered. -/
  cover : List (Nat × Nat) := []
  /-- LAST has been taken or a seal command has landed (R434). -/
  sealReq : Bool := false
  /-- The profile that the new extents go to (R436). -/
  profile : Nat := 0
  armed : Option Time64 := none
  /-- The activation tick has come, and what the check in its cycle has found (R439). -/
  due : Bool := false
  verdict : Nat := 0
  /-- The engine image extents that the seal wrote, not yet committed (R436). -/
  extents : Tab EngImage := []
  /-- An activation that awaits its commit (R436): profile, header and extents. -/
  commit : Option (Nat × List Byte × Tab EngImage) := none
  /-- 0x6210 sub 1, whether an accepted schedule is undecided, subs 9 and 10. -/
  result : Nat := 0
  undecided : Bool := false
  version : Word := 0
  actTime : Time64 := 0
  /-- UPD_TIMEH as latched for each identity. -/
  timeh : Tab Word := []
  deriving DecidableEq, Repr

/-- The data register that an instruction of the test port selects (Table 17.11). -/
inductive TapReg where
  | idcode
  | dbga
  | dbgd
  | dbgrst
  | bypass
  deriving DecidableEq, Repr

/-- The test port (R462 to R464). -/
structure Tap where
  dbgen : Bool := false
  /-- The 5-bit instruction register and the 1-bit register of BYPASS (R462). -/
  ir : BitVec 5 := 0b00001
  bypass : Bool := false
  /-- DBGA as last updated: word address and WR. -/
  addr : Word := 0
  /-- The access in flight: its address, and for a write its data. -/
  access : Option (Word × Option Word) := none
  /-- DONE; ERR of the latest access; a launch was discarded since the latest capture. -/
  done : Bool := true
  err : Bool := false
  lost : Bool := false
  /-- The read data of the next capture, where R463 states it. -/
  data : Option Word := none
  /-- DBGD as last captured: ERR, DONE, data. -/
  capture : BitVec 34 := 0
  deriving DecidableEq, Repr

/-- A mode request that a cycle has taken (R52): the mode before it, the mode it names, the identity it came from (288 the
dictionary agent, any other through SYS_MODEREQ), and what it gives back when it is discarded. -/
structure ReqTaken where
  mode : Mode
  names : Mode
  id : Nat
  /-- What stood before it: PREV and CHG of SYS_MODE, SYS_SAFECAUSE.REQUEST, SHK_CTL.SWREQ, the Shackle unit with its ownership,
  SHK_CNT, whether channel 656 had been raised in the cycle. -/
  prev : Nat
  chg : Bool
  cause0 : Bool
  swreq : Bool
  shk : Shackle
  shkCnt : Word
  raised : Bool
  deriving DecidableEq, Repr

/-- A route as it stood at the start of a cycle (R217): its bits, and the marks of its two code words. -/
structure RouteWas where
  bits : BitVec 128
  lo : BitVec 72
  hi : BitVec 72
  deriving DecidableEq, Repr

/-- Events that met an occupied thread input in a cycle (R213, Table 8.5): the input, its drop flag before, the events,
HF_TCNT.OVR before and the occurrences that it had counted in the cycle by then. -/
structure Missed where
  input : Nat
  drop : Bool
  evs : List (Nat × Time64)
  ovr : Nat
  cnt : Nat
  deriving DecidableEq, Repr

/-- What hardware has set and counted in one clock cycle `cyc` of an island that has a clock of its own (R39). -/
structure Window where
  cyc : Nat := 0
  sets : Tab Word := []
  counts : Tab Nat := []
  deriving DecidableEq, Repr

/-- What the rules for one clock cycle compare (R37 to R42, R52, R195, R217, R220), kept for the fabric cycle `cyc` alone; in
every later cycle it counts as empty (log entry 83). -/
structure Same where
  cyc : Nat := 0
  /-- The bits that hardware set in the cycle, by register address (R37, R38). -/
  sets : Tab Word := []
  /-- The occurrences that a counter counted in the cycle, by 32 × register address + place of its lowest bit (R38). -/
  counts : Tab Nat := []
  /-- The writes that landed in the cycle: register or memory byte address, identity (R42). -/
  writes : List (Nat × Nat) := []
  /-- The routes and the words of HF_GRPEN as they stood at the start of the cycle, where they have changed since (R217,
  R220). -/
  routes : Tab RouteWas := []
  groups : Tab Word := []
  /-- A task has enabled or disabled a group in the cycle (R220). -/
  tasked : Bool := false
  missed : List Missed := []
  /-- The unit took the way to Safe in the cycle, and whether by a cause other than a request; the mode request that the
  cycle has taken (R52). -/
  safe : Bool := false
  cause : Bool := false
  req : Option ReqTaken := none
  /-- The latest place in the order of Table 7.2 at which a Tumbler request has acted in the cycle: 1,024 × step + identity
  (R195). -/
  tumRank : Nat := 0
  /-- The sets and counts of the Keeper's present clock cycle, 4 fabric cycles long, and those of the always-on island since the
  latest LFCLK edge (R39). -/
  kpr : Window := {}
  aon : Window := {}
  /-- A thread has had a position in the cycle (R204, R206). -/
  ran : Bool := false
  deriving DecidableEq, Repr

/-- The whole state of the unit. -/
structure State where
  /-- The fabric cycle since the unit reset; 200 at the end of the reset sequence (Table 2.15; log entry 2). -/
  cycle : Nat := 200
  /-- The timebase: TIME64 with 24 sub-fraction bits (R229). -/
  tb : BitVec 88 := 0
  corrections : List Correction := []
  /-- The registers that hold something other than their Reset value, by address. -/
  regs : Tab Word := []
  mem : Memory := []
  ecc : Ecc := {}
  /-- Threads by master identity, engines by number. -/
  threads : Tab Thread := []
  engines : Tab Engine := []
  hinge : Hinge := {}
  timers : Tab Timer := []
  pads : Tab Pad := []
  cvts : Tab Cvt := []
  tum : Tumbler := {}
  sys : Sys := {}
  /-- The high halves latched for a reading identity: TB_NOWH (R236), CVT_LASTH by 8 × identity + port (R283). -/
  nowh : Tab Word := []
  lasth : Tab Word := []
  chain : Chain := {}
  chans : Tab Chan := []
  scan : Scan := {}
  shk : Shackle := {}
  nv : Nv := {}
  kpr : Keeper := {}
  agent : Agent := {}
  lrp : Lrp := {}
  upd : Updater := {}
  tap : Tap := {}
  /-- The Shuttle channel after the one that moved the latest element: turns ascend from it (R320). -/
  shTurn : Nat := 0
  /-- What the latest read by a command returned to the master that made it. -/
  reply : Word := 0
  /-- The model's own counter of free values drawn (log entry 3). -/
  free : Nat := 0
  /-- What the DICTSRC pins show, an input, which every unit reset samples (R43, R54; log entry 72). -/
  pins : BitVec 2 := 0
  /-- What has happened in the present cycle, for the rules on one cycle. -/
  same : Same := {}
  /-- Clamps counted so far, without the saturation of SYS_CLAMP.COUNT: the model's own, for 0x2F10 (R373). -/
  clamps : Nat := 0
  /-- The commands that wait, first in, first out. -/
  pending : List Instr := []
  deriving DecidableEq, Repr

/-- The faults: no rule stops the block on a command of the table, so no meaning raises one. -/
inductive Fault where
  /-- For a command to which the manual gives no effect at all. Raised by no meaning of this model: safe. -/
  | broken (rule : String)
  deriving DecidableEq, Repr

/-- The refusals. -/
inductive Refusal where
  /-- Raised by `exec` for a command that has no meaning in this model yet; no arm does: safe. -/
  | notModelled (mnemonic : String)
  deriving DecidableEq, Repr

/-- What a command answers. -/
abbrev Out := Host.Outcome State Fault Refusal

/-- The state right after a power-on reset (R54 to R56, R467): mode Recall, every island but the engines on. -/
def State.reset : State := {}

end Sys2Proof.Machine
end

