-- ==== Sys2Proof/Machine/Ops.lean ====
section
/-! DEFINITION. The operations every family uses: reading and writing registers, counters and clamps, raising event
channels, reading and writing code words with their error bookkeeping, the timebase and chain time, free values. -/

namespace Sys2Proof.Machine

/-! ### Bits -/

/-- The `n` bits of a word from bit `lo` on, as a number. -/
def fld (w : Word) (lo n : Nat) : Nat := (w.toNat >>> lo) % 2 ^ n

/-- Bit `i` of a word. -/
def bit (w : Word) (i : Nat) : Bool := w.getLsbD i

/-- The word with its `n` bits from `lo` on replaced by `v`. -/
def setFld (w : Word) (lo n v : Nat) : Word :=
  BitVec.ofNat 32 (w.toNat - fld w lo n * 2 ^ lo + v % 2 ^ n * 2 ^ lo)

/-- The word with bit `i` set or cleared. -/
def setBit (w : Word) (i : Nat) (b : Bool) : Word := setFld w i 1 b.toNat

/-- The word with bit `i` set where `c` holds, unchanged elsewhere. -/
def orBit (w : Word) (i : Nat) (c : Bool) : Word := if c then setBit w i true else w

/-- The word 1 or 0. -/
def bitWord (b : Bool) : Word := BitVec.ofNat 32 b.toNat

/-- A number as a word. -/
def word (n : Nat) : Word := BitVec.ofNat 32 n

/-- The numbers 0 to n − 1. -/
def upTo (n : Nat) : List Nat := List.range n

/-- The set bits of a word, ascending. -/
def bitsOf (w : Word) : List Nat := (upTo 32).filter (bit w)

/-! ### The parts of the state by number -/

def State.thr (s : State) (id : Nat) : Thread := tabGet {} s.threads id
def State.setThr (s : State) (id : Nat) (t : Thread) : State := { s with threads := tabSet s.threads id t }
def State.updThr (s : State) (id : Nat) (f : Thread → Thread) : State := s.setThr id (f (s.thr id))
def State.eng (s : State) (k : Nat) : Engine := tabGet {} s.engines k
def State.setEng (s : State) (k : Nat) (e : Engine) : State := { s with engines := tabSet s.engines k e }
def State.updEng (s : State) (k : Nat) (f : Engine → Engine) : State := s.setEng k (f (s.eng k))
def State.tmr (s : State) (t : Nat) : Timer := tabGet {} s.timers t
def State.setTmr (s : State) (t : Nat) (x : Timer) : State := { s with timers := tabSet s.timers t x }
def State.updTmr (s : State) (t : Nat) (f : Timer → Timer) : State := s.setTmr t (f (s.tmr t))
def State.pad (s : State) (p : Nat) : Pad := tabGet {} s.pads p
def State.setPad (s : State) (p : Nat) (x : Pad) : State := { s with pads := tabSet s.pads p x }
def State.updPad (s : State) (p : Nat) (f : Pad → Pad) : State := s.setPad p (f (s.pad p))
def State.cvt (s : State) (p : Nat) : Cvt := tabGet {} s.cvts p
def State.setCvt (s : State) (p : Nat) (x : Cvt) : State := { s with cvts := tabSet s.cvts p x }
def State.updCvt (s : State) (p : Nat) (f : Cvt → Cvt) : State := s.setCvt p (f (s.cvt p))

/-! ### Registers -/

/-- Every row of the register map but ENG_THCFG. -/
def regRows : List RegRow :=
  sysRows ++ engRows ++ eccRows ++ tumRows ++ hfRows ++ tmrRows ++ tbRows ++ padRows ++ scanRows ++ shRows
    ++ chRows ++ shkRows ++ kprRows

/-- The row that covers an address. -/
def regRow (a : Nat) : Option RegRow :=
  if isThcfg a then some ⟨a, 0, 1, 0xC7FF, 0, 0⟩ else regRows.find? (·.covers a)

/-- The Reset value of the register at an address (0 where no register lies: R14, R33). -/
def regReset (a : Nat) : Word := word ((regRow a).elim 0 (·.reset))

/-- The word held by the register at an address. -/
def State.reg (s : State) (a : Nat) : Word := (tabFind s.regs a).getD (regReset a)

/-- The state with a register's word replaced. -/
def State.setReg (s : State) (a : Nat) (v : Word) : State := { s with regs := tabSet s.regs a v }

/-- The state with the `n`-bit field at `lo` of a register replaced. -/
def State.setRegFld (s : State) (a lo n v : Nat) : State := s.setReg a (setFld (s.reg a) lo n v)

/-! ### What one cycle has seen (R37 to R42; log entry 83) -/

/-- What has happened in the present cycle. -/
def State.sameNow (s : State) : Same :=
  if s.same.cyc = s.cycle then s.same
  else { cyc := s.cycle, kpr := if s.same.kpr.cyc = s.cycle / 4 then s.same.kpr else {}, aon := s.same.aon }

/-- The registers of the always-on island (Table 2.3): SYS_RSTCAUSE, SYS_WAKECFG, SYS_WAKETMR, SYS_WAKESRC. -/
def aonRegs : List Nat := [0x500F0108, 0x500F0128, 0x500F012C, 0x500F0130]

/-- A register of the always-on island (Table 2.3), written over the slow crossing (R28). -/
def isAon (a : Nat) : Bool := aonRegs.contains a

/-- The register lies in the Keeper window, whose 50 MHz clock takes 4 fabric cycles a cycle (R39, Table 1.1). -/
def isKpr (a : Nat) : Bool := a / 0x10000 == 0x5006

/-- The bits set in the present clock cycle of the island that holds the register at `a` (R39); for a register of an engine
island that is the fabric cycle (log entry 111). -/
def Same.setsAt (x : Same) (a : Nat) : Tab Word :=
  if isKpr a then x.kpr.sets else if isAon a then x.aon.sets else x.sets

/-- The occurrences counted in that clock cycle. -/
def Same.countsAt (x : Same) (a : Nat) : Tab Nat :=
  if isKpr a then x.kpr.counts else if isAon a then x.aon.counts else x.counts

/-- That record of bits with `f` applied, in fabric cycle `cyc`. -/
def Same.updSets (x : Same) (a cyc : Nat) (f : Tab Word → Tab Word) : Same :=
  if isKpr a then { x with kpr := { x.kpr with cyc := cyc / 4, sets := f x.kpr.sets } }
  else if isAon a then { x with aon := { x.aon with sets := f x.aon.sets } }
  else { x with sets := f x.sets }

/-- That record of occurrences with `f` applied, in fabric cycle `cyc`. -/
def Same.updCounts (x : Same) (a cyc : Nat) (f : Tab Nat → Tab Nat) : Same :=
  if isKpr a then { x with kpr := { x.kpr with cyc := cyc / 4, counts := f x.kpr.counts } }
  else if isAon a then { x with aon := { x.aon with counts := f x.aon.counts } }
  else { x with counts := f x.counts }

/-- Something happens in the present cycle. -/
def State.note (s : State) (f : Same → Same) : State := { s with same := f s.sameNow }

/-- Hardware sets bit `i` of the register at `a` in this cycle. -/
def State.noteSet (s : State) (a i : Nat) : State :=
  s.note fun x => x.updSets a s.cycle fun t => tabSet t a (setBit (tabGet 0 t a) i true)

/-- The counter at bit `lo` of the register at `a` counts `k` occurrences in this cycle. -/
def State.noteCount (s : State) (a lo k : Nat) : State :=
  let i := 32 * a + lo
  s.note fun x => x.updCounts a s.cycle fun t => tabSet t i (tabGet 0 t i + k)

/-- Master `id` writes at the addresses `as` in this cycle. -/
def State.noteWrites (s : State) (id : Nat) (as : List Nat) : State :=
  s.note fun x => { x with writes := x.writes ++ as.map fun a => (a, id) }

/-- Hardware has set the bit in this cycle. -/
def State.setNow (s : State) (a i : Nat) : Bool := bit (tabGet 0 (s.sameNow.setsAt a) a) i

/-- A write of this cycle by a higher identity stands at `a` (R42). The accesses of one engine leave its one far port in
turn, so none of them lands in the cycle of another. -/
def State.outranked (s : State) (id a : Nat) : Bool :=
  s.sameNow.writes.any fun w => w.1 == a && decide (id < w.2) && !(decide (w.2 < 256) && w.2 / 16 == id / 16)

/-- The state with a bit of a register set by hardware. -/
def State.setFlag (s : State) (a i : Nat) : State := (s.setReg a (setBit (s.reg a) i true)).noteSet a i

/-- Hardware clears a bit that software can set: it stays set where software has set it anew in this cycle (R38). -/
def State.clearFlag (s : State) (a i : Nat) : State :=
  if s.setNow a i then s else s.setReg a (setBit (s.reg a) i false)

/-- Software sets a bit that hardware clears: a set of a bit that is 1 is a new request (R38). -/
def State.armFlag (s : State) (a i : Nat) : State := if bit (s.reg a) i then s.noteSet a i else s.setReg a (setBit (s.reg a) i true)

/-- Software clears a bit by an acting bit of its own: it stays set where hardware has set it in this cycle (R37). -/
def State.ackFlag (s : State) (a i : Nat) : State := if s.setNow a i then s else s.setRegFld a i 1 0

/-- The state with the `n`-bit counter at `lo` of a register counted up by `k`, saturating (the counters of Tables
1.11 to 16.6 saturate). -/
def State.count (s : State) (a lo n : Nat) (k : Nat := 1) : State :=
  (s.setRegFld a lo n (min (2 ^ n - 1) (fld (s.reg a) lo n + k))).noteCount a lo k

/-- A counter clear: the occurrences of its own cycle are counted after it and stand (R38). -/
def State.clearCount (s : State) (a lo n : Nat) : State :=
  s.setRegFld a lo n (min (2 ^ n - 1) (tabGet 0 (s.sameNow.countsAt a) (32 * a + lo)))

/-- A written value without the W1C bits that hardware sets in this cycle: the set wins (R37). -/
def State.maskSets (s : State) (r : RegRow) (a : Nat) (v : Word) : Word :=
  v &&& ~~~(word r.w1c &&& tabGet 0 (s.sameNow.setsAt a) a)

/-- What the common field rules make of a write (R13, R14): RW bits take the value, W1C bits clear where it has a 1. -/
def plainWrite (r : RegRow) (old v : Word) : Word :=
  word ((old.toNat &&& (0xFFFFFFFF - r.rw) &&& (0xFFFFFFFF - (r.w1c &&& v.toNat))) ||| (v.toNat &&& r.rw))

/-! ### Time -/

/-- The TIME64 value of a timebase (R229). -/
def time64 (tb : BitVec 88) : Time64 := BitVec.ofNat 64 (tb.toNat / 2 ^ 24)

/-- The timebase `n` pad clock edges on (R229: one period of 2^32 sub-fraction units plus the rate trim each). -/
def tbAfter (tb : BitVec 88) (rate : Word) (n : Nat) : BitVec 88 :=
  tb + BitVec.ofInt 88 ((n : Int) * (2 ^ 32 + rate.toInt))

/-- TB_RATE. -/
def aTbRate : Nat := 0x50002020

/-- The timebase now, as TIME64 (R229). -/
def State.now (s : State) : Time64 := time64 s.tb

/-- The fabric cycles until the pad island runs after a wake from Doze, while the fabric copy counts one period per cycle
(R231, Table 2.16). -/
def State.untilUp (s : State) : Nat := s.sys.upAt - s.cycle

/-- The timebase `n` fabric cycles from now under the rate in force; up to the pad island's power-up, the fabric copy. -/
def State.tbIn (s : State) (n : Nat) : BitVec 88 :=
  let m := min n s.untilUp
  tbAfter (tbAfter s.tb 0 m) (s.reg aTbRate) (n - m)

/-- Chain time `n` fabric cycles from now. -/
def State.nowIn (s : State) (n : Nat) : Time64 := time64 (s.tbIn n)

/-- A TIME64 value with its fraction cleared: the fabric copy of it (R230). -/
def periods (t : Time64) : Time64 := t &&& 0xFFFFFFFFFFFFFF00#64

/-- Chain time runs in the pad island; it stands still while that island is off (R231, Table 2.2). -/
def State.running (s : State) : Bool :=
  !s.sys.held && !s.sys.noRef && !s.sys.porLow && s.sys.mode != .doze && s.sys.mode != .dormant

/-- The number of whole fabric cycles until the timebase is at or after `t` (0 where it is), read as a distance of at
most 2^63 ahead. -/
def State.cyclesTo (s : State) (t : Time64) : Nat :=
  let d := (t - s.now).toInt
  if d ≤ 0 then 0 else
    let sub : Int := d * 2 ^ 24 - ((s.tb.toNat % 2 ^ 24 : Nat) : Int)
    let r : Int := 2 ^ 32 + (s.reg aTbRate).toInt
    let u := s.untilUp
    if sub ≤ u * 2 ^ 32 then ((sub + 2 ^ 32 - 1) / 2 ^ 32).toNat
    else u + ((sub - u * 2 ^ 32 + r - 1) / r).toNat

/-! ### Free values (log entry 3) -/

def State.drawBit (s : State) : State × Bool := ({ s with free := s.free + 1 }, Config.freeBit s.free)
def State.drawNat (s : State) : State × Nat := ({ s with free := s.free + 1 }, Config.freeNat s.free)
def State.drawWord (s : State) : State × Word := ({ s with free := s.free + 1 }, Config.freeWord s.free)

/-! ### Raising event channels (R211, R224) -/

def aHfCnt : Nat := 0x50010030
def aHfTcnt : Nat := 0x50010034

/-- HF_CHc. -/
def aHfCh (c : Nat) : Nat := 0x50011000 + 4 * c

/-- Channel `ch` is raised in fabric cycle `cyc` with a timestamp; `route` marks a route raise. Raises of one cycle merge
into one event, which counts once (R211); a raise of a channel stopped on its loop limit is discarded and counted (R224);
while the fabric island is not running nothing is raised (R46, R251). -/
def State.raiseIn (s : State) (cyc ch : Nat) (ts : Time64) (route : Bool := false) : State :=
  if !s.running then s
  else if bit (s.reg (aHfCh ch)) 31 then s.count aHfCnt 0 16
  else
    let here (r : Raise) : Bool := r.cyc == cyc && r.ch == ch
    match s.hinge.raised.find? here with
    | none => { s with hinge := { s.hinge with raised := s.hinge.raised ++ [⟨cyc, ch, ts, false, route⟩] } }
    | some r =>
      let join (x : Raise) : Raise := if here x then { x with merged := true, route := x.route || route } else x
      let s := { s with hinge := { s.hinge with raised := s.hinge.raised.map join } }
      if r.merged then s else (s.setFlag (aHfCh ch) 30).count aHfCnt 0 16

/-- Channel `ch` is raised now, with the timestamp of its raise cycle (Table 8.3). -/
def State.raise (s : State) (ch : Nat) : State := s.raiseIn s.cycle ch (periods s.now)

/-- Channel `ch` is raised `n` cycles from now. -/
def State.raiseLater (s : State) (n ch : Nat) : State := s.raiseIn (s.cycle + n) ch (periods (s.nowIn n))

/-- A clamp is counted and raises channel 668 (R40, R41, Table 8.2). -/
def State.clamp (s : State) (n : Nat := 1) : State :=
  if n = 0 then s else ({ s with clamps := s.clamps + n }.count 0x500F0014 0 32 n).raise 668

/-! ### Code words (R169 to R188) -/

/-- Address of an engine's local address in the Shuttle's view (Table 11.10). -/
def engKey (e a : Nat) : Nat := 0x10000000 + 0x1000000 * e + a

/-- Address of a route in the model's own view of the route table memory (log entry 5). -/
def routeKey (r : Nat) : Nat := 0x60000000 + 16 * r

/-- The memory number of Table 6.1 that holds an address. -/
def memNum (key : Nat) : Nat :=
  if key < 0x20000000 then
    if key % 0x1000000 < 0x10000 then (key - 0x10000000) / 0x1000000 else 16 + (key - 0x10000000) / 0x1000000
  else if key < 0x50000000 then 32 else if key < 0x60000000 then 33 else 34

/-- Bytes of a code word's data. -/
def cwBytes (m : Nat) : Nat := if m < 32 then 4 else 8

/-- The address of the code word that holds an address. -/
def cwOf (key : Nat) : Nat := key - key % cwBytes (memNum key)

/-- The reported address of a code word (Table 6.1). -/
def reported (key : Nat) : Nat :=
  if key < 0x20000000 then key % 0x1000000 else if key < 0x60000000 then key else key - 0x60000000

/-- The inverted bits of a poisoned code word (R174). -/
def poison (m : Nat) : BitVec 72 := if m < 32 then 3 <<< 32 else 3 <<< 64

/-- The number of set bits. -/
def ones (x : BitVec 72) : Nat := ((upTo 72).filter fun i => x.getLsbD i).length

/-- The position of the lowest set bit. -/
def lowest (x : BitVec 72) : Nat := ((upTo 72).find? fun i => x.getLsbD i).getD 0

/-- Address of a register of the error block of memory `m`. -/
def aEcc (m off : Nat) : Nat := 0x500F4100 + 0x20 * m + off

/-- A corrected read is counted and recorded, and loads the empty repair slot (R183, R186, R187). -/
def State.corrected (s : State) (key src id bitNo : Nat) : State :=
  let m := memNum key
  let s := (s.count (aEcc m 0) 0 16).noteSet (aEcc m 4) 31
  let s := s.setReg (aEcc m 4) (word (2 ^ 31 + src * 2 ^ 29 + id * 2 ^ 17 + bitNo))
  let s := s.setReg (aEcc m 8) (word (reported key))
  let s := if bit (s.reg 0x500F4000) 1 then s.raise 658 else s
  if src = 1 || !bit (s.reg 0x500F4000) 0 || (tabFind s.ecc.repair m).isSome then s
  else { s with ecc := { s.ecc with repair := tabSet s.ecc.repair m key } }

/-- An uncorrectable read is counted and recorded and raises the ECC event (R173, R186, R187). One that meets a record keeps
VALID against a clear of its own cycle (R37, R186). -/
def State.uncorrectable (s : State) (key src id : Nat) (poisoned : Bool) : State :=
  let m := memNum key
  let s := s.count (aEcc m 0) 16 16
  let s := if bit (s.reg (aEcc m 12)) 31 then (s.setFlag (aEcc m 12) 30).noteSet (aEcc m 12) 31
    else ((s.noteSet (aEcc m 12) 31).setReg (aEcc m 12) (word (2 ^ 31 + src * 2 ^ 28 + poisoned.toNat * 2 ^ 27 + id * 2 ^ 17))).setReg
      (aEcc m 16) (word (reported key))
  s.raise 658

/-- The data of a code word as memory holds it, with its inverted data bits. -/
def State.rawWord (s : State) (key : Nat) : Nat :=
  let n := cwBytes (memNum key)
  let v := leNat (readBytes s.mem key n)
  Nat.xor v ((tabGet 0 s.ecc.bad key).toNat % 2 ^ (8 * n))

/-- A checked read of the code word at `key` (R172, R173): its data, or nothing where it is uncorrectable. `src` and
`id` are those of Table 6.10. An error of three or more bits takes one of the outcomes that R172 allows, by a free
value (log entry 3); the bit that a wrong correction names may be any of the code word, a check bit too. -/
def State.readCode (s : State) (key src id : Nat) : State × Option Nat :=
  let m := memNum key
  let bad := tabGet 0 s.ecc.bad key
  let good := leNat (readBytes s.mem key (cwBytes m))
  if bad = 0 then (s, some good)
  else if ones bad = 1 then (s.corrected key src id (lowest bad), some good)
  else if ones bad = 2 then (s.uncorrectable key src id (bad == poison m), none)
  else
    let (s, c) := s.drawNat
    if c % 3 = 0 then (s.uncorrectable key src id false, none)
    else if c % 3 = 1 then
      let (s, b) := s.drawNat
      let pos := b % (if m < 32 then 39 else 72)
      let raw := s.rawWord key
      (s.corrected key src id pos, some (if pos < 8 * cwBytes m then Nat.xor raw (2 ^ pos) else raw))
    else (s, some (s.rawWord key))

/-- ECC_INJ. -/
def aEccInj : Nat := 0x500F4014

/-- The bits that an armed injection into memory `m` inverts (R188), none where it is not armed for it. -/
def State.injected (s : State) (m : Nat) : BitVec 72 :=
  let r := s.reg aEccInj
  if bit r 31 && fld r 24 6 == m then
    let a : BitVec 72 := 1 <<< fld r 0 7
    if bit r 30 && fld r 8 7 != fld r 0 7 then a ||| 1 <<< fld r 8 7 else a
  else 0

/-- Marks of the code word at `key` set to `bad`, with an armed injection applied (R188). -/
def State.markCode (s : State) (key : Nat) (bad : BitVec 72) : State :=
  let inj := s.injected (memNum key)
  let bad := bad ^^^ inj
  let e := { s.ecc with bad := if bad = 0 then tabErase s.ecc.bad key else tabSet s.ecc.bad key bad }
  let s := { s with ecc := e }
  if inj = 0 then s else s.clearFlag aEccInj 31

/-- A write of a whole code word with fresh check bits (R169, R188). -/
def State.writeCode (s : State) (key v : Nat) : State :=
  ({ s with mem := writeBytes s.mem key (leBytes (cwBytes (memNum key)) v) }).markCode key 0

/-- The bytes of `lanes` (offset and byte) stored from `key` on. -/
def putLanes (m : Memory) (key : Nat) : Tab Byte → Memory
  | [] => m
  | (i, b) :: r => putLanes (writeByte m (key + i) b) key r

/-- A memory merge write of some lanes of a code word (R174, R181): read, merge, write back, poisoned where the read
is uncorrectable: its other bytes are those that the memory delivered, inverted bits and all (DESIGN CHOICE, log entry 112).
A write of every lane is a whole write. -/
def State.mergeCode (s : State) (key id : Nat) (lanes : Tab Byte) : State :=
  let n := cwBytes (memNum key)
  if lanes.length = n then ({ s with mem := putLanes s.mem key lanes }).markCode key 0
  else
    let raw := s.rawWord key
    let (s, v) := s.readCode key 2 id
    let put (v : Nat) : State := { s with mem := putLanes (writeBytes s.mem key (leBytes n v)) key lanes }
    match v with
    | some v => (put v).markCode key 0
    | none => (put raw).markCode key (poison (memNum key))

/-- The lanes of `n` bytes of `v` at offset `off`. -/
def lanesOf (off n v : Nat) : Tab Byte := (upTo n).map fun i => (off + i, BitVec.ofNat 8 (v / 256 ^ i))

/-- The bytes of a list as lanes from `off` on. -/
def lanesOfBytes (off : Nat) (bs : List Byte) : Tab Byte := (upTo bs.length).map fun i => (off + i, bs.getD i 0)

/-- A write of master `id` lands in the code word at `key`: the bytes that a higher identity has written in this cycle
stay (R42). `who` is the identity that its merge read is recorded with. -/
def State.landLanes (s : State) (key id : Nat) (lanes : Tab Byte) (who : Nat := id) : State :=
  let l := lanes.filter fun l => !s.outranked id (key + l.1)
  if l.isEmpty then s else (s.noteWrites id (l.map fun l => key + l.1)).mergeCode key who l

/-- A write of `n` bytes of `v` at `key`, within one code word. -/
def State.storeIn (s : State) (key n v id : Nat) : State :=
  s.landLanes (cwOf key) id (lanesOf (key - cwOf key) n v)

/-- Bytes stored from `key` on, each code word once. -/
def State.storeBytes (s : State) (key id : Nat) (bs : List Byte) (who : Nat := id) : State :=
  let n := cwBytes (memNum key)
  let first := key / n
  let words := (key + bs.length + n - 1) / n - first
  (upTo words).foldl (fun s i =>
    let cw := (first + i) * n
    let lanes := (upTo n).filterMap fun j =>
      if key ≤ cw + j && cw + j < key + bs.length then some (j, bs.getD (cw + j - key) 0) else Option.none
    s.landLanes cw id lanes who) s

/-- A checked read of `n` bytes at `key` within one code word, as a number. -/
def State.loadIn (s : State) (key n src id : Nat) : State × Option Nat :=
  let (s, v) := s.readCode (cwOf key) src id
  (s, v.map fun v => v / 256 ^ (key - cwOf key) % 256 ^ n)

/-- A checked read of `n` bytes from `key` on, each code word once; nothing where one is uncorrectable. -/
def State.loadBytes (s : State) (key n src id : Nat) : State × Option (List Byte) :=
  let b := cwBytes (memNum key)
  let first := key / b
  let words := (key + n + b - 1) / b - first
  let (s, r) := (upTo words).foldl (fun (acc : State × Option (List Byte)) i =>
    let (s, v) := acc.1.readCode ((first + i) * b) src id
    (s, match acc.2, v with
      | some l, some v => some (l ++ leBytes b v)
      | _, _ => none)) (s, some [])
  (s, r.map fun l => (l.drop (key - first * b)).take n)

/-- The memories of an engine island lose their contents (R95, R171, R467): undefined data, valid code words. -/
def State.loseEngine (s : State) (k : Nat) : State :=
  { s with mem := eraseRange s.mem (engKey k 0) (engKey k 0x14000)
           ecc := { s.ecc with bad := tabDrop (fun a _ => decide (engKey k 0 ≤ a ∧ a < engKey k 0x14000)) s.ecc.bad
                               repair := tabErase (tabErase s.ecc.repair k) (16 + k) } }

/-- The entry sequence of R65 runs. -/
def State.entering (s : State) : Bool := s.sys.entry.any (·.waiting.isNone)

/-! ### Responses of the dictionary that have left (R374, R375, R382) -/

/-- One response fewer is ahead of what waits for `src`. -/
def DrWait.gone (w : DrWait) (src : Source) : DrWait := if w.src = src then { w with left := w.left - 1 } else w

/-- A response to `src` has left both ports, or the controlling master has read it. -/
def State.drGone (s : State) (src : Source) : State :=
  { s with agent := { s.agent with resetDue := s.agent.resetDue.map (·.gone src)
                                   dozeDue := s.agent.dozeDue.map (·.gone src) } }

/-- The oldest write to the always-on island has completed. -/
def State.aonGone (s : State) : State :=
  { s with agent := { s.agent with resetDue := s.agent.resetDue.map fun w => { w with aon := w.aon - 1 } } }

end Sys2Proof.Machine
end

