-- ==== Sys2Proof/Machine/Threads.lean ====
section
/-! DEFINITION. Threads and engines as every family sees them: working registers and pending marks (R126 to R128),
thread states and watchdogs (R86, R161), merge entries (R176 to R181), the fetch-ahead word (R118), Twin pairs (R97 to
R101), changes of mode and the mode gate (R50 to R53, R277), the governor's queue (R60), locks and waiters as a reset
or a release leaves them (R193 to R197), resets of threads and engines (R93, R94), and taking a trap or an interrupt
(R147 to R160). -/

namespace Sys2Proof.Machine

/-! ### Working registers, flags, pending marks -/

/-- w`r` of a thread (R102, Table 3.14). -/
def Thread.rd (t : Thread) (r : Reg) : Word := tabGet (if r = 14 then 0x14000 else 0) t.w r

/-- The thread with w`r` written; nothing else changes. -/
def Thread.wrRaw (t : Thread) (r : Reg) (v : Word) : Thread := { t with w := tabSet t.w r v }

/-- The request with a destination cancelled (R128). -/
def FarReq.cancel (q : FarReq) (d : Dest) : FarReq := { q with dests := q.dests.filter fun x => x.1 != d }

/-- The thread with every pending delivery to `d` cancelled (R128). -/
def Thread.cancel (t : Thread) (d : Dest) : Thread := { t with outst := t.outst.map (·.cancel d) }

/-- An instruction's write of w`r`: pending deliveries to it are cancelled (R128). -/
def Thread.wr (t : Thread) (r : Reg) (v : Word) : Thread := (t.cancel (.reg r)).wrRaw r v

/-- The thread with flag T written by an instruction (R103, R128). -/
def Thread.wrT (t : Thread) (b : Bool) : Thread :=
  let t := t.cancel .flagT
  { t with status := setBit t.status 27 b }

/-- A destination is pending (R126). -/
def Thread.pendingOn (t : Thread) (d : Dest) : Bool := t.outst.any fun q => q.dests.any fun x => x.1 == d

/-- pc with its bits [31:16] and [1:0] clear (R102). -/
def pcOf (v : Word) : Word := v &&& 0xFFFC

/-! ### Engines and Twin pairs -/

def aEng (k off : Nat) : Nat := 0x500F1000 + 0x100 * k + off
def aTrp (k off : Nat) : Nat := 0x500F2000 + 0x100 * k + off

/-- ENG_THCFGt of engine `k`. -/
def aThcfg (k t : Nat) : Nat := aEng k (0x40 + 4 * t)

/-- SYS_TWIN and SYS_TWINERR. -/
def aTwin : Nat := 0x500F0200
def aTwinErr : Nat := 0x500F0204

/-- Engine `k` runs in a Twin pair (SYS_TWIN.ACT, R97). -/
def State.twin (s : State) (k : Nat) : Bool := bit (s.reg aTwin) (16 + k / 2)

/-- The engine whose wheel, configuration and contexts engine `k` uses (R98). -/
def State.lead (s : State) (k : Nat) : Nat := if s.twin k then k - k % 2 else k

/-- The engines whose SRAM a beat of engine `k` reaches (R98). -/
def State.both (s : State) (k : Nat) : List Nat := if s.twin k then [k - k % 2, k - k % 2 + 1] else [k]

/-- The modes in which threads execute (Table 2.1). -/
def Mode.executes : Mode → Bool
  | .unaddressed | .preparation | .run | .tracking | .safe => true
  | _ => false

/-- Threads of engine `k` can execute: its island is on, the mode lets threads run, no Twin stop (R100). In a pair only the even
engine's island is asked: where SYS_ENGPWR retains or switches off the odd one alone, the beats of the pair run on (DESIGN CHOICE,
log entry 121). -/
def State.engRuns (s : State) (k : Nat) : Bool :=
  (s.eng k).power == .on && s.sys.mode.executes && !(s.eng k).twinStop && s.running

/-! ### Thread states and watchdogs -/

/-- The watchdog counts in these states (R161). -/
def ThreadState.counting : ThreadState → Bool
  | .ready | .running | .waiting => true
  | _ => false

/-- Engine beats that the watchdog has counted (R161; a beat is 2 fabric cycles, Table 0.4). -/
def Thread.wdCount (t : Thread) (cyc : Nat) : Nat := t.wdAcc + (t.wdFrom.elim 0 fun c => (cyc - c) / 2)

/-- The thread in state `st`; the watchdog counts on or holds (R161). -/
def Thread.enter (t : Thread) (cyc : Nat) (st : ThreadState) : Thread :=
  if st.counting then { t with st := st, wdFrom := some (t.wdFrom.getD cyc) }
  else { t with st := st, wdAcc := t.wdCount cyc, wdFrom := none }

/-- The thread with its watchdog restarted (R161); a WDOG that is due stays due (R148). -/
def Thread.wdRestart (t : Thread) (cyc : Nat) : Thread :=
  { t with wdAcc := 0, wdFrom := if t.st.counting then some cyc else none }

/-- The watchdog period in beats for a WDT field (Table 5.1), 0 for off. -/
def wdPeriod (wdt : Nat) : Nat := if wdt = 0 then 0 else 1000 * 4 ^ (wdt - 1)

/-- WDT of thread `id` (Table 5.1). -/
def State.wdt (s : State) (id : Nat) : Nat := fld (s.reg (aThcfg (id / 16) (id % 16))) 5 3

/-- The thread stops being the holder of its engine's pool (R77). -/
def State.dropHolder (s : State) (id : Nat) : State :=
  s.updEng (id / 16) fun e => if e.holder.map Fin.val == some (id % 16) then { e with holder := none } else e

/-- Thread `id` passes to a state that is not RUNNING: a holder loses the pool (R77). -/
def State.setSt (s : State) (id : Nat) (st : ThreadState) : State :=
  (s.updThr id (·.enter s.cycle st)).dropHolder id

/-! ### Changes of mode, causes of Safe -/

/-- Table 2.1. -/
def Mode.code : Mode → Nat
  | .recall => 0 | .unaddressed => 1 | .preparation => 2 | .run => 3
  | .tracking => 4 | .safe => 5 | .doze => 6 | .dormant => 7

/-- The mode with a code of Table 2.1. -/
def modeOf (n : Nat) : Mode :=
  match n % 8 with
  | 0 => .recall | 1 => .unaddressed | 2 => .preparation | 3 => .run
  | 4 => .tracking | 5 => .safe | 6 => .doze | _ => .dormant

def aMode : Nat := 0x500F0100
def aSafeCause : Nat := 0x500F0110
def aPadCfg (p : Nat) : Nat := 0x50020000 + 0x20 * p
def aPadStat (p : Nat) : Nat := 0x50020004 + 0x20 * p
def aOwnStat : Nat := 0x5002110C

/-- The scheduled level of a pad (R257): the latest placed edge whose instant has come. -/
def State.slvl (s : State) (p : Nat) : BitVec 2 :=
  (s.pad p).placed.foldl (fun l x => if x.1 ≤ s.cycle then x.2 else l) (s.pad p).slvl

/-- The level a pad's driver shows when the pad is an output (Table 10.1; 0 low, 1 high, 2 Z). -/
def State.shownOut (s : State) (p : Nat) : BitVec 2 :=
  let x := s.pad p
  let cfg := s.reg (aPadCfg p)
  let safe : BitVec 2 := BitVec.ofNat 2 (fld cfg 17 2)
  match x.force, x.hold with
  | some l, _ => if safe = 3 then l else safe
  | none, some l => l
  | none, none =>
    match (if bit cfg 24 then x.shk else none) with
    | some l => l
    | none =>
      if s.sys.gate then
        if s.sys.mode == .recall && !s.sys.padsLoaded then 2 else if safe = 3 then x.gateLvl else safe
      else s.slvl p

/-- The level at a pad's pin as driven (R256): Z for an input pad, and while PORST_N is low (R447). -/
def State.shown (s : State) (p : Nat) : BitVec 2 := if s.sys.porLow then 2 else if bit (s.reg (aPadCfg p)) 12 then s.shownOut p else 2

/-- The mode gate takes effect (R277): each pad keeps the level it showed. -/
def State.gateOn (s : State) : State :=
  if s.sys.gate then s else
    let s := (upTo 128).foldl (fun s' p =>
      if s.shownOut p = (s.pad p).gateLvl then s' else s'.updPad p ({ · with gateLvl := s.shownOut p })) s
    { s with sys := { s.sys with gate := true, gatePend := false } }

/-- The Shackle gate is no longer in effect (R279). -/
def State.shkGateOff (s : State) : State :=
  { s with pads := tabMap (fun _ (p : Pad) => { p with shk := none }) s.pads }

/-- The mode gate ends (R277), and with it the Shackle gate that stood in for it while OWN_OUT is 1 (R279). -/
def State.gateOff (s : State) : State :=
  let s := if bit (s.reg aOwnStat) 0 then s.shkGateOff else s
  { s with sys := { s.sys with gate := false, gatePend := false } }

/-- The Shackle gate takes effect on the SHK pads with the level that stands (R279). -/
def State.shkGateOn (s : State) : State :=
  (upTo 128).foldl (fun s' p =>
    if bit (s.reg (aPadCfg p)) 24 then s'.updPad p ({ · with shk := some (s.shownOut p) }) else s') s

/-- The laps of the memories `ms` count on from now (R184). -/
def State.lapGo (s : State) (ms : List Nat) : State :=
  let from' := ms.foldl (fun t m => if (tabFind t m).isSome then t else tabSet t m s.cycle) s.ecc.lapFrom
  { s with ecc := { s.ecc with lapFrom := from' } }

/-- The cycles counted in the current lap of memory `m`. -/
def State.lapCount (s : State) (m : Nat) : Nat :=
  tabGet 0 s.ecc.lapAcc m + (tabFind s.ecc.lapFrom m).elim 0 (s.cycle - ·)

/-- The laps of the memories `ms` hold their count (R184). -/
def State.lapHold (s : State) (ms : List Nat) : State :=
  { s with ecc := { s.ecc with lapAcc := ms.foldl (fun t m => tabSet t m (s.lapCount m)) s.ecc.lapAcc
                               lapFrom := tabDrop (fun m _ => ms.contains m) s.ecc.lapFrom } }

/-- The memories whose islands run (Table 6.1). -/
def State.lapMems (s : State) : List Nat :=
  ((upTo 16).filter fun k => (s.eng k).power == .on).flatMap (fun k => [k, 16 + k]) ++ [32, 33, 34]

/-- The laps follow a change to mode `m` (R184, Table 2.17). -/
def State.lapMode (s : State) (m : Mode) : State :=
  if s.sys.mode.executes == m.executes then s else if m.executes then s.lapGo s.lapMems else s.lapHold (upTo 35)

/-- A transition (R53): the new mode code, PREV, CHG, the mode-change event, the Safe event. An entry to Doze or Dormant
in progress ends (log entry 14); a change of mode that a decision of the Shackle unit has fixed for an output commit still to come
stands (R393); a unit that leaves Run withdraws SHK_CTL.SWREQ (Table 14.5). The event of an entry to
Doze or Dormant is raised while the fabric island still runs. -/
def State.setMode (s : State) (m : Mode) : State :=
  let s := s.lapMode m
  let s := (s.setRegFld aMode 4 3 s.sys.mode.code).setFlag aMode 8
  let s := if s.sys.mode == .run then s.clearFlag 0x500F7000 1 else s
  let entered (s : State) : State :=
    { s with sys := { s.sys with mode := m, entry := none }
             shk := { s.shk with began := if m == .run || m == .tracking then s.shk.began else none } }
  let s := if (entered s).running then (entered s).raise 656 else entered (s.raise 656)
  if m = .safe then s.raise 657 else s

/-- A response payload that answers a write of the mode request with OK (Tables 12.8, 13.4), and the same with MODE. -/
def modeOk (bs : List Byte) : Bool :=
  ((bs.getD 0 0).toNat % 16 == 2 || (bs.getD 0 0).toNat % 16 == 5) && bs.getD 5 0 == 0
    && bs.getD 2 0 == 0 && bs.getD 3 0 == 0x20 && bs.getD 4 0 == 2
def modeNo (bs : List Byte) : List Byte := (bs.set 0 (bs.getD 0 0 ||| 0x80)).set 5 0x30

/-- The first of the frames that answers the mode request with OK says MODE. -/
def denyFirst : List OwnFrame → List OwnFrame
  | [] => []
  | f :: fs => if f.type == 2 && modeOk f.payload then { f with payload := modeNo f.payload } :: fs else f :: denyFirst fs

/-- The dictionary's mode request of this cycle is answered MODE (R52): its response, which still waits, says so. -/
def State.denyMode (s : State) : State :=
  let own := (denyFirst s.chain.own.reverse).reverse
  let resp := s.lrp.resp.map fun bs => if modeOk bs then modeNo bs else bs
  if own = s.chain.own ∧ resp = s.lrp.resp then s
  else { s with chain := { s.chain with own := own }, lrp := { s.lrp with resp := resp }
                agent := { s.agent with dozeDue := none
                                        errors := if s.agent.errors = 0xFFFFFFFF then s.agent.errors else s.agent.errors + 1 } }

/-- What a transition of this cycle has changed goes back to what stood before the request `q` (R52): the transition that
follows is one from the mode before it. -/
def State.restoreMode (s : State) (q : ReqTaken) : State :=
  let s := ((s.setRegFld aMode 4 3 q.prev).setRegFld aMode 8 1 q.chg.toNat).setRegFld 0x500F7000 1 1 q.swreq.toNat
  let s := (s.setRegFld 0x500F7014 31 1 q.shk.owner.toNat).setReg 0x500F701C q.shkCnt
  let mine (r : Raise) : Bool := r.cyc == s.cycle && r.ch == 656
  { s with sys := { s.sys with mode := q.mode, entry := none, gatePend := q.mode == .preparation && s.sys.gatePend }
           shk := { s.shk with owner := q.shk.owner, take := q.shk.take, outDue := q.shk.outDue, began := q.shk.began }
           hinge := { s.hinge with raised := if q.raised then s.hinge.raised else s.hinge.raised.filter (!mine ·) } }

/-- A mode request that this cycle has taken is discarded (R52): REJ where it came through SYS_MODEREQ, MODE where through the
dictionary. A request for Safe leaves the unit on its way there, without its own bit of SYS_SAFECAUSE. -/
def State.undoRequest (s : State) : State :=
  match s.sameNow.req with
  | none => s
  | some q =>
    if s.sys.mode = .doze ∨ s.sys.mode = .dormant then s
    else
      let s := s.note ({ · with req := none })
      let s := if q.id = 288 then s.denyMode else s.setFlag aMode 9
      if q.names = .safe then s.setRegFld aSafeCause 0 1 q.cause0.toNat
      else if q.names = q.mode then s
      else s.restoreMode q

/-- A cause of Safe (R52, R53, R157, Table 2.8: bit `cause`): from the modes of Table 2.13 the unit enters Safe and the
gates act (R277, R279), ahead of a mode request of the same cycle; in Safe the bit is set and the mode stays. -/
def State.enterSafe (s : State) (cause : Nat) : State :=
  let s := (if cause = 0 then s else s.undoRequest).note fun x => { x with safe := true, cause := x.cause || cause != 0 }
  match s.sys.mode with
  | .safe => s.setFlag aSafeCause cause
  | .unaddressed | .preparation | .run | .tracking =>
    let s := s.setFlag aSafeCause cause
    let s := if bit (s.reg aOwnStat) 0 && !s.sys.gate then s.shkGateOn else s
    (s.setMode .safe).gateOn
  | _ => s

/-! ### The governor's queue (R60, R468, R469) -/

def aEngPwr : Nat := 0x500F0114
def aEngStart : Nat := 0x500F0118
def aGovCnt : Nat := 0x500F0124
def aXerr : Nat := 0x500F0018
def aXflag : Nat := 0x500F0020

/-- The queue with a request merged in, in the order of R60; a power-up that waits for a later instant keeps it (R67). -/
def govInsert (r : GovReq) : List GovReq → List GovReq
  | [] => [r]
  | q :: qs =>
    if q.eng = r.eng then { q with powerUp := q.powerUp || r.powerUp, start := q.start || r.start, since := max q.since r.since } :: qs
    else if r.eng < q.eng then r :: q :: qs else q :: govInsert r qs

/-- A power-up or a start of engine `k` is queued (R59, R60). -/
def State.govQueue (s : State) (k : Nat) (powerUp start : Bool) : State :=
  { s with sys := { s.sys with gov := govInsert ⟨k, powerUp, start, s.cycle⟩ s.sys.gov } }

/-- An engine start is queued (R94, R468); SYS_ENGSTART.ENG[k] reads 1. -/
def State.queueStart (s : State) (k : Nat) : State := (s.govQueue k false true).setFlag aEngStart k

/-- An access of master `id` to an island that is off or retained (R24, Tables 1.12, 1.12a): counted, flagged, channel
666. -/
def State.gateCount (s : State) (id : Nat) : State :=
  (((s.count aXerr 16 16).setRegFld aXerr 0 9 id).setFlag aXflag 0).raise 666

/-- A wake request for an island that is off is discarded and counted (R60). -/
def State.wakeLost (s : State) : State :=
  let s := (s.count aGovCnt 16 16).raise 661
  if s.sys.mode = .run || s.sys.mode = .tracking then s.enterSafe 1 else s

/-! ### Merge entries (R176 to R181) -/

/-- The local merge entry of engine `k` is written into data SRAM (R177). The master of the merge read is the thread that
stored into it last (DESIGN CHOICE, log entry 94), under the identity of the even engine in a Twin pair (R30). -/
def State.flushLocal (s : State) (k : Nat) : State :=
  match (s.eng k).localMerge with
  | none => s
  | some m => (s.updEng k ({ · with localMerge := none })).mergeCode (engKey k m.addr) (16 * s.lead k + m.owners.headD 0) m.lanes

/-- The local merge entry is flushed where it holds the word at local address `a`. -/
def State.flushLocalAt (s : State) (k a : Nat) : State :=
  if (s.eng k).localMerge.any (fun m => m.addr == a) then s.flushLocal k else s

/-- The oldest requests that wait in the far merge entry are answered (R179). -/
def Thread.mergeDone (t : Thread) : Thread :=
  { t with outst := t.outst.map fun q => if q.phase == .merge then { q with phase := .done } else q }

/-- An engine request takes `n` image memory cycles: a pass that runs is extended by as many (R303). -/
def State.imageCycles (s : State) (n : Nat) : State :=
  match s.scan.run with
  | none => s
  | some r => { s with scan := { s.scan with run := some { r with cost := r.cost + n } } }

/-- The far merge entry of engine `k` is flushed into image memory (R180, R181). -/
def State.flushFar (s : State) (k : Nat) : State :=
  match (s.eng k).farMerge with
  | none => s
  | some m =>
    let s := s.imageCycles (if m.lanes.length = 8 then 1 else 2)
    ((s.updEng k ({ · with farMerge := none })).landLanes m.addr m.owner m.lanes).updThr m.owner Thread.mergeDone

/-! ### The fetch-ahead word (R118, R173) -/

/-- The fetch-ahead word of thread `id` is filled from local address `a`; `vec` for a vector word. Each engine of a Twin
pair fills from its own SRAM (R98), under the identity of the even one (R30). -/
def State.fill (s : State) (id : Nat) (a : Word) (vec : Bool := false) : State :=
  let k := s.lead (id / 16)
  let (s, v) := s.readCode (engKey k a.toNat) 0 id
  let (s, w) := if s.twin k then s.readCode (engKey (k + 1) a.toNat) 0 id else (s, v)
  s.updThr id fun t =>
    { t with faAddr := a, faWord := word (v.getD 0), faBad := v.isNone, faVec := vec
             faWord2 := word (w.getD 0), faBad2 := w.isNone }

/-- Thread `id` goes on at `a`: pc and fetch-ahead word. -/
def State.goTo (s : State) (id : Nat) (a : Word) : State := (s.updThr id ({ · with pc := a })).fill id a

/-- The fetch-ahead word with a stored instruction word (R120): of the even engine of a pair, of the odd one, or of an
engine in no pair. -/
def Thread.snooped (t : Thread) (even odd : Bool) (v : Word) : Thread :=
  let t := if even then { t with faWord := v, faBad := false, faVec := false } else t
  if odd then { t with faWord2 := v, faBad2 := false } else t

/-- An instruction word stored in the SRAM of engine `k` reaches that engine's fetch-ahead words that hold its address
(R120). -/
def State.snoop (s : State) (k a : Nat) (v : Word) : State :=
  let e := s.lead k
  (upTo 16).foldl (fun s i =>
    let t := s.thr (16 * e + i)
    if t.faAddr.toNat = a && t.st != .stopped then
      s.setThr (16 * e + i) (t.snooped (e == k) (e != k || !s.twin k) v) else s) s

/-! ### Completing waits -/

/-- An island that is off, retained or powering up holds its wakes (R63). -/
def State.islandOn (s : State) (k : Nat) : Bool := (s.eng k).power == .on

/-- The watchdog restarts at the completion of a wait (R161): a WDOG that fell due at this very edge is withdrawn, an
earlier one stays due; while the island does not run the count holds. -/
def State.wdWait (s : State) (id : Nat) (t : Thread) : Thread :=
  let late := t.wdDue && decide (2 * wdPeriod (s.wdt id) < 2 * t.wdAcc + t.wdFrom.elim 0 (s.cycle - ·))
  let t := { t.wdRestart s.cycle with wdDue := late }
  if s.islandOn (id / 16) then t else { t with wdFrom := none }

/-- The wait of a thread completes (R138, R140, R148, R161, R165): it goes on after its WAITE or WAITL, READY; held
while its island does not run (R63); a halted one resumes as READY. The instruction has executed: a breakpoint that it skipped
matches again (R167). -/
def State.completeWait (s : State) (id : Nat) : State :=
  let pc := (s.thr id).pc
  let s := s.goTo id (pcOf (pc + 4))
  s.updThr id fun t =>
    let t := if t.bpSkip = some pc then { t with bpSkip := none } else t
    match t.st with
    | .halted => { s.wdWait id t with hprev := .ready, wait := .none }
    | _ =>
      if s.islandOn (id / 16) then { (s.wdWait id t).enter s.cycle .ready with wait := .none }
      else { s.wdWait id t with wait := .none, heldWake := true }

/-- The thread is in a wait that a wake can complete, running or halted. -/
def Thread.inWait (t : Thread) : Bool := t.st == .waiting || (t.st == .halted && t.hprev == .waiting)

/-- A held wake queues the power-up of a retained island and sets its ENGk to 0b10 (R63, R469); a Twin pair powers up
as a pair (R61). -/
def State.wakeIsland (s : State) (k : Nat) : State :=
  (s.both k).foldl (fun s j =>
    if (s.eng j).power = .retained then (s.govQueue j true false).setRegFld aEngPwr (2 * j) 2 2 else s) s

/-! ### Locks and waiters (R193 to R197) -/

/-- Every waiter on the lock at `a` is completed (R194); a waiter of a stopped Twin pair is not moved (R100). -/
def State.completeWaiters (s : State) (a : Nat) : State :=
  let ids := (s.tum.waiters.filter fun w => w.2 == a).map (·.1)
  let s := { s with tum := { s.tum with waiters := s.tum.waiters.filter fun w => w.2 != a } }
  ids.foldl (fun s id =>
    let t := s.thr id
    if t.inWait && t.wait == .lock (word a) && !(s.eng (id / 16)).twinStop then
      (s.wakeIsland (id / 16)).completeWait id else s) s

/-- The lock at `a` becomes free; its entry is removed or replaced by a BROKEN mark. -/
def State.freeLock (s : State) (a : Nat) (mark : Bool) : State :=
  let l := if mark then tabSet s.tum.locks a .marked else tabErase s.tum.locks a
  ({ s with tum := { s.tum with locks := l } }).completeWaiters a

/-- Thread `id` is no longer registered as a waiter (R194). -/
def State.deregister (s : State) (id : Nat) : State :=
  { s with tum := { s.tum with waiters := tabErase s.tum.waiters id } }

/-- The threads `ids` are no longer registered: the step of a reset that comes before its releases (Table 7.2). -/
def State.deregisterAll (s : State) (ids : List Nat) : State :=
  { s with tum := { s.tum with waiters := tabDrop (fun id _ => ids.contains id) s.tum.waiters } }

/-- A reset of the holder `id` reaches the Tumbler unit (R197, R203): its locks are released and marked, its staged
mail is discarded. -/
def State.holderReset (s : State) (id : Nat) : State :=
  let s := s.deregister id
  let held := (s.tum.locks.filter fun l => l.2 == .held id).map (·.1)
  let s := held.foldl (fun s a => s.freeLock a true) s
  { s with tum := { s.tum with mail := tabMap (fun _ m =>
      if m.half && m.writer == id then { m with half := false } else m) s.tum.mail } }

/-! ### Resets of threads and engines (R93, R94) -/

/-- TRST of thread `id` (R93): its stores are written (R177, R180), the context of Table 3.14, STOPPED, locks and mail as
R197, inputs emptied (R213). -/
def State.resetThread (s : State) (id : Nat) : State :=
  let k := id / 16
  let s := (s.both k).foldl (fun s j =>
    if (s.eng j).localMerge.any (fun m => m.owners.contains (id % 16)) then s.flushLocal j else s) s
  let s := if (s.eng k).farMerge.any (fun m => m.owner == id) then s.flushFar k else s
  let s := (s.dropHolder id).holderReset id
  let s := s.setThr id {}
  let h := s.hinge
  { s with hinge := { h with inputs := tabDrop (fun i _ => i / 4 == id) h.inputs
                             drops := tabDrop (fun i _ => i / 4 == id) h.drops
                             notes := h.notes.filter fun n => n.id != id } }

/-- TRST of all 16 threads of engine `k` in one engine clock (R94). -/
def State.resetThreads (s : State) (k : Nat) : State :=
  (upTo 16).foldl (fun s i => s.resetThread (16 * k + i)) s

/-- The identities of the threads of engine `k`. -/
def engIds (k : Nat) : List Nat := (upTo 16).map (16 * k + ·)

/-- An engine reset of engine `k` (R94), which a Twin pair takes on both engines (R100). A wheel commit that is pending stays
pending (DESIGN CHOICE, log entry 86). -/
def State.engineReset (s : State) (k : Nat) : State :=
  let k := s.lead k
  let s := s.deregisterAll ((s.both k).flatMap engIds)
  let s := (s.both k).foldl (fun s j =>
    let s := ((s.flushLocal j).flushFar j).resetThreads j
    s.updEng j ({ · with holder := none, yielded := none, twinStop := false })) s
  s.queueStart k

/-! ### Twin mismatch (R100, R101) -/

/-- The pair of engine `k` stops on differing outputs `diff` of a beat at wheel position `pos` (R100). -/
def State.twinStops (s : State) (k thr pos : Nat) (diff : Nat) : State :=
  let s := (s.both k).foldl (fun s j => s.updEng j ({ · with twinStop := true })) s
  let s := if bit (s.reg aTwinErr) 31 then s
    else (s.noteSet aTwinErr 31).setReg aTwinErr (word (2 ^ 31 + k / 2 * 2 ^ 24 + pos * 2 ^ 20 + thr * 2 ^ 16 + diff))
  s.enterSafe 2

/-! ### Traps and interrupts (R147 to R160) -/

/-- The trap codes of Table 5.6 and R157. -/
def Trap.code : Trap → Nat
  | .illop => 1 | .align => 2 | .priv => 3 | .ecci => 4 | .eccd => 5 | .farerr => 6 | .brk => 7
  | .wdog => 8 | .deadlk => 9 | .stkov => 10 | .trapN n => 16 + n.toNat

/-- The position of a code's field in TRP_POL (Table 5.6). -/
def Trap.polBit : Trap → Nat
  | .trapN _ => 22
  | c => 2 * c.code

def Thread.inInt (t : Thread) : Bool := bit t.status 23
def Thread.inTrap (t : Thread) : Bool := bit t.status 22

/-- The frame of an entry fits (R150). -/
def State.frameFits (s : State) (id : Nat) : Bool :=
  let t := s.thr id
  let sp := (t.rd 14).toNat
  decide (sp % 4 = 0) && decide (0x10020 ≤ sp) && decide (sp ≤ 0x14000)
    && (!bit (s.reg (aThcfg (id / 16) (id % 16))) 4 || decide (t.slim.toNat ≤ sp - 32))

/-- A destination as an entry moves it to the frame at `base` (R154). -/
def Dest.toFrame (base : Word) : Dest → Dest
  | .reg r => if r.val ≤ 3 || r = 15 then .frame base r else .reg r
  | .flagT => .frameT base
  | d => d

/-- The thread with the pending marks of w0 to w3, lk and T moved to the frame at `base` (R154). -/
def Thread.toFrame (t : Thread) (base : Word) : Thread :=
  { t with outst := t.outst.map fun q => { q with dests := q.dests.map fun x => (x.1.toFrame base, x.2) } }

/-- Offset in the frame of the word of a register (Table 5.2). -/
def frameOff (r : Reg) : Nat := if r = 15 then 0x18 else 8 + 4 * r.val

/-- A word of data SRAM of engine `k` (both SRAMs of a pair) is written whole, after a flush of the merge entry that
holds it (R149, R177). -/
def State.writeFrame (s : State) (k : Nat) (a : Nat) (v : Word) : State :=
  (s.both k).foldl (fun s j => (s.flushLocalAt j a).writeCode (engKey j a) v.toNat) s

/-- Entry (R149 to R154): the frame, sp, ISTATE, w0 to w2 and the vector of `index`. -/
def State.entry (s : State) (id index : Nat) (trap : Bool) (w0 w1 w2 savedPc : Word) : State :=
  let k := id / 16
  let t := s.thr id
  let base := t.rd 14 - 32
  let words := [savedPc, t.status, t.rd 0, t.rd 1, t.rd 2, t.rd 3, t.rd 15]
  let s := (upTo 7).foldl (fun s i => s.writeFrame k (base.toNat + 4 * i) (words.getD i 0)) s
  let vec := pcOf (t.vbase + word (4 * index))
  let s := s.updThr id fun t =>
    let t := t.toFrame base
    let t := (((t.wrRaw 14 base).wrRaw 0 w0).wrRaw 1 w1).wrRaw 2 w2
    let st := setFld (setBit t.status (if trap then 22 else 23) true) 16 6 index
    { t with status := st, pc := vec, bpSkip := none }
  s.fill id vec true

/-- The thread leaves a wait for an entry or a trap (R148): no longer a waiter, READY; the instruction that it waited in
has passed its breakpoint (R167). -/
def State.leaveWait (s : State) (id : Nat) : State :=
  if (s.thr id).st = .waiting then
    (s.deregister id).updThr id fun t => { t.enter s.cycle .ready with wait := .none, bpSkip := some t.pc }
  else s

/-- The record and the count of a trap that is not vectored, in the registers of engine `k` (R160). One that meets a record
keeps VALID against a clear of its own cycle (R37). -/
def State.trapRecord (s : State) (k id : Nat) (c : Trap) (pol : Nat) (dbl far vecf : Bool) (named info : Word) : State :=
  let s := s.count (aTrp k 0x14) 0 16
  if bit (s.reg (aTrp k 8)) 31 then (s.setFlag (aTrp k 8) 30).noteSet (aTrp k 8) 31
  else
    let s := s.noteSet (aTrp k 8) 31
    let a := 2 ^ 31 + dbl.toNat * 2 ^ 29 + far.toNat * 2 ^ 28 + vecf.toNat * 2 ^ 27 + pol * 2 ^ 25 + id * 2 ^ 16 + c.code
    ((s.setReg (aTrp k 8) (word a)).setReg (aTrp k 12) named).setReg (aTrp k 16) info

/-- A trap that is held (R157): TRAPPED with its saved pc in pc, recorded, its event raised, and what its policy
(1 Hold, 2 Engine reset, 3 Safe) adds. -/
def State.holdTrap (s : State) (id : Nat) (c : Trap) (pol : Nat) (dbl far vecf : Bool) (named info savedPc : Word) :
    State :=
  let s := (s.leaveWait id).setSt id .trapped
  let s := s.updThr id ({ · with pc := savedPc, div := none })
  let s := (s.trapRecord (id / 16) id c pol dbl far vecf named info).raise (672 + id / 16)
  if pol = 2 then s.engineReset (id / 16) else if pol = 3 then s.enterSafe 3 else s

/-- How a trap of code `c` is held (R150, R153, R157, R158): the code recorded, the policy, DBL; none where it is vectored. -/
def State.heldAs (s : State) (id : Nat) (c : Trap) (vecf : Bool) : Option (Trap × Nat × Bool) :=
  let pol (c : Trap) := fld (s.reg (aTrp (id / 16) 0)) c.polBit 2
  let t := s.thr id
  if vecf then some (c, 1, t.inTrap)
  else if t.inTrap then some (c, max 1 (pol c), true)
  else if pol c ≠ 0 then some (c, pol c, false)
  else if s.frameFits id then none
  else some (.stkov, max 1 (pol .stkov), false)

/-- Thread `id` takes a trap of code `c` (R157, R158). `named` is the instruction the trap names, `savedPc` the pc it
saves; `far` marks a far reply (R143), `vecf` a bad vector word (R153). A trap whose entry fails with STKOV is spent
(DESIGN CHOICE, log entry 91). -/
def State.takeTrap (s : State) (id : Nat) (c : Trap) (info named savedPc : Word) (far vecf : Bool := false) : State :=
  let s := s.leaveWait id
  match s.heldAs id c vecf with
  | none =>
    let s := s.count (aTrp (id / 16) 0x14) 16 16
    s.entry id c.code true (word (c.code + far.toNat * 256)) info named savedPc
  | some (c', pol, dbl) =>
    if c' = c then s.holdTrap id c pol dbl far vecf named info savedPc
    else s.holdTrap id c' pol dbl false false named ((s.thr id).rd 14) savedPc

/-- One engine alone of the pair of thread `id` has found a word uncorrectable: the trap of code `c` there (R101). Its record and its
event, as its policy gives them (R157, R158, R160), are those of the block of the even engine, which serves the pair (R156); the pair
stops with every thread as it stands (R100), which goes ahead of an entry and of the policy Engine reset (DESIGN CHOICE, log
entry 113). -/
def State.oneSided (s : State) (id pos : Nat) (c : Trap) (vecf : Bool) (named info : Word) : State :=
  let k := id / 16
  let held := s.heldAs id c vecf
  let s := match held with
    | none => s.count (aTrp k 0x14) 16 16
    | some (c', pol, dbl) =>
      (s.trapRecord k id c' pol dbl false vecf named (if c' = c then info else (s.thr id).rd 14)).raise (672 + k)
  let s := s.twinStops k (id % 16) pos 16
  if held.any (fun h => h.2.1 == 3) then s.enterSafe 3 else s

/-- The report of an event at input `k` (Table 4.17). -/
def report (k : Nat) (e : Ev) : Word :=
  word (e.ovr.toNat * 2 ^ 13 + e.coinc.toNat * 2 ^ 12 + k * 2 ^ 10 + e.ch.toNat)

/-- The thread's copy of the event at input `k` is consumed; its note leaves for the fabric (R213). -/
def State.consume (s : State) (id k : Nat) (e : Ev) : State :=
  let s := s.updThr id fun t => { t with ev := tabErase t.ev k }
  { s with hinge := { s.hinge with notes := s.hinge.notes ++ [⟨id, k, e.ts⟩] } }

/-- The lowest input in `mask` that holds an event. -/
def Thread.eventIn (t : Thread) (mask : Nat → Bool) : Option (Nat × Ev) :=
  (upTo 4).findSome? fun k => if mask k then (tabFind t.ev k).map (k, ·) else none

/-- IEN of thread `id` (Table 5.1). -/
def State.ien (s : State) (id k : Nat) : Bool := bit (s.reg (aThcfg (id / 16) (id % 16))) k

/-- The interrupt that R147 would take: the lowest interrupt input that holds an event. -/
def State.intDue (s : State) (id : Nat) : Option (Nat × Ev) :=
  let t := s.thr id
  if t.inInt || t.inTrap then none else t.eventIn (s.ien id)

/-- An interrupt from EVk is taken (R149, Table 5.4); where the frame does not fit, the thread traps with STKOV and
the event stays (R150). -/
def State.takeInt (s : State) (id k : Nat) (e : Ev) : State :=
  let s := s.leaveWait id
  let t := s.thr id
  if s.frameFits id then (s.consume id k e).entry id (0x20 + k) false (report k e) 0 t.pc t.pc
  else s.holdTrap id .stkov (max 1 (fld (s.reg (aTrp (id / 16) 0)) 20 2)) t.inTrap false false t.pc (t.rd 14) t.pc

def aBp (k i : Nat) : Nat := 0x500F3110 + 0x20 * k + 4 * i

/-- The lowest breakpoint with action `act` that matches the thread's pc (R167); the instruction in which a thread waits
has passed its match. -/
def State.breakAt (s : State) (id : Nat) (act : Bool) : Option Nat :=
  let t := s.thr id
  if t.st = .waiting || t.bpSkip = some t.pc then none else
    (upTo 4).find? fun i =>
      let r := s.reg (aBp (id / 16) i)
      bit r 0 && bit r 1 == act && bit r (16 + id % 16) && fld r 2 14 * 4 == t.pc.toNat

/-- Thread `id` halts (R165): HPREV records where resume returns to; a wait stays registered (R168), a divide in progress
is abandoned (R113). -/
def State.halt (s : State) (id : Nat) : State :=
  let t := s.thr id
  if t.st = .halted then s else
    let prev := if t.st = .running then .ready else t.st
    (s.setSt id .halted).updThr id ({ · with hprev := prev, haltReq := false, stepping := false, div := none })

/-- What R147 selects at an instruction boundary. -/
inductive Boundary where
  | halt
  | farError (e : ErrDue)
  | wdog
  | deadlk
  | interrupt (k : Nat) (e : Ev)
  | brk (n : Nat)
  | execute
  deriving DecidableEq, Repr

/-- ENG_THCFG.DIVM of thread `id`. -/
def State.divm (s : State) (id : Nat) : Bool := bit (s.reg (aThcfg (id / 16) (id % 16))) 14

/-- The decision of R147 for thread `id`. Within a divide only a halt, and under DIVM = 1 an interrupt, is taken (R112,
R113). -/
def State.boundary (s : State) (id : Nat) : Boundary :=
  let t := s.thr id
  if t.div.isSome then
    if t.haltReq then .halt
    else match (if s.divm id then s.intDue id else none) with
      | some (k, e) => .interrupt k e
      | none => .execute
  else if t.haltReq || (s.breakAt id false).isSome then .halt
  else match t.errs with
  | e :: _ => .farError e
  | [] =>
    if t.wdDue then .wdog
    else if id = 0 && s.tum.due then .deadlk
    else match s.intDue id with
    | some (k, e) => .interrupt k e
    | none => match s.breakAt id true with
      | some n => .brk n
      | none => .execute

/-- A step ends (R166): a stepping thread halts at this boundary. -/
def State.stepEnd (s : State) (id : Nat) : State := if (s.thr id).stepping then s.halt id else s

/-- What R147 selected instead of the instruction happens. -/
def State.takeBoundary (s : State) (id : Nat) (b : Boundary) : State :=
  let pc := (s.thr id).pc
  match b with
  | .halt => (s.halt id)
  | .farError e =>
    ((s.updThr id fun t => { t with errs := t.errs.tail }).takeTrap id e.code e.info e.pc pc true).stepEnd id
  | .wdog =>
    let s := s.updThr id fun t => { t.wdRestart s.cycle with wdDue := false }
    (s.takeTrap id .wdog (word (wdPeriod (s.wdt id) / 100)) pc pc).stepEnd id
  | .deadlk => (({ s with tum := { s.tum with due := false } }).takeTrap id .deadlk 0 pc pc).stepEnd id
  | .interrupt k e => ((s.updThr id ({ · with div := none })).takeInt id k e).stepEnd id
  | .brk n =>
    (s.takeTrap id .brk (word n) pc pc).stepEnd id
  | .execute => s

/-! ### Far replies (R126 to R129, R143, R154) -/

/-- What a thread stalled under R78 waits for has come. -/
def State.farReady (s : State) (id : Nat) : Bool :=
  let t := s.thr id
  match t.wait with
  | .farSrc rs => !(rs.any t.pendingOn)
  | .farLimit => decide (t.outst.length < 8)
  | .farSync => t.outst.isEmpty && !((s.eng (id / 16)).localMerge.any fun m => m.owners.contains (id % 16))
  | .farRfi sp => !(t.outst.any fun q => q.dests.any fun x =>
      match x.1 with | .frame b _ => b == sp | .frameT b => b == sp | _ => false)
  | _ => false

/-- A slack thread that waits with reason FAR becomes READY once its load has come (R78). -/
def State.farWake (s : State) (id : Nat) : State :=
  if !s.farReady id then s
  else s.updThr id fun t =>
    match t.st with
    | .waiting =>
      if s.islandOn (id / 16) then { t.enter s.cycle .ready with wait := .none } else { t with heldWake := true }
    | .halted => if t.hprev = .waiting then { t with hprev := .ready, wait := .none } else t
    | _ => t

/-- A value reaches its destination (R126, R154). -/
def State.deliver (s : State) (id : Nat) (d : Dest) (v : Word) : State :=
  let k := id / 16
  match d with
  | .reg r => s.updThr id (·.wrRaw r v)
  | .flagT => s.updThr id fun t => { t with status := setBit t.status 27 (v != 0) }
  | .frame base r => s.writeFrame k (base.toNat + frameOff r) v
  | .frameT base => (s.both k).foldl (fun s j =>
      let a := base.toNat + 4
      let s := s.flushLocalAt j a
      match s.readCode (engKey j a) 2 id with
      | (s, some w) => s.writeCode (engKey j a) (setBit (word w) 27 (v != 0)).toNat
      | (s, none) =>
        let w := setBit (word (s.rawWord (engKey j a))) 27 (v != 0)
        ({ s with mem := writeBytes s.mem (engKey j a) (leBytes 4 w.toNat) }).markCode (engKey j a) (poison (16 + j))) s

/-- The `n`-th outstanding request of a thread is taken out. -/
def Thread.dropReq (t : Thread) (n : Nat) : Thread := { t with outst := t.outst.eraseIdx n }

/-- The issue number of the next far request of a thread. -/
def Thread.nextOrd (t : Thread) : Nat :=
  1 + max ((t.outst.map (·.ord)).foldl max 0) ((t.errs.map (·.ord)).foldl max 0)

/-- Request `n` is the oldest outstanding one to its island: its reply is the next of that crossing (R27). -/
def Thread.nextReply (t : Thread) (n : Nat) : Bool :=
  (t.outst.take n).all fun q => some q.isle != (t.outst[n]?).map (·.isle)

/-- An error reply becomes due behind those of earlier cycles, and among those of its cycle in issue order (R143). -/
def errInsert (e : ErrDue) : List ErrDue → List ErrDue
  | [] => [e]
  | x :: xs => if x.cyc = e.cyc ∧ e.ord < x.ord then e :: x :: xs else x :: errInsert e xs

end Sys2Proof.Machine
end

