-- ==== Sys2Proof/Machine/Flags.lean ====
section
/-! DEFINITION. The flags of the status register (Table 4.1) and how each group of instructions computes them (R109 to
R111). -/

namespace Sys2Proof.Machine

def flagN (st : Word) : Bool := bit st 31
def flagZ (st : Word) : Bool := bit st 30
def flagC (st : Word) : Bool := bit st 29
def flagV (st : Word) : Bool := bit st 28
def flagT (st : Word) : Bool := bit st 27

/-- N and Z from a result; the other bits stay (R103). -/
def withNZ (st v : Word) : Word := setBit (setBit st 31 (v.getLsbD 31)) 30 (v == 0)

def withC (st : Word) (c : Bool) : Word := setBit st 29 c
def withV (st : Word) (v : Bool) : Word := setBit st 28 v

/-- The carry out of bit 31 of a sum (R109). -/
def addCarry (a b : Word) : Bool := decide (2 ^ 32 ≤ a.toNat + b.toNat)

/-- The signed sum does not fit (R109). -/
def addOverflow (a b : Word) : Bool := decide ((a + b).toInt ≠ a.toInt + b.toInt)

/-- No borrow occurs: `a` is at least `b`, unsigned (R109). -/
def subCarry (a b : Word) : Bool := decide (b.toNat ≤ a.toNat)

/-- The signed difference does not fit (R109). -/
def subOverflow (a b : Word) : Bool := decide ((a - b).toInt ≠ a.toInt - b.toInt)

/-- Status after an ADD (R109). -/
def addFlags (st a b : Word) : Word := withV (withC (withNZ st (a + b)) (addCarry a b)) (addOverflow a b)

/-- Status after a SUB or a CMP (R109). -/
def subFlags (st a b : Word) : Word := withV (withC (withNZ st (a - b)) (subCarry a b)) (subOverflow a b)

/-- The four kinds of shift (R109). -/
inductive Shift where
  | shl
  | shr
  | sar
  | rot
  deriving DecidableEq, Repr

/-- The result of a shift (R109). -/
def Shift.result (k : Shift) (a : Word) (n : Nat) : Word :=
  match k with
  | .shl => a <<< n
  | .shr => a >>> n
  | .sar => a.sshiftRight n
  | .rot => a.rotateRight n

/-- The last bit that a shift by `n` (1 to 31) moves out; for ROT bit 31 of the result (R109). -/
def Shift.out (k : Shift) (a : Word) (n : Nat) : Bool :=
  match k with
  | .shl => a.getLsbD (32 - n)
  | .shr => a.getLsbD (n - 1)
  | .sar => a.getLsbD (n - 1)
  | .rot => (a.rotateRight n).getLsbD 31

/-- Status after a shift: an amount of 0 leaves C (R109). -/
def shiftFlags (k : Shift) (st a : Word) (n : Nat) : Word :=
  let st := withNZ st (k.result a n)
  if n = 0 then st else withC st (k.out a n)

/-- The conditions of B.cond on the status (Table 4.9). -/
def condHolds (c : BitVec 4) (st : Word) : Bool :=
  let n := flagN st
  let z := flagZ st
  let cy := flagC st
  let v := flagV st
  match c.toNat with
  | 0 => z
  | 1 => !z
  | 2 => cy
  | 3 => !cy
  | 4 => n
  | 5 => !n
  | 6 => v
  | 7 => !v
  | 8 => cy && !z
  | 9 => !cy || z
  | 10 => n == v
  | 11 => n != v
  | 12 => !z && n == v
  | 13 => z || n != v
  | 14 => flagT st
  | _ => !flagT st

end Sys2Proof.Machine
end

