-- ==== Sys2Proof/Machine/Operands.lean ====
section
/-! DEFINITION. Operand forms: registers and immediates (R105), shift amounts (R109), addresses (R114, R124, R133), and
which registers an operand reads (R127). -/

namespace Sys2Proof.Machine

/-- The register an operand reads. -/
def opReads : Operand → List Dest
  | .reg rb => [.reg rb]
  | .imm _ => []

/-- An operand with its immediate sign-extended (ADD, SUB, CMP, R105). -/
def opSigned (t : Thread) : Operand → Word
  | .reg rb => t.rd rb
  | .imm v => v.signExtend 32

/-- An operand with its immediate zero-extended (AND, OR, XOR, R105). -/
def opZero (t : Thread) : Operand → Word
  | .reg rb => t.rd rb
  | .imm v => v.setWidth 32

/-- The amount of a shift (R109). -/
def shiftAmt (t : Thread) : ShiftAmount → Nat
  | .reg rb => (t.rd rb).toNat % 32
  | .imm v => v.toNat

def shiftReads : ShiftAmount → List Dest
  | .reg rb => [.reg rb]
  | .imm _ => []

/-- The value of MOV (R108). -/
def movVal (t : Thread) : MovSource → Word
  | .reg ra => t.rd ra
  | .imm v => v.signExtend 32

def movReads : MovSource → List Dest
  | .reg ra => [.reg ra]
  | .imm _ => []

/-- The pad of PSET and PCAP (R137). -/
def padOf (t : Thread) : PadSelect → Nat
  | .num p => p.toNat
  | .reg ra => (t.rd ra).toNat % 128

def padReads : PadSelect → List Dest
  | .num _ => []
  | .reg ra => [.reg ra]

/-- The address ra + sext(imm18) of a local access (R114). -/
def ea18 (t : Thread) (ra : Reg) (imm : BitVec 18) : Word := t.rd ra + imm.signExtend 32

/-- The address ra + sext(imm14) of a far access (R124, R136). -/
def ea14 (t : Thread) (ra : Reg) (imm : BitVec 14) : Word := t.rd ra + imm.signExtend 32

/-- The word address of a far bit operation (R133). -/
def eaBit (t : Thread) (ra : Reg) (off : BitVec 9) : Word := t.rd ra + 4 * off.signExtend 32

end Sys2Proof.Machine
end

