-- ==== Sys2Proof/Machine/Beat.lean ====
section
/-! DEFINITION. How one instruction of one thread runs in its beat (R71 to R79, R106, R117, R127, R142, R147): the wheel
position, the pool, the decision at the boundary, stalls, the effect, the successor, and the comparison of a Twin
pair. -/

namespace Sys2Proof.Machine

/-- The class and thread byte of a position of the active wheel (Tables 3.6, 3.7). -/
def State.posByte (s : State) (k p : Nat) : Nat := fld (s.reg (aEng k (0x20 + 4 * (p / 4)))) (8 * (p % 4)) 8

/-- Position `p` is timed and owned by thread `t`. -/
def State.owns (s : State) (k p t : Nat) : Bool := s.posByte k p / 64 == 1 && s.posByte k p % 16 == t

/-- Thread `t` of engine `k` is a timed thread (R73). -/
def State.timed (s : State) (k t : Nat) : Bool := (upTo 16).any fun p => s.owns k p t

/-- THCFG.PRIO of a thread. -/
def State.prio (s : State) (k t : Nat) : Nat := fld (s.reg (aThcfg k t)) 8 3

/-- The selection of R76: lowest PRIO, ties to the lowest number. -/
def State.select (s : State) (k : Nat) : Option Nat :=
  let slack := (upTo 16).filter fun t => !s.timed k t && (s.thr (16 * k + t)).st == .ready
  let cand := slack.filter fun t => (s.eng k).yielded.map Fin.val != some t
  let cand := if cand.isEmpty then slack else cand
  cand.foldl (fun best t => match best with
    | none => some t
    | some b => if s.prio k t < s.prio k b then some t else some b) none

/-- The thread that executes at position `p` of engine `k` (R73, R76). -/
def State.atPosition (s : State) (k p : Nat) : Option Nat :=
  match s.posByte k p / 64 with
  | 1 => if (s.thr (16 * k + s.posByte k p % 16)).st == .ready || (s.thr (16 * k + s.posByte k p % 16)).st == .running
         then some (s.posByte k p % 16) else none
  | 2 => match (s.eng k).holder with
    | some h => if (s.thr (16 * k + h.val)).st == .running then some h.val else s.select k
    | none => s.select k
  | _ => none

/-- Position `p` begins for thread `t`, which is RUNNING from its fetch state on (Table 3.13); the pool passes to it
where the position is slack (R76). The unit is not quiet in this cycle (R204). -/
def State.takePosition (s : State) (k p t : Nat) : State :=
  let s := s.note ({ · with ran := true })
  (if s.posByte k p / 64 = 2 then
    s.updEng k fun e => if e.holder.map Fin.val == some t then e
      else { e with holder := some (Fin.ofNat 16 t), yielded := none }
  else s).updThr (16 * k + t) fun x => { x.enter s.cycle .running with wait := .none }

/-- What an instruction does when it executes. `next`: it goes on with the following word. `jump`: control transfers.
`trap`: a trap at issue with its INFO (R142). `fail`: the same after a checked read that the error
registers counted. `trapAfter`: TRAP n, whose saved pc is the following word. `hold`: the thread no longer follows on (TSTOP, a wait). `within`: a divide whose beats
go on (R113). `stall`: it has not executed and waits (R78). -/
inductive Act where
  | next (s : State)
  | jump (s : State) (target : Word)
  | trap (c : Trap) (info : Word)
  | fail (s : State) (c : Trap) (info : Word)
  | trapAfter (c : Trap)
  | hold (s : State)
  | within (s : State)
  | stall (s : State) (w : Wait)

/-- A stall of R78: a slack thread loses the pool and waits with reason FAR; a timed thread lets its position pass, and what it
stalls on is kept (R79). -/
def State.stall (s : State) (id : Nat) (w : Wait) : State :=
  if s.timed (id / 16) (id % 16) then s.updThr id ({ · with wait := w })
  else (s.setSt id .waiting).updThr id ({ · with wait := w })

/-- What an instruction reads and requests, whether it transfers control, whether it is a divide (R113, R123, R127,
R129). -/
structure Shape where
  reads : List Dest := []
  far : Bool := false
  transfer : Bool := false
  divide : Bool := false
  /-- SYNC, whose flush sends stores on (R134). -/
  sync : Bool := false

/-- The instruction at `pc` has completed: its skipped breakpoint is past, a step ends (R166, R167). -/
def State.done (s : State) (id : Nat) (pc : Word) : State :=
  (s.updThr id fun t => if t.bpSkip = some pc then { t with bpSkip := none } else t).stepEnd id

/-- The effect of an instruction is taken (R118, R119, R123, R142). -/
def State.perform (s : State) (id : Nat) (a : Act) : State :=
  let pc := (s.thr id).pc
  match a with
  | .next s => (s.goTo id (pcOf (pc + 4))).done id pc
  | .jump s target => (s.goTo id target).done id pc
  | .trap c info => (s.takeTrap id c info pc pc).done id pc
  | .fail s c info => (s.takeTrap id c info pc pc).done id pc
  | .trapAfter c => (s.takeTrap id c 0 pc (pcOf (pc + 4))).done id pc
  | .hold s => s.done id pc
  | .within s => s
  | .stall s w => s.stall id w

/-- What an instruction at the last word of the code space does (R117, R123): one that does not transfer control has no
effect and traps with FARERR, which goes ahead of every other outcome but ILLOP, ALIGN and a FARERR of its own. -/
def Act.atEnd (a : Act) : Act :=
  match a with
  | .next _ | .hold _ | .within _ | .fail _ _ _ | .trap .priv _ => .trap .farerr 0x10000
  | a => a

/-- The instruction at the boundary of thread `id` executes at wheel position `pos`: a bad fetch (R101, R173), pending
sources and the limit of R129 (R127), the end of the code space (R123), the effect. -/
def State.issue (s : State) (id pos : Nat) (sh : Shape) (body : State → Act) : State :=
  let t := s.thr id
  if t.faBad != t.faBad2 then
    s.oneSided id pos .ecci t.faVec t.faAddr t.faAddr
  else if t.faBad then (s.takeTrap id .ecci t.faAddr t.faAddr t.pc false t.faVec).stepEnd id
  else if sh.reads.any t.pendingOn then s.stall id (.farSrc sh.reads)
  else if sh.far && decide (8 ≤ t.outst.length) then s.stall id .farLimit
  else s.perform id (if t.pc = 0xFFFC && !sh.transfer then (body s).atEnd else body s)

/-- What the comparison of a Twin pair finds at a write state (R99, R100): the outputs that the command names; where the
two engines have fetched different words, some outputs, which ones is free (log entry 3). -/
def State.pairDiff (s : State) (b : Beat) : State × Nat :=
  let t := s.thr (16 * b.eng.val + b.thr.val)
  if !s.twin b.eng.val then (s, 0)
  else if b.diff != 0 then (s, b.diff.toNat)
  else if t.faBad || t.faBad2 || t.faWord == t.faWord2 then (s, 0)
  else
    let (s, n) := s.drawNat
    (s, 1 + n % 31)

/-- The beat of an instruction (R71 to R79, R100, R147). Where the thread does not execute at that position, nothing
happens (log entry 11). -/
def beat (b : Beat) (sh : Shape) (body : Nat → State → Act) (s : State) : State :=
  let k := b.eng.val
  let id := 16 * k + b.thr.val
  if !s.engRuns k || (s.twin k && k % 2 == 1) || s.atPosition k b.pos.val != some b.thr.val then s
  else
    let s := s.takePosition k b.pos.val b.thr.val
    match s.boundary id with
    | .execute =>
      if (s.thr id).div.isSome && !sh.divide then s
      else
        let (s, d) := s.pairDiff b
        if d = 0 then s.issue id b.pos.val sh (body id)
        else (if sh.far || sh.sync then s else s.issue id b.pos.val sh (body id)).twinStops k b.thr.val b.pos.val d
    | .halt => s.takeBoundary id .halt
    | d =>
      let s := s.takeBoundary id d
      if s.twin k && b.diff != 0 then s.twinStops k b.thr.val b.pos.val b.diff.toNat else s

/-- The thread goes on with the following word (R118). -/
def State.advance (s : State) (id : Nat) : State := s.goTo id (pcOf ((s.thr id).pc + 4))

/-- An instruction that only changes its thread and goes on (R108). -/
def regBeat (b : Beat) (reads : List Dest) (f : Thread → Thread) (s : State) : State :=
  beat b { reads := reads } (fun id s => .next (s.updThr id f)) s

end Sys2Proof.Machine
end

