-- ==== Sys2Proof/Machine/Alu.lean ====
section
/-! DEFINITION. Arithmetic and logic (R108, R109, Table 4.4). -/

namespace Sys2Proof.Machine

/-- The thread with a result in rd and a new status. -/
def Thread.result (t : Thread) (rd : Reg) (v st : Word) : Thread := { t.wr rd v with status := st }

/-- ADD (R108, R109). -/
def execAdd (b : Beat) (rd ra : Reg) (x : Operand) (s : State) : Out :=
  .next (regBeat b (.reg ra :: opReads x) (fun t =>
    t.result rd (t.rd ra + opSigned t x) (addFlags t.status (t.rd ra) (opSigned t x))) s)

/-- SUB (R108, R109). -/
def execSub (b : Beat) (rd ra : Reg) (x : Operand) (s : State) : Out :=
  .next (regBeat b (.reg ra :: opReads x) (fun t =>
    t.result rd (t.rd ra - opSigned t x) (subFlags t.status (t.rd ra) (opSigned t x))) s)

/-- The common form of AND, OR and XOR: N and Z (R108). -/
def logic (f : Word → Word → Word) (b : Beat) (rd ra : Reg) (x : Operand) (s : State) : State :=
  regBeat b (.reg ra :: opReads x) (fun t =>
    let v := f (t.rd ra) (opZero t x)
    t.result rd v (withNZ t.status v)) s

/-- AND (R108). -/
def execAnd (b : Beat) (rd ra : Reg) (x : Operand) (s : State) : Out := .next (logic (· &&& ·) b rd ra x s)

/-- OR (R108). -/
def execOr (b : Beat) (rd ra : Reg) (x : Operand) (s : State) : Out := .next (logic (· ||| ·) b rd ra x s)

/-- XOR (R108). -/
def execXor (b : Beat) (rd ra : Reg) (x : Operand) (s : State) : Out := .next (logic (· ^^^ ·) b rd ra x s)

/-- The common form of the shifts (R109). -/
def shift (k : Shift) (b : Beat) (rd ra : Reg) (x : ShiftAmount) (s : State) : State :=
  regBeat b (.reg ra :: shiftReads x) (fun t =>
    let n := shiftAmt t x
    t.result rd (k.result (t.rd ra) n) (shiftFlags k t.status (t.rd ra) n)) s

/-- SHL (R109). -/
def execShl (b : Beat) (rd ra : Reg) (x : ShiftAmount) (s : State) : Out := .next (shift .shl b rd ra x s)

/-- SHR (R109). -/
def execShr (b : Beat) (rd ra : Reg) (x : ShiftAmount) (s : State) : Out := .next (shift .shr b rd ra x s)

/-- SAR (R109). -/
def execSar (b : Beat) (rd ra : Reg) (x : ShiftAmount) (s : State) : Out := .next (shift .sar b rd ra x s)

/-- ROT (R109). -/
def execRot (b : Beat) (rd ra : Reg) (x : ShiftAmount) (s : State) : Out := .next (shift .rot b rd ra x s)

/-- CMP (R108, R109). -/
def execCmp (b : Beat) (ra : Reg) (x : Operand) (s : State) : Out :=
  .next (regBeat b (.reg ra :: opReads x) (fun t =>
    { t with status := subFlags t.status (t.rd ra) (opSigned t x) }) s)

/-- MOV (R108). -/
def execMov (b : Beat) (rd : Reg) (x : MovSource) (s : State) : Out :=
  .next (regBeat b (movReads x) (fun t => t.wr rd (movVal t x)) s)

/-- MOVH (R108): rd[15:0] is kept, so a pending rd stalls it (R127). -/
def execMovh (b : Beat) (rd : Reg) (imm : BitVec 16) (s : State) : Out :=
  .next (regBeat b [.reg rd] (fun t => t.wr rd (imm ++ (t.rd rd).setWidth 16)) s)

end Sys2Proof.Machine
end

