-- ==== Sys2Proof/Machine/Routes.lean ====
section
/-! DEFINITION. The fields of routes and the routes that memory holds (R216), and paths over them (R223, R225). -/

namespace Sys2Proof.Machine

def aHf (off : Nat) : Nat := 0x50010000 + off

def rBits (r lo n : Nat) : Nat := r / 2 ^ lo % 2 ^ n
def rSrc (r : Nat) : Nat := rBits r 0 10
def rEn (r : Nat) : Bool := rBits r 10 1 == 1
def rLatch (r : Nat) : Bool := rBits r 11 1 == 1
def rGroup (r : Nat) : Nat := rBits r 12 6
def rDelay (r : Nat) : Nat := rBits r 18 6
def rTgt (r i : Nat) : Nat := rBits r (24 + 13 * i) 13

/-- The tasks a route names. -/
def rTasks (r : Nat) : List Nat := ((upTo 8).map (rTgt r)).filter (· != 0x1FFF)

/-- The route as memory holds it. -/
def State.rawRoute (s : State) (r : Nat) : Nat := leNat (readBytes s.mem (routeKey r) 16)

/-- The routes that memory lists or marks, ascending; every other route is all zero. -/
def State.listedRoutes (s : State) : List Nat :=
  let keys := (s.mem.map (·.1)) ++ (s.ecc.bad.map (·.1))
  let rs := (keys.filter fun k => decide (0x60000000 ≤ k ∧ k < 0x60010000)).map fun k => (k - 0x60000000) / 16
  (upTo 4096).filter fun r => rs.contains r

/-- The routes with EN 1 and SRC `c`, ascending (HF_CHc.NROUTE counts them). -/
def State.routesOf (s : State) (c : Nat) : List Nat :=
  s.listedRoutes.filter fun r => rEn (s.rawRoute r) && rSrc (s.rawRoute r) == c

/-- Group `g` is enabled (R220). -/
def State.groupOn (s : State) (g : Nat) : Bool := bit (s.reg (aHf (0x20 + 4 * (g / 32)))) (g % 32)

/-- The nodes reached from `front` over `edges` within `fuel` rounds. -/
def reach (edges : List (Nat × Nat)) : Nat → List Nat → List Nat
  | 0, front => front
  | fuel + 1, front =>
    let new := (edges.filter fun e => front.contains e.1 && !front.contains e.2).map (·.2)
    if new.isEmpty then front else reach edges fuel (front ++ new.eraseDups)

/-- The channels raised by the tasks of a swing route without a clock of their own (R225). -/
def loopTargets (v : Nat) : List Nat :=
  (rTasks v).filterMap fun n =>
    if 0x780 ≤ n ∧ n < 0x7C0 then some (704 + (n - 0x780))
    else if 0x7C0 ≤ n ∧ n < 0x800 then some (704 + (n - 0x7C0))
    else if 0x800 ≤ n ∧ n < 0x8C0 then some (832 + (n - 0x800)) else none

end Sys2Proof.Machine
end

