-- ==== Sys2Proof/Machine/TimerCore.lean ====
section
/-! DEFINITION. What acts on a timer within one fabric cycle (R237 to R247): steps, starts, stops, STEP events, captures. -/

namespace Sys2Proof.Machine

def aTmr (t off : Nat) : Nat := 0x50000000 + 0x100 * t + off
def aSlot (t i : Nat) : Nat := aTmr t (0x40 + 0x20 * i)
def aTbCtl : Nat := 0x50002010
def aDbgCtl : Nat := 0x500F3000

/-- TMR_CTL fields (Table 9.5). -/
def State.tmrSrc (s : State) (t : Nat) : Nat := fld (s.reg (aTmr t 0)) 0 2
def State.tmrMode (s : State) (t : Nat) : Nat := fld (s.reg (aTmr t 0)) 4 2
def State.tmrOne (s : State) (t : Nat) : Bool := bit (s.reg (aTmr t 0)) 7
def State.smode (s : State) (t i : Nat) : Nat := fld (s.reg (aSlot t i)) 0 2
def State.repeats (s : State) (t i : Nat) : Bool := bit (s.reg (aSlot t i)) 3

def Timer.slot (x : Timer) (i : Nat) : Slot := tabGet {} x.slots i
def Timer.setSlot (x : Timer) (i : Nat) (v : Slot) : Timer := { x with slots := tabSet x.slots i v }
def State.updSlot (s : State) (t i : Nat) (f : Slot → Slot) : State :=
  s.updTmr t fun x => x.setSlot i (f (x.slot i))

/-- One step (R239): the timer, and whether it is a wrap step. Mode 0 up, 1 down, 2 up-down. -/
def Timer.step1 (x : Timer) (mode : Nat) : Timer × Bool :=
  match mode with
  | 0 => if x.top ≤ x.cnt then ({ x with cnt := 0 }, true) else ({ x with cnt := x.cnt + 1 }, false)
  | 1 => if x.cnt = 0 ∨ x.top < x.cnt then ({ x with cnt := x.top }, true) else ({ x with cnt := x.cnt - 1 }, false)
  | _ =>
    if x.top = 0 then ({ x with cnt := 0, down := false }, true)
    else if x.top < x.cnt then ({ x with cnt := x.top, down := true }, true)
    else if !x.down && x.cnt == x.top then ({ x with cnt := x.top - 1, down := true }, false)
    else if x.down && x.cnt == 0 then ({ x with cnt := 1, down := false }, false)
    else if !x.down then ({ x with cnt := x.cnt + 1 }, x.cnt + 1 == x.top)
    else ({ x with cnt := x.cnt - 1 }, x.cnt - 1 == 0)

/-- The start direction of a mode (R239): down in mode down. -/
def startDown (mode : Nat) : Bool := mode == 1

/-- The start value of a timer (R239). -/
def Timer.startVal (x : Timer) (mode : Nat) : BitVec 48 := if mode = 1 then x.top else 0

/-- The distance of R244 from the count to a compare value, none where no step ever ends on it. -/
def Timer.dist (x : Timer) (src mode : Nat) (v : BitVec 48) : Option Nat :=
  let c := x.cnt.toNat
  let top := x.top.toNat
  let n := v.toNat
  if src = 2 then some ((v - x.cnt).toNat)
  else if n = c then some 0
  else match mode with
  | 0 =>
    if top < n then none else if top ≤ c then some (1 + n) else if c < n then some (n - c) else some (top - c + 1 + n)
  | 1 =>
    if top < n then none else if top < c then some (1 + (top - n))
    else if n < c then some (c - n) else some (c + 1 + (top - n))
  | _ =>
    if top < n then none else if top = 0 then some 1 else if top < c then some (1 + (top - n))
    else if x.down then (if n < c then some (c - n) else some (c + n))
    else if c < n then some (n - c) else some ((top - c) + (top - n))

/-- The unit is in Doze, where slots raise nothing (R251). -/
def State.dozing (s : State) : Bool := s.sys.mode == .doze

/-- Timers with SRC 0b00 or 0b10 run from LFCLK (R250). -/
def State.lfRunning (s : State) (t : Nat) : Bool :=
  (s.dozing || (bit (s.reg aDbgCtl) 0 && bit (s.reg aDbgCtl) 1)) && s.tmrSrc t != 1

/-- A slot has an event in this fabric cycle: its channel is raised once, in the next cycle (R242, R243); nothing in
Doze (R251). -/
def State.slotEvent (s : State) (t i : Nat) : State :=
  let ch := 128 + 4 * t + i
  if s.dozing || s.hinge.raised.any (fun r => r.cyc == s.cycle + 1 && r.ch == ch) then s else s.raiseLater 1 ch

/-- A compare slot matches (R245, R251). -/
def State.slotMatch (s : State) (t i : Nat) : State :=
  let s := s.updSlot t i fun x => { x with armed := s.repeats t i }
  let s := if s.dozing then s.setFlag (aSlot t i) 6 else s
  s.slotEvent t i

/-- The slot is an armed compare slot. -/
def State.armedAt (s : State) (t i : Nat) : Bool := s.smode t i == 1 && ((s.tmr t).slot i).armed

/-- The slots that match where a step ends on the count (R245), and the wrap slots where it is a wrap step (R243). -/
def State.afterStep (s : State) (t : Nat) (wrap : Bool) : State :=
  let s := (upTo 4).foldl (fun s i =>
    if s.armedAt t i && ((s.tmr t).slot i).cmp == (s.tmr t).cnt then s.slotMatch t i
    else if wrap && s.smode t i == 3 then s.slotEvent t i else s) s
  if !wrap then s
  else
    let stop := s.tmrOne t
    (s.updTmr t fun x => { x with wrap := true, run := x.run && !stop
                                  stopped := if stop then s.cycle else x.stopped }).noteSet (aTmr t 4) 3

/-- `n` steps in one fabric cycle; a wrap step with ONE ends them (R241, R242). -/
def State.steps (s : State) (t : Nat) : Nat → State
  | 0 => s
  | n + 1 =>
    if !(s.tmr t).run then s else
      let (x, w) := (s.tmr t).step1 (s.tmrMode t)
      ((s.setTmr t x).afterStep t w).steps t n

/-- The timer, whose count at the start of cycle `cyc` is kept when something first moves it in that cycle (R242). -/
def Timer.begin (x : Timer) (cyc : Nat) : Timer := if x.c0Cyc = cyc then x else { x with c0 := x.cnt, c0Cyc := cyc }

/-- The count jumps to `new` (Table 9.1): a forward jump of 1 to 2^47 periods matches each armed slot that it passes
once. -/
def State.jumpTo (s : State) (t : Nat) (new : BitVec 48) : State :=
  let old := (s.tmr t).cnt
  let j := (new - old).toNat
  let s := s.updTmr t ({ · with cnt := new })
  if j = 0 ∨ 2 ^ 47 < j then s
  else (upTo 4).foldl (fun s i =>
    if s.armedAt t i && decide (1 ≤ (((s.tmr t).slot i).cmp - old).toNat) && decide ((((s.tmr t).slot i).cmp - old).toNat ≤ j)
    then s.slotMatch t i else s) s

/-- The chain-locked count takes the fabric copy as a jump (R238). -/
def State.jump (s : State) (t : Nat) : State := s.jumpTo t (BitVec.ofNat 48 (s.now.toNat / 256))

/-- The STEP events of the present fabric cycle step a timer that runs with SRC 0b01 then, and have no effect otherwise (R238,
R242). -/
def State.takeSteps (s : State) (t : Nat) : State :=
  let x := s.tmr t
  let s := s.setTmr t { x with steps := 0 }
  if s.tmrSrc t == 1 && x.run && x.written != s.cycle then
    (s.updTmr t (·.begin s.cycle)).steps t x.steps
  else s

/-- The steps of the present fabric cycle (Table 9.2, R240, R242). -/
def State.cycleSteps (s : State) (t : Nat) : State :=
  let s := s.takeSteps t
  let x := s.tmr t
  if s.lfRunning t then s
  else match s.tmrSrc t with
  | 2 => s.jump t
  | 1 => s
  | _ =>
    if !x.run || x.written == s.cycle then s
    else if fld (s.reg (aTmr t 8)) 0 16 ≤ x.phase.toNat then (s.updTmr t ({ · with phase := 0 })).steps t 1
    else s.updTmr t ({ · with phase := x.phase + 1 })

/-- The count that reads and captures of the present cycle see (R242). -/
def State.tmrCount (s : State) (t : Nat) : BitVec 48 :=
  let x := s.tmr t
  if x.c0Cyc = s.cycle then x.c0 else x.cnt

/-! ### Starts, stops, tasks (R241) -/

/-- A start acts; a stop of the same cycle wins. Through Recall the timers stay stopped (R255). -/
def State.tmrStart (s : State) (t : Nat) : State :=
  let x := s.tmr t
  if s.tmrSrc t = 2 ∨ x.run ∨ s.sys.mode = .recall then s
  else s.setTmr t { x with run := x.stopped != s.cycle, phase := 0 }

/-- `n` STEP events fire at the timer (Table 9.2): the timer takes them in this cycle, after its register writes (R242). -/
def State.tmrStepEvents (s : State) (t n : Nat) : State := s.updTmr t fun x => { x with steps := x.steps + n }

/-- A stop acts. -/
def State.tmrStop (s : State) (t : Nat) : State :=
  if s.tmrSrc t = 2 then s else s.updTmr t fun x => { x with run := false, stopped := s.cycle }

/-- The RELOAD of this cycle acts on what the register writes of the cycle have left (R242). -/
def State.tmrReloaded (s : State) (t : Nat) : State :=
  let x := s.tmr t
  if s.tmrSrc t = 2 ∨ x.reloaded ≠ s.cycle then s
  else s.setTmr t { x.begin s.cycle with cnt := x.startVal (s.tmrMode t), down := startDown (s.tmrMode t), phase := 0
                                         written := s.cycle }

/-- RELOAD (R242). -/
def State.tmrReload (s : State) (t : Nat) : State := (s.updTmr t ({ · with reloaded := s.cycle })).tmrReloaded t

/-- A capture of the count `c` into slot `i` (R246): the state, and whether it was dropped. A SNAP and an LFCAP of one cycle make
one capture (R247). -/
def State.captureOf (s : State) (t i : Nat) (c : BitVec 48) : State × Bool :=
  if s.smode t i ≠ 2 ∨ ((s.tmr t).slot i).capCyc = some s.cycle then (s, false) else
    let x := (s.tmr t).slot i
    let put (y : Slot) : State × Bool := ((s.updSlot t i fun _ => { y with capCyc := some s.cycle }).slotEvent t i, false)
    match x.pair, x.pend with
    | none, _ => put { x with front := c, capnew := true, cseq := x.cseq + 1 }
    | some _, none => put { x with pend := some c }
    | some _, some _ => (s.setFlag (aSlot t i) 9, true)

/-- A capture in the present cycle: of the count at its start (R242). -/
def State.capture (s : State) (t i : Nat) : State × Bool := s.captureOf t i (s.tmrCount t)

/-- TMR_CTL.LFSLOT. -/
def State.lfSlot (s : State) (t : Nat) : Nat := fld (s.reg (aTmr t 0)) 8 2

/-- LFCAP of timer `t` (R247). -/
def State.lfcap (s : State) (t : Nat) : State := (s.capture t (s.lfSlot t)).1

end Sys2Proof.Machine
end

