-- ==== Sys2Proof/Machine/Quiet.lean ====
section
/-! DEFINITION. The quiet detector (R204 to R206) and the passing of time: fabric cycles go by under the state as it
stands (R229, log entry 2). -/

namespace Sys2Proof.Machine

/-- The threads of the set of R204: neither STOPPED nor HALTED, none of the odd engine of a pair. -/
def State.threadSet (s : State) : List (Nat × Thread) :=
  s.threads.filter fun x =>
    x.2.st != .stopped && x.2.st != .halted && !(s.twin (x.1 / 16) && x.1 / 16 % 2 == 1)

/-- The enabled swing routes in enabled groups. -/
def State.liveRoutes (s : State) : List Nat :=
  (s.listedRoutes.map s.rawRoute).filter fun v => rEn v && !rLatch v && s.groupOn (rGroup v)

/-- The channels that a thread under WAITE awaits (R205): sources of routes that target an input of its that is armed or
interrupt-enabled. -/
def State.awaits (s : State) (id : Nat) : List Nat :=
  let ks := (upTo 4).filter fun k => (s.thr id).armed.getLsbD k || s.ien id k
  (s.liveRoutes.filter fun v => (rTasks v).any fun n => ks.any fun k => n == 4 * id + k).map rSrc

/-- Some thread of engines that `p` selects is HALTED. -/
def State.anyHalted (s : State) (p : Nat → Bool) : Bool := s.threads.any fun x => x.2.st == .halted && p (x.1 / 16)

/-- A mail commit event counts as armed (Table 7.4). -/
def State.mailArmed (s : State) : Bool :=
  s.chans.any (fun c => c.2.run) || s.agent.fw.isSome || s.agent.kprReq.isSome || s.lrp.busy || s.anyHalted fun _ => true

/-- The channel belongs to a running swing loop (R225): INLOOP, and a route raise in the current or the previous loop
window. -/
def State.loopRuns (s : State) (c : Nat) : Bool :=
  let h := s.hinge
  let counted := h.count.any fun x => x.1 == c && decide (0 < x.2)
  h.inloop.contains c &&
    (if s.cycle < h.window + 200 then counted || h.prev.contains c
     else decide (s.cycle < h.window + 400) && counted)

/-- The pad, link and Keeper islands run (R62, Table 2.16). -/
def State.islesUp (s : State) : Bool := s.running && s.untilUp == 0

/-- The channel counts as armed by its own row of Table 7.4, without following routes. -/
def State.sourceArmed (s : State) (c : Nat) : Bool :=
  if c < 128 then bit (s.reg (aPadCfg c)) 23 && fld (s.reg (aPadCfg c)) 21 2 != 0
  else if c < 256 then
    let t := (c - 128) / 4
    let ctl := s.reg (0x50000000 + 0x100 * t)
    let mode := fld (s.reg (0x50000040 + 0x100 * t + 0x20 * (c % 4))) 0 2
    ((tabGet {} s.timers t).run || fld ctl 0 2 == 2)
      && ((mode == 1 && (tabGet {} (tabGet {} s.timers t).slots (c % 4)).armed) || mode == 2)
  else if c < 512 then s.anyHalted (· == (c - 256) / 16)
  else if c < 576 then s.chans.any fun x => x.1 == (c - 512) / 2 && x.2.run
  else if c < 640 then s.islesUp
  else if c < 656 then bit (s.reg (0x50022000 + 0x40 * (c % 8))) 31
  else if c < 704 then true
  else if 768 ≤ c ∧ c < 832 then s.mailArmed
  else s.loopRuns c

/-- The channel has an armed producer (R205): of its own, or a path of routes from one. -/
def State.armedProducer (s : State) (c : Nat) : Bool :=
  let edges := s.liveRoutes.flatMap fun v => (loopTargets v).map fun t => (t, rSrc v)
  (reach edges (edges.length + 1) [c]).any s.sourceArmed

/-- A wake is held for the thread (R63): a completed wait, or an event latched at one of its inputs while its island does
not run (R213). -/
def State.wakeHeld (s : State) (x : Nat × Thread) : Bool :=
  x.2.heldWake || (!s.islandOn (x.1 / 16) && s.hinge.inputs.any fun e => e.1 / 4 == x.1)

/-- A thread of the set is quiet (R204). -/
def State.threadQuiet (s : State) (x : Nat × Thread) : Bool :=
  let wait := match x.2.wait with
    | .event _ => !((s.awaits x.1).any s.armedProducer)
    | .lock a => match tabFind s.tum.locks a.toNat with
      | some (.held h) => s.threadSet.any fun y => y.1 == h
      | _ => false
    | _ => false
  x.2.st == .waiting && !s.wakeHeld x && s.wdt x.1 == 0 && wait

/-- The unit is quiet in a fabric cycle that the detector evaluates (R204, R206). -/
def State.quietNow (s : State) : Bool :=
  s.sys.mode.executes && bit (s.reg 0x50040000) 0 && !s.threadSet.isEmpty && s.threadSet.all s.threadQuiet

/-- The present fabric cycle is a quiet one (R204, R206): no thread has had a position in it. -/
def State.quietHere (s : State) : Bool := s.quietNow && !s.sameNow.ran

/-- `n` fabric cycles pass (R229): the cycle count, the timebase, and the count of consecutive quiet cycles (R206). -/
def State.passBy (s : State) (n : Nat) : State :=
  if n = 0 then s
  else
    let q := s.quietNow
    let ran := s.sameNow.ran
    let k := s.tum
    let tum := { k with
      quiet := q && !(ran && n == 1)
      qcyc := if !q then 0 else min 4096 (if ran then n - 1 else k.qcyc + n)
      signalled := k.signalled && q && !ran }
    { s with cycle := s.cycle + n, tb := if s.running then s.tbIn n else s.tb, tum := tum }

def aTbStat : Nat := 0x50002014

/-- TB_STAT.SYNC (R235): a change raises channel 580. -/
def State.setSync (s : State) (b : Bool) : State :=
  if bit (s.reg aTbStat) 31 = b then s else (s.setRegFld aTbStat 31 1 b.toNat).raise 580

/-- The pad island powers up after a wake from Doze (R231, Table 2.16): the timebase takes the fabric copy, fraction and
sub-fraction 0; SYNC 0, LF 1. -/
def State.padUp (s : State) : State :=
  ({ s with tb := BitVec.ofNat 88 (s.tb.toNat / 2 ^ 32 * 2 ^ 32) }.setSync false).setRegFld aTbStat 17 1 1

/-- `n` fabric cycles pass; the pad island's power-up after Doze may fall among them. -/
def State.passUp (s : State) (n : Nat) : State :=
  let u := s.untilUp
  if u = 0 ∨ n < u then s.passBy n else ((s.passBy u).padUp).passBy (n - u)

/-- The timers end the present fabric cycle: they take its STEP events (R242). -/
def State.endCycle (s : State) : State :=
  ((s.timers.filter fun x => x.2.steps != 0).map (·.1)).foldl State.takeSteps s

/-- The LFCAP report `x` lands in its fabric cycle, ahead of everything else that acts there on its timer (R242, R247). -/
def State.landLfcap (s : State) (x : Nat × Nat) : State :=
  let s := s.passUp (x.2 - s.cycle)
  { s with hinge := { s.hinge with lfdue := s.hinge.lfdue.erase x } }.lfcap x.1

/-- `n` fabric cycles pass, with the LFCAPs that land in them. -/
def State.pass (s : State) (n : Nat) : State :=
  if n = 0 then s
  else
    let c := s.cycle + n
    let s := (s.hinge.lfdue.filter fun x => decide (x.2 ≤ c)).foldl State.landLfcap s.endCycle
    s.passUp (c - s.cycle)

/-- A write or request of master `id` at `a` lands (R42): where a higher identity's of this cycle stands there, it lands in the
next cycle (log entry 83). -/
def State.landsAfter (s : State) (id a : Nat) : State := if s.outranked id a then s.pass 1 else s

/-- The state at fabric cycle `c`: time passes where it lies ahead (log entry 2). -/
def State.atCycle (s : State) (c : Nat) : State := s.pass (c - s.cycle)

/-- The state at the first fabric cycle whose timebase is at or after `t`. -/
def State.atChain (s : State) (t : Time64) : State := s.pass (s.cyclesTo t)

/-- The detector signals deadlock once the count reaches 4,096 (R206), once in a run of quiet cycles. -/
def State.deadlock (s : State) : State :=
  let s := if s.sameNow.ran then s.pass 1 else s
  if !s.quietNow || s.tum.signalled then s
  else
    let s := s.pass (4096 - s.tum.qcyc)
    let s := { s with tum := { s.tum with due := true, signalled := true } }
    (s.count 0x50040024 0 16).raise 659

end Sys2Proof.Machine
end

