-- ==== Sys2Proof/Machine/Pads.lean ====
section
/-! DEFINITION. Timed pads and converter ports (chapter 10): edge queues and placement, stamps, latches, trigger
requests, and the registers of the pad window. -/

namespace Sys2Proof.Machine

def aPadCommit (p : Nat) : Nat := 0x5002000C + 0x20 * p
def aPadEcnt : Nat := 0x50021100
def aPadScnt : Nat := 0x50021104
def aCal : Nat := 0x50021108
def aFpu (u : Nat) : Nat := 0x50021000 + 4 * u
def aCvt (p off : Nat) : Nat := 0x50022000 + 0x40 * p + off

/-- CAL_STAT.SETTLED (R273). -/
def State.settled (s : State) : Bool := bit (s.reg aCal) 31

/-- A fine placement unit is in effect for pad `p` (R267). -/
def State.fine (s : State) (p : Nat) : Bool :=
  s.settled && (upTo 64).any fun u => bit (s.reg (aFpu u)) 31 && fld (s.reg (aFpu u)) 0 7 == p

/-- `a` is later than `b` in chain time. -/
def later (a b : Time64) : Bool := decide (0 < (a - b).toInt)

/-- The later of a time and the previous placed instant plus 5 ns (R262). -/
def spaced (t : Time64) (prev : Option Time64) : Time64 :=
  match prev with
  | some q => if later (q + 256) t then q + 256 else t
  | none => t

/-- The level the pad will have once every placed edge has come. -/
def Pad.finalLvl (x : Pad) : BitVec 2 := x.placed.foldl (fun _ y => y.2) x.slvl

/-- The placement of R262 decided at `k` fabric cycles from now for the earliest time `a`: the placed chain time, the
fabric cycle from which it shows, and whether it is late. The grid rule holds where no fine unit is in effect (R273). -/
def State.placement (s : State) (k : Nat) (a : Time64) (fine : Bool) : Time64 × Nat × Bool :=
  let e2 := s.nowIn (k + 2)
  if !later a e2 then (e2, s.cycle + k + 2, true)
  else if fine then (a, s.cycle + k + 3, false)
  else (s.nowIn (k + 3), s.cycle + k + 3, false)

/-- The first pad clock edge, in fabric cycles from now, at which an entry for `a` is decided (R262). -/
def State.decideIn (s : State) (a : Time64) : Nat := s.cyclesTo a - 3

/-- An entry of pad `p` for time `t` and level `lvl` is decided and placed (R262, R266, R273). A commit to the level
that already stands places nothing but is decided all the same. -/
def State.place (s : State) (p : Nat) (t : Time64) (lvl : BitVec 2) (commit : Bool) : State :=
  let x := s.pad p
  let a := spaced t x.prev
  let k := s.decideIn a
  let (at_, cyc, late) := s.placement k a (s.fine p)
  let x := { x with decided := some (s.cycle + k) }
  let s := if a ≠ t then s.setFlag (aPadStat p) 4 else s
  let s := if late then (s.setFlag (aPadStat p) 3).count aPadEcnt 0 16 else s
  if commit && lvl == x.finalLvl then s.setPad p { x with prev := some at_ }
  else
    let s := if s.settled then s else s.setFlag (aPadStat p) 7
    let gone := x.placed.filter fun y => decide (y.1 ≤ s.cycle)
    s.setPad p { x with prev := some at_, slvl := gone.foldl (fun _ y => y.2) x.slvl
                        placed := x.placed.filter (fun y => decide (s.cycle < y.1)) ++ [(cyc, lvl)] }

/-- The head of a pad's edge queue is decided (R261, R262): at the first edge at which R262 places it, which lies after
its landing edge and after the latest decision of the pad. -/
def State.placeHead (s : State) (p : Nat) : State :=
  match (s.pad p).queue with
  | [] => s
  | e :: q =>
    let s := s.atCycle (max (e.land + 1) ((s.pad p).decided.elim 0 (· + 1)))
    let s := s.pass (s.decideIn (spaced e.t (s.pad p).prev))
    (s.updPad p ({ · with queue := q })).place p e.t e.lvl false

/-- The latest tick instant at or before the timebase, 0 where there is none (R259). -/
def State.tickRef (s : State) : Time64 := ((s.chain.ti :: s.chain.past).find? fun t => !later t s.now).getD 0

/-- A PSET lands (R259, R260). -/
def State.psetLand (s : State) (p : Nat) (lvl : BitVec 2) (off : Word) : State :=
  let x := s.pad p
  let cfg := s.reg (aPadCfg p)
  if bit cfg 19 then (s.setFlag (aPadStat p) 1).count aPadEcnt 16 16
  else if 8 ≤ x.queue.length then (s.setFlag (aPadStat p) 2).count aPadEcnt 16 16
  else
    let ref := if bit cfg 20 then x.last.getD s.tickRef else s.tickRef
    let t := ref + BitVec.ofNat 64 (4 * off.toNat)
    s.setPad p { x with queue := x.queue ++ [⟨lvl, t, s.cycle⟩], last := some t }

/-- A stamp that enters at an edge, after those of that edge and before those of later ones (R272). -/
def insertStamp (x : Nat × Time64) : List (Nat × Time64) → List (Nat × Time64)
  | [] => [x]
  | y :: r => if y.1 ≤ x.1 then y :: insertStamp x r else x :: y :: r

/-- A stamp is taken that enters the pad's FIFO at the pad clock edge `n` fabric cycles from now (R269, R272, R273). -/
def State.stampIn (s : State) (p n : Nat) (t : Time64) : State :=
  let s := if s.settled then s else s.setFlag (aPadStat p) 7
  s.updPad p fun x => { x with entering := insertStamp (s.cycle + n, t) x.entering }

/-- A stamp that has entered is stored (R269), or lost at a full FIFO: SOVR, with no clear of its own cycle to come. -/
def State.storeStamp (s : State) (p : Nat) (t : Time64) : State :=
  let x := s.pad p
  if x.fifo.length < 8 then s.setPad p { x with fifo := x.fifo ++ [t] }
  else (s.setReg (aPadStat p) (setBit (s.reg (aPadStat p)) 5 true)).setRegFld aPadScnt 16 16
    (min 0xFFFF (fld (s.reg aPadScnt) 16 16 + 1))

/-- The stamps that entered pad `p`'s FIFO before the present edge are in it (R270). -/
def State.settlePad (s : State) (p : Nat) : State :=
  let due := (s.pad p).entering.filter fun e => decide (e.1 < s.cycle)
  if due.isEmpty then s
  else due.foldl (fun s e => s.storeStamp p e.2)
    (s.updPad p fun x => { x with entering := x.entering.filter fun e => !decide (e.1 < s.cycle) })

/-- The stamps that entered a FIFO before the present edge are in it, for every pad. -/
def State.settlePads (s : State) : State := (s.pads.map (·.1)).foldl State.settlePad s

/-- A TIME64 value with fraction bits [1:0] cleared (R268). -/
def stampOf (t : Time64) : Time64 := t &&& 0xFFFFFFFFFFFFFFFC#64

/-- CAPPOL selects an edge to `level` (Table 10.4). -/
def State.selects (s : State) (p : Nat) (level : Bool) : Bool := bit (s.reg (aPadCfg p)) (if level then 21 else 22)

/-- The level at the input of pad `p` at the latest pad clock edge (Table 10.5). -/
def State.pinNow (s : State) (p : Nat) : Bool :=
  match (s.pad p).pinAt with
  | some (c, l) => if c = s.cycle then l else (s.pad p).pin
  | none => (s.pad p).pin

/-- An edge at a pin, `sub` 64ths of a period after the present pad clock edge (R268, R269, R273). -/
def State.edge (s : State) (p : Nat) (level : Bool) (sub : BitVec 6) : State :=
  if (s.pad p).pin = level then s else
    let at_ (x : Pad) : Option (Nat × Bool) :=
      if sub = 0 then none else if x.pinAt.any (·.1 == s.cycle) then x.pinAt else some (s.cycle, x.pin)
    let s := s.updPad p fun x => { x with pin := level, pinAt := at_ x }
    if !s.islesUp || !s.selects p level then s
    else if (s.pad p).stampCyc = some s.cycle then (s.setFlag (aPadStat p) 6).count aPadScnt 0 16
    else
      let t := if s.settled then stampOf (s.now + BitVec.ofNat 64 (4 * sub.toNat))
        else stampOf (if sub = 0 then s.now else s.nowIn 1)
      let s := (s.updPad p ({ · with stampCyc := some s.cycle })).stampIn p 2 t
      if bit (s.reg (aPadCfg p)) 23 then s.raiseIn (s.cycle + 4) p t else s

/-- The head stamp of a pad's FIFO is removed (R270). -/
def State.stampOut (s : State) (p : Nat) : State × Option Time64 :=
  let s := s.settlePad p
  match (s.pad p).fifo with
  | [] => (s, none)
  | t :: q => (s.updPad p ({ · with fifo := q }), some t)

/-! ### Tasks and latches (R272, R275, R276) -/

/-- STAMP: the timebase at the edge at which it acts, which enters at that edge (R272). -/
def State.padStamp (s : State) (p : Nat) : State := s.stampIn p 0 (stampOf s.now)

/-- The latches of pad `p` become `f` and `h`; PAD_STAT follows two pad clocks later (R275). -/
def State.setLatches (s : State) (p : Nat) (f h : Option (BitVec 2)) : State :=
  s.updPad p fun x =>
    let was := (s.cycle, x.force.isSome, x.hold.isSome)
    let late := x.latches.filter fun l => decide (s.cycle < l.1 + 2)
    { x with force := f, hold := h
             latches := if x.force.isSome == f.isSome && x.hold.isSome == h.isSome then late else late ++ [was] }

/-- Whether the force and the hold latch are set, as PAD_STAT shows them: as they were two pad clocks ago (R275). -/
def State.shownLatches (s : State) (p : Nat) : Bool × Bool :=
  let x := s.pad p
  ((x.latches.find? fun l => decide (s.cycle < l.1 + 2)).map (·.2)).getD (x.force.isSome, x.hold.isSome)

/-- SFORCE (R275): a set latch keeps its level. -/
def State.padForce (s : State) (p : Nat) : State :=
  let x := s.pad p
  (s.setLatches p (some (x.force.getD (s.shownOut p))) x.hold).updPad p ({ · with forceCyc := some s.cycle })

/-- HOLD (R275). -/
def State.padHold (s : State) (p : Nat) : State :=
  let x := s.pad p
  (s.setLatches p x.force (some (x.hold.getD (s.shownOut p)))).updPad p ({ · with holdCyc := some s.cycle })

/-- RELEASE (R275): it acts before the sets of its pad clock period, which leave their latches set, at the level that the
pad shows once released. -/
def State.padRelease (s : State) (p : Nat) : State :=
  let x := s.pad p
  let lvl := (s.setPad p { x with force := none, hold := none }).shownOut p
  let again (c : Option Nat) : Option (BitVec 2) := if c = some s.cycle then some lvl else none
  s.setLatches p (again x.forceCyc) (again x.holdCyc)

def State.padFlush (s : State) (p : Nat) : State := s.updPad p ({ · with queue := [], last := none })

/-! ### Converter triggers (R280 to R284) -/

/-- CVT_CFG.EN. -/
def State.cvtOn (s : State) (p : Nat) : Bool := bit (s.reg (aCvt p 0)) 31

/-- Port `p` is busy (R282): from the placed instant of its trigger until the pulse falls, under BUSYM = 1 until a sample or the
timeout. -/
def State.cvtBusy (s : State) (p : Nat) : Bool :=
  let x := s.cvt p
  x.busy && decide (x.rise ≤ s.cycle) && (bit (s.reg (aCvt p 0)) 28 || x.fall.any (s.cycle < ·))

/-- The level of trigger output `p` (R280): Z while PORST_N is low (R447), 0 while the pad island is off (R445). -/
def State.trigLvl (s : State) (p : Nat) : BitVec 2 :=
  let x := s.cvt p
  if s.sys.porLow then 2 else if decide (x.rise ≤ s.cycle) && x.fall.any (s.cycle < ·) then 1 else 0

/-- The level of OWN_OUT (R278): Z while PORST_N is low (R447). -/
def State.ownLvl (s : State) : BitVec 2 := if s.sys.porLow then 2 else if bit (s.reg aOwnStat) 0 then 1 else 0

/-- A trigger request arises at port `p` (R280 to R282): the state, and whether it met the busy outcome. -/
def State.cvtRequest (s : State) (p : Nat) (t : Time64) (trig sched : Bool) : State × Bool :=
  let x := s.cvt p
  let new : CvtReq := ⟨t, sched, !trig, s.cycle⟩
  let take := (s.setCvt p { x with req := some new }, false)
  let skip := if trig then (s, true) else (s.setFlag (aCvt p 4) 3, false)
  if !s.cvtOn p then (s, false)
  else match x.req with
  | none => if s.cvtBusy p then skip else take
  | some q =>
    if q.cyc = new.cyc && !(q.sched && sched) then
      (s.setCvt p { x with req := some (if later q.t t then new else q) }, false)
    else if q.sched && sched then take
    else skip

/-- The pending trigger request of port `p` is placed and the output rises at the placed instant (R280, R282, R283); a placement
before the previous pulse has fallen prolongs it. -/
def State.trigger (s : State) (p : Nat) : State :=
  match (s.cvt p).req with
  | none => s
  | some q =>
    let s := s.atCycle (q.cyc + 1)
    let x := s.cvt p
    let a := spaced q.t x.prev
    let s := s.pass (s.decideIn a)
    let (at_, cyc, late) := s.placement 0 a s.settled
    let s := if late && q.late then s.setFlag (aCvt p 4) 0 else s
    let cfg := s.reg (aCvt p 0)
    let s := s.setCvt p { x with busy := true, rise := if s.cvtBusy p || x.fall.any (s.cycle < ·) then x.rise else cyc
                                 req := none, last := at_, prev := some at_, fall := some (cyc + fld cfg 24 4) }
    s.raiseIn (cyc + 4) (640 + p) (periods (s.nowIn (cyc + 4 - s.cycle)))

/-- The pulse falls (R280, R282). -/
def State.triggerFall (s : State) (p : Nat) : State :=
  match (s.cvt p).fall with
  | none => s
  | some c =>
    let s := s.atCycle c
    s.updCvt p fun x => { x with fall := none, busy := x.busy && bit (s.reg (aCvt p 0)) 28 }

/-- The busy window of a port ends on its timeout, TMO µs after the placed instant (R282). -/
def State.cvtTimeout (s : State) (p : Nat) : State :=
  let cfg := s.reg (aCvt p 0)
  if !(s.cvt p).busy || !bit cfg 28 then s
  else ((s.atCycle ((s.cvt p).rise + 200 * fld cfg 0 16)).updCvt p ({ · with busy := false })).setFlag (aCvt p 4) 2

/-- A sample arrives at data return port `p` (R282, R284). -/
def State.sampleIn (s : State) (p : Nat) (v : Word) : State :=
  if !s.cvtOn p then s else
    let x := s.cvt p
    let x := if bit (s.reg (aCvt p 0)) 28 && s.cvtBusy p then { x with busy := false } else x
    if x.fifo.length < 4 then
      (s.setCvt p { x with fifo := x.fifo ++ [(v, x.last)] }).raiseLater 4 (648 + p)
    else (s.setCvt p x).setFlag (aCvt p 4) 1

/-! ### Registers (R285, R286) -/

/-- PAD_STAT as read: the gates act on output pads (R277, R279). -/
def State.padStat (s : State) (p : Nat) : Word :=
  let x := s.pad p
  let cfg := s.reg (aPadCfg p)
  let gated := bit cfg 12 && (s.sys.gate || (bit cfg 24 && x.shk.isSome))
  let l := s.shownLatches p
  s.reg (aPadStat p) ||| word (l.1.toNat * 2 ^ 31 + l.2.toNat * 2 ^ 30 + gated.toNat * 2 ^ 29
    + (s.slvl p).toNat * 2 ^ 26 + (s.fine p).toNat * 2 ^ 24 + x.queue.length * 2 ^ 20 + x.fifo.length * 2 ^ 16
    + x.popseq.toNat * 2 ^ 8)

/-- A read in the pad window (Table 10.3a). -/
def State.padRead (s : State) (id off : Nat) : State × Word :=
  let s := s.settlePads
  if off < 0x1000 then
    let p := off / 0x20
    match off % 0x20 with
    | 0x04 => (s, s.padStat p)
    | 0x10 =>
      let (s, t) := s.stampOut p
      (s.updPad p fun x => { x with popseq := x.popseq + 1, sth := word (t.elim 0 fun t => t.toNat / 2 ^ 32) },
        t.elim 0 fun t => setFld (word t.toNat) 0 2 1)
    | 0x14 => (s, (s.pad p).sth)
    | _ => (s, s.reg (0x50020000 + off))
  else if 0x1120 ≤ off && off < 0x1130 then
    (s, word ((upTo 32).foldl (fun n i => n + (s.pinNow (8 * (off - 0x1120) + i)).toNat * 2 ^ i) 0))
  else if 0x2000 ≤ off && off < 0x2200 then
    let p := (off - 0x2000) / 0x40
    let x := s.cvt p
    match (off - 0x2000) % 0x40 with
    | 0x04 => (s, s.reg (aCvt p 4) |||
        word ((s.cvtBusy p).toNat * 2 ^ 31 + x.req.isSome.toNat * 2 ^ 30 + x.fifo.length * 2 ^ 8))
    | 0x0C => (s, x.sched)
    | 0x14 => ({ s with lasth := tabSet s.lasth (8 * id + p) (word (x.last.toNat / 2 ^ 32)) }, word x.last.toNat)
    | 0x18 => (s, tabGet 0 s.lasth (8 * id + p))
    | 0x1C =>
      match x.fifo with
      | [] => (s, 0)
      | (v, t) :: q => (s.setCvt p { x with fifo := q, rst := t }, v)
    | 0x20 => (s, word x.rst.toNat)
    | 0x24 => (s, word (x.rst.toNat / 2 ^ 32))
    | _ => (s, s.reg (0x50020000 + off))
  else (s, s.reg (0x50020000 + off))

/-- The action of a write in the pad window beside the common field rules; `old` is the register's word before. -/
def State.padWrite (s : State) (off : Nat) (old v : Word) : State :=
  if off < 0x1000 then
    let p := off / 0x20
    match off % 0x20 with
    | 0x00 =>
      let s := if bit v 19 then s.updPad p ({ · with queue := [] }) else s
      if bit old 20 = bit v 20 then s else s.updPad p ({ · with last := none })
    | 0x08 =>
      let s := if bit v 2 then s.padRelease p else s
      let s := if bit v 1 then s.padHold p else s
      let s := if bit v 0 then s.padForce p else s
      let s := if bit v 3 then s.padFlush p else s
      if bit v 4 then s.padStamp p else s
    | _ => s
  else if 0x2000 ≤ off && off < 0x2200 then
    let p := (off - 0x2000) / 0x40
    match (off - 0x2000) % 0x40 with
    | 0x00 =>
      let s := if bit v 31 then s else s.updCvt p ({ · with req := none, busy := false })
      if bit v 28 then s else s.updCvt p fun x => { x with busy := x.busy && x.fall.isSome }
    | 0x0C =>
      let s := s.updCvt p ({ · with sched := v })
      if fld (s.reg (aCvt p 0)) 29 2 = 1 then
        let t : Time64 := stampOf (s.reg (aCvt p 0x10) ++ v)
        (s.cvtRequest p t false true).1
      else s
    | _ => s
  else s

end Sys2Proof.Machine
end

