-- ==== Sys2Proof/Machine/Timers.lean ====
section
/-! DEFINITION. Chain time and timers (chapter 9): corrections of the timebase, the cycle of a timer, LF running, and the registers
of the timer window. -/

namespace Sys2Proof.Machine

/-- One fabric cycle of timer `t` (R242): the present one, or the next where the present one is already taken (log
entry 10). -/
def State.timerCycle (s : State) (t : Nat) : State :=
  if s.sys.mode == .recall || s.dozing || s.sys.mode == .dormant then s else
    let s := s.atCycle (max s.cycle ((s.tmr t).stepped + 1))
    let s := s.updTmr t fun x => { x.begin s.cycle with stepped := s.cycle }
    s.cycleSteps t

/-- A read pair closes (R246). -/
def Slot.closePair (x : Slot) : Slot :=
  match x.pend with
  | some c => { x with front := c, cseq := x.cseq + 1, capnew := true, pend := none, pair := none }
  | none => { x with capnew := false, pair := none }

/-- LF running ends (R252): phase 0, chain-locked counts take the fabric copy. -/
def State.lfEnd (s : State) : State :=
  (upTo 32).foldl (fun s t =>
    match s.tmrSrc t with
    | 0 => if (tabFind s.timers t).isSome then s.updTmr t ({ · with phase := 0 }) else s
    | 2 => (s.updTmr t (·.begin s.cycle)).jump t
    | _ => s) s

/-- LFCAPs that wait for an LFCLK edge in Doze act (R247): one capture for each timer, of the count before the edge. -/
def State.lfCaps (s : State) : State :=
  let s := s.hinge.lfcaps.eraseDups.foldl (fun s t => (s.captureOf t (s.lfSlot t) (s.tmr t).cnt).1) s
  { s with hinge := { s.hinge with lfcaps := [] } }

/-- In Doze the fabric copy gains TB_LFINC periods (R231). -/
def State.lfCopy (s : State) : State :=
  if s.dozing then { s with tb := s.tb + BitVec.ofNat 88 ((s.reg 0x5000202C).toNat * 2 ^ 32) } else s

/-- TMR_LFINC steps of each timer in LF running (R251). A chain-locked count, on which MODE and TOP have no effect (Table
9.2), steps upward modulo 2^48. Under debug freeze the edge falls in a fabric cycle, where a written count takes no step
(R242). Through Recall the timers stay stopped (R255). -/
def State.lfSteps (s : State) : State :=
  (upTo 32).foldl (fun s t =>
    if !s.lfRunning t || s.sys.mode == .recall then s
    else
      let s := if s.dozing then s else s.updTmr t (·.begin s.cycle)
      let n := (s.reg (aTmr t 12)).toNat
      if s.tmrSrc t = 2 then s.jumpTo t ((s.tmr t).cnt + BitVec.ofNat 48 n)
      else if (s.tmr t).run && (s.dozing || (s.tmr t).written != s.cycle) then s.steps t n else s) s

/-! ### Corrections (R232 to R235) -/

/-- A correction lands; it acts in the fourth fabric cycle after this one (R232). -/
def State.correct (s : State) (rate : Option Word) (step : Option (BitVec 64)) : State :=
  { s with corrections := s.corrections ++ [⟨s.cycle + 4, rate, step⟩] }

/-- The permitted rate nearest to `v` (R232), and whether it differs. -/
def clampRate (v : Word) : Word × Nat :=
  if v.toInt < -524288 then (BitVec.ofInt 32 (-524288), 1) else if 524288 < v.toInt then (524288, 1) else (v, 0)

/-- One correction takes effect (R232, R233). -/
def State.applyCorrection (s : State) (c : Correction) : State :=
  let s := c.rate.elim s fun r => s.setReg aTbRate r
  c.step.elim s fun d =>
    let s := { s with tb := s.tb + BitVec.ofNat 88 (d.toNat * 2 ^ 24) }
    ((s.setFlag aTbStat 16).count aTbStat 0 16).setRegFld aTbStat 17 1 0

/-- Raises whose raise cycle is still to come carry the fabric copy as it runs from now on (R234, Table 8.3). -/
def State.restamp (s : State) : State :=
  let own (c : Nat) : Bool := decide (c < 128) || (decide (592 ≤ c) && decide (c < 640))
  let f (r : Raise) : Raise :=
    if own r.ch || decide (r.cyc < s.cycle) then r else { r with ts := periods (s.nowIn (r.cyc - s.cycle)) }
  { s with hinge := { s.hinge with raised := s.hinge.raised.map f } }

/-! ### Registers (R248, R249, R253, R254) -/

/-- SLOTs_CFG as read. -/
def State.slotCfg (s : State) (t i : Nat) : Word :=
  let x := (s.tmr t).slot i
  orBit (orBit (orBit (s.reg (aSlot t i)) 11 x.capnew) 10 x.pend.isSome) 5 x.armed

def hi16 (v : BitVec 48) : Nat := v.toNat / 2 ^ 32
def lo32 (v : BitVec 48) : Word := word v.toNat
def join48 (hi : BitVec 16) (lo : Word) : BitVec 48 := hi ++ lo

/-- TMR_STAT as read. -/
def State.tmrStat (s : State) (t : Nat) : Word :=
  let x := s.tmr t
  word (x.wrap.toNat * 8 + x.down.toNat * 4 + (s.lfRunning t).toNat * 2
    + (x.run || (s.tmrSrc t == 2 && s.running)).toNat)

/-- A read in the timer window (Table 9.4). -/
def State.tmrRead (s : State) (id off : Nat) : State × Word :=
  if off < 0x2000 then
    let t := off / 0x100
    let o := off % 0x100
    let x := s.tmr t
    match o with
    | 0x04 => (s, s.tmrStat t)
    | 0x10 =>
      let c := s.tmrCount t
      (s.setTmr t { x with latch := BitVec.ofNat 16 (hi16 c), seq := x.seq + 1 }, lo32 c)
    | 0x14 => (s, x.seq ++ x.latch)
    | 0x18 => (s, lo32 x.top)
    | 0x1C => (s, word x.stageTop.toNat)
    | _ =>
      if o < 0x40 ∨ 0xC0 ≤ o then (s, s.reg (0x50000000 + off)) else
        let i := (o - 0x40) / 0x20
        let y := x.slot i
        match (o - 0x40) % 0x20 with
        | 0x00 => (s, s.slotCfg t i)
        | 0x04 => (s, lo32 y.cmp)
        | 0x0C => (s, lo32 y.land)
        | 0x10 => (s, word (hi16 y.land))
        | 0x14 => (if y.pair.isNone then s.updSlot t i ({ · with pair := some s.cycle }) else s, lo32 y.front)
        | 0x18 =>
          (if y.pair.any (fun c => decide (c < s.cycle)) then s.updSlot t i Slot.closePair else s,
            word (y.cseq.toNat * 2 ^ 16 + hi16 y.front))
        | _ => (s, s.reg (0x50000000 + off))
  else match off with
    | 0x2008 => (s, word ((upTo 32).foldl (fun n t => n + (bit (s.tmrStat t) 0).toNat * 2 ^ t) 0))
    | 0x2018 =>
      let n := periods s.now
      ({ s with nowh := tabSet s.nowh id (word (n.toNat / 2 ^ 32)) }, word n.toNat)
    | 0x201C => (s, tabGet 0 s.nowh id)
    | _ => (s, s.reg (0x50000000 + off))

/-- A commit of a compare value (R244). -/
def State.compCommit (s : State) (t i : Nat) (v : Word) : State :=
  let x := s.tmr t
  let val := join48 (BitVec.ofNat 16 (fld (s.reg (aSlot t i + 8)) 0 16)) v
  let s := s.updSlot t i fun y => { y with cmp := val, land := x.cnt, armed := false }
  if s.smode t i ≠ 1 then s
  else match x.dist (s.tmrSrc t) (s.tmrMode t) val with
  | some 0 => ((s.setFlag (aSlot t i) 7).updSlot t i fun y => { y with armed := s.repeats t i }).slotEvent t i
  | some d =>
    if d ≤ 2 ^ 47 then s.updSlot t i ({ · with armed := true }) else s.setFlag (aSlot t i) 8
  | none => s.setFlag (aSlot t i) 8

/-- What a write of TMR_CTL does beside the fields (R238, R239): `old` is the register before it. -/
def State.tmrCtlWritten (s : State) (t : Nat) (old : Word) : State :=
  let s := s.updTmr t (·.begin s.cycle)
  let x := s.tmr t
  let mode := s.tmrMode t
  let s := if fld old 4 2 = mode then s else s.setTmr t { x with down := startDown mode }
  if fld old 0 2 ≠ 2 ∧ s.tmrSrc t = 2 then s.jump t
  else if fld old 0 2 = 2 ∧ s.tmrSrc t ≠ 2 then
    s.updTmr t ({ · with run := false, phase := 0, down := startDown mode })
  else s

/-- The action of a write in the timer window beside the common field rules; `old` is the register's word before. -/
def State.tmrWrite (s : State) (off : Nat) (old v : Word) : State :=
  if off < 0x2000 then
    let t := off / 0x100
    let o := off % 0x100
    match o with
    | 0x00 => (s.tmrCtlWritten t old).tmrReloaded t
    | 0x04 => if bit v 3 && !s.setNow (aTmr t 4) 3 then s.updTmr t ({ · with wrap := false }) else s
    | 0x10 =>
      if s.tmrSrc t = 2 then s else
        (s.updTmr t fun x =>
          { x.begin s.cycle with cnt := join48 x.stageHi v, phase := 0, written := s.cycle }).tmrReloaded t
    | 0x14 => s.updTmr t ({ · with stageHi := BitVec.ofNat 16 v.toNat })
    | 0x18 => (s.updTmr t fun x => { x with top := join48 x.stageTop v }).tmrReloaded t
    | 0x1C => s.updTmr t ({ · with stageTop := BitVec.ofNat 16 v.toNat })
    | _ =>
      if o < 0x40 ∨ 0xC0 ≤ o then s else
        let i := (o - 0x40) / 0x20
        match (o - 0x40) % 0x20 with
        | 0x00 => if fld old 0 2 = 1 ∧ fld v 0 2 ≠ 1 then s.updSlot t i ({ · with armed := false }) else s
        | 0x04 => s.compCommit t i v
        | _ => s
  else match off with
    | 0x2000 => (bitsOf v).foldl (fun s t => s.tmrStart t) s
    | 0x2004 => (bitsOf v).foldl (fun s t => s.tmrStop t) s
    | 0x2010 => if !bit old 0 && bit v 0 then s.setSync false else s
    | 0x2020 =>
      if !bit (s.reg aTbCtl) 0 then s else
        let (r, n) := clampRate v
        (s.clamp n).correct (some r) none
    | 0x2028 => if bit (s.reg aTbCtl) 0 then s.setReg 0x50002028 v else s
    | 0x2024 =>
      if !bit (s.reg aTbCtl) 0 then s else s.correct none (some (s.reg 0x50002028 ++ v))
    | _ => s

end Sys2Proof.Machine
end

