-- ==== Sys2Proof/Machine/Hinge.lean ====
section
/-! DEFINITION. The Hinge fabric (chapter 8): routes, dispatch, task inputs, groups, latch commits, swing loops, and the
registers of its window. -/

namespace Sys2Proof.Machine

/-! ### Routes (R216) -/

/-- A task number of Table 8.4 that is not reserved. -/
def taskOk (n : Nat) : Bool :=
  decide (n < 0x748) || (decide (0x780 ≤ n) && decide (n < 0x8C1)) || (decide (0x8E0 ≤ n) && decide (n < 0x900))
    || decide (n = 0x1FFF)

/-- A task number that Table 8.4 permits for latch routes. -/
def latchOk (n : Nat) : Bool :=
  (decide (0x500 ≤ n) && decide (n < 0x700) && decide (n % 4 < 2)) || decide (n = 0x8C0)
    || (decide (0x8E0 ≤ n) && decide (n < 0x900)) || decide (n = 0x1FFF)

/-- Target `i` replaced by "none". -/
def rNone (r i : Nat) : Nat := r + (0x1FFF - rTgt r i) * 2 ^ (24 + 13 * i)

/-- A route with the targets that fail `ok` clamped, and how many did. -/
def clampTargets (ok : Nat → Bool) (r : Nat) : Nat × Nat :=
  (upTo 8).foldl (fun (acc : Nat × Nat) i => if ok (rTgt acc.1 i) then acc else (rNone acc.1 i, acc.2 + 1)) (r, 0)

/-- The clamps of R216, and how many there were. -/
def clampRoute (r : Nat) : Nat × Nat :=
  let (r, n) := clampTargets taskOk r
  let (r, n) := if rLatch r && decide (127 < rSrc r) then (r - 2 ^ 11, n + 1) else (r, n)
  if rLatch r then
    let (r, m) := clampTargets latchOk r
    (r, n + m)
  else (r, n)

/-- A checked read of a route (R173): both code words. -/
def State.readRoute (s : State) (r src id : Nat) : State × Option Nat :=
  let (s, a) := s.readCode (routeKey r) src id
  let (s, b) := s.readCode (routeKey r + 8) src id
  (s, match a, b with
    | some a, some b => some (a + b * 2 ^ 64)
    | _, _ => none)

/-- A route as it stands (R217). -/
def State.routeNow (s : State) (r : Nat) : RouteWas :=
  ⟨BitVec.ofNat 128 (s.rawRoute r), tabGet 0 s.ecc.bad (routeKey r), tabGet 0 s.ecc.bad (routeKey r + 8)⟩

/-- The marks of a code word put in place. -/
def putBad (t : Tab (BitVec 72)) (key : Nat) (b : BitVec 72) : Tab (BitVec 72) :=
  if b = 0 then tabErase t key else tabSet t key b

/-- A route put in place with its marks. -/
def State.putRoute (s : State) (r : Nat) (w : RouteWas) : State :=
  { s with mem := writeBytes s.mem (routeKey r) (leBytes 16 w.bits.toNat)
           ecc := { s.ecc with bad := putBad (putBad s.ecc.bad (routeKey r) w.lo) (routeKey r + 8) w.hi } }

/-- Route `r` changes in this cycle: dispatches of the cycle use what it held (R217). -/
def State.noteRoute (s : State) (r : Nat) : State :=
  let x := s.sameNow
  if (tabFind x.routes r).isSome then s else s.note ({ · with routes := tabSet x.routes r (s.routeNow r) })

/-- `f` on the routes as they stood at the start of the cycle (R217). -/
def State.withOldRoutes (s : State) (f : State → State) : State :=
  let was := s.sameNow.routes
  let now := was.map fun x => (x.1, s.routeNow x.1)
  let put (s : State) (x : Nat × RouteWas) : State := s.putRoute x.1 x.2
  now.foldl put (f (was.foldl put s))

/-- A write of a route by master `id` (R42, R181, R217), which takes effect at the end of its cycle: during a latch commit the
content before it is kept (R222). -/
def State.writeRoute (s : State) (id r v : Nat) : State :=
  let s := ((s.landsAfter id (routeKey r)).noteWrites id [routeKey r]).noteRoute r
  let s := if s.hinge.commit then
      let old := (tabFind s.hinge.oldRoutes r).getD (BitVec.ofNat 128 (s.rawRoute r))
      ({ s with hinge := { s.hinge with oldRoutes := tabSet s.hinge.oldRoutes r old } }).setFlag (aHf 4) 1
    else s
  (s.writeCode (routeKey r) (v % 2 ^ 64)).writeCode (routeKey r + 8) (v / 2 ^ 64)

/-! ### Dispatch (R218) -/

/-- Raises in the order of dispatch: raise cycle, then channel. -/
def insertRaise (r : Raise) : List Raise → List Raise
  | [] => [r]
  | q :: qs => if r.cyc < q.cyc ∨ (r.cyc = q.cyc ∧ r.ch < q.ch) then r :: q :: qs else q :: insertRaise r qs

/-- Group `g` was enabled at the start of the cycle (R218, R220). -/
def State.groupWas (s : State) (g : Nat) : Bool :=
  let a := aHf (0x20 + 4 * (g / 32))
  bit ((tabFind s.sameNow.groups a).getD (s.reg a)) (g % 32)

/-- One route of a raised channel is read and checked; where it passes, its fire is committed. A task that it names twice
fires once: two events of one cycle come from two routes or channels (R215). -/
def State.dispatchOne (s : State) (x : Spill) : State :=
  let (s, v) := s.readRoute x.route 3 0
  match v with
  | some v =>
    if rEn v && !rLatch v && rSrc v == x.raise.ch && s.groupWas (rGroup v) then
      { s with hinge := { s.hinge with
          fires := s.hinge.fires ++ [⟨s.cycle + 1 + rDelay v, x.raise.ch, x.raise.ts, (rTasks v).eraseDups⟩] } }
    else s
  | none => s

/-- The dispatcher's work in the present cycle: at most 32 routes, spilled ones first. -/
def State.dispatchNow (s : State) : State :=
  let now := (s.hinge.raised.filter fun r => decide (r.cyc < s.cycle)).foldr insertRaise []
  let todo := s.hinge.spills ++ now.flatMap fun r => (s.routesOf r.ch).map fun n => ⟨n, r⟩
  let rest := todo.drop 32
  let s := { s with hinge := { s.hinge with
    raised := s.hinge.raised.filter (fun r => decide (s.cycle ≤ r.cyc)), spills := rest, disp := s.cycle } }
  let s := if rest.isEmpty then s else s.count aHfCnt 16 16
  (todo.take 32).foldl State.dispatchOne s

/-- One cycle of the dispatcher, on the routes and groups as they stood at its start (R217, R218). -/
def State.dispatch (s : State) : State :=
  if !s.running || (s.hinge.spills.isEmpty && s.hinge.raised.isEmpty) then s else
    let first := ((s.hinge.raised.map fun r => r.cyc + 1).min?).getD 0
    let c := if s.hinge.spills.isEmpty then first else s.hinge.disp + 1
    (s.atCycle (max c (s.hinge.disp + 1))).withOldRoutes State.dispatchNow

/-! ### Groups and virtual channels (R220, R224) -/

/-- The loop window that holds the present cycle (R224). -/
def State.rollWindow (s : State) : State :=
  let h := s.hinge
  if s.cycle < h.window + 200 then s
  else
    let w := s.cycle / 200 * 200
    { s with hinge := { h with window := w, count := []
                               prev := if w = h.window + 200 then h.count.map (·.1) else [] } }

/-- A raise of channel `c` by a RAISE or group task, under the loop limit (R224): merged route raises count once; the one
that exceeds the limit is discarded and counted. -/
def State.routeRaise (s : State) (c : Nat) : State :=
  let s := s.rollWindow
  let go (s : State) : State := s.raiseIn s.cycle c (periods s.now) true
  if bit (s.reg (aHfCh c)) 31 || s.hinge.raised.any (fun r => r.cyc == s.cycle && r.ch == c && r.route) then go s
  else
    let n := tabGet 0 s.hinge.count c
    if n < fld (s.reg (aHfCh c)) 0 5 then go { s with hinge := { s.hinge with count := tabSet s.hinge.count c (n + 1) } }
    else ((s.setFlag (aHfCh c) 31).count aHfCnt 0 16).raise 667

/-- The word of HF_GRPEN at `a`, which held `w`, changes in this cycle: dispatches of the cycle use `w` (R218, R220). -/
def State.noteGroups (s : State) (a : Nat) (w : Word) : State :=
  let x := s.sameNow
  if (tabFind x.groups a).isSome then s else s.note ({ · with groups := tabSet x.groups a w })

/-- A task sets group `g` to `b`; a change raises channel 704 + g as a route raise (R220, R224). -/
def State.setGroup (s : State) (g : Nat) (b : Bool) : State :=
  let s := s.note ({ · with tasked := true })
  if s.groupOn g = b then s else
    let a := aHf (0x20 + 4 * (g / 32))
    let s := s.noteGroups a (s.reg a)
    (s.setReg a (setBit (s.reg a) (g % 32) b)).routeRaise (704 + g)

/-- HF_GRPENj, which held `old`, has been written with `v` (R220): each change raises its channel. A write comes before the tasks
of its cycle; one that a task has gone ahead of lands in the next cycle (`State.regWrite`). -/
def State.grpWritten (s : State) (j : Nat) (old v : Word) : State :=
  (bitsOf (old ^^^ v)).foldl (fun s i => s.raise (704 + 32 * j + i)) (s.noteGroups (aHf (0x20 + 4 * j)) old)

/-! ### Task inputs (R213 to R215) -/

/-- The events that arrive at thread input `n` in one fire cycle (Table 8.5). -/
def State.fireInput (s : State) (n : Nat) (evs : List (Nat × Time64)) : State :=
  let k := n / 64
  if s.twin k && k % 2 == 1 then s
  else match tabFind s.hinge.inputs n with
  | some _ =>
    let x := s.sameNow
    let m : Missed := ⟨n, tabGet false s.hinge.drops n, evs, fld (s.reg aHfTcnt) 16 16, tabGet 0 x.counts (32 * aHfTcnt + 16)⟩
    ({ s with hinge := { s.hinge with drops := tabSet s.hinge.drops n true }
              same := { x with missed := x.missed ++ [m] } }).count aHfTcnt 16 16 evs.length
  | none =>
    if fld (s.reg aEngPwr) (2 * k) 2 = 0 then s.wakeLost
    else
      let ev := evs.foldl (fun (a : Nat × Time64) b => if b.1 < a.1 then b else a) (evs.headD (0, 0))
      let co := decide (2 ≤ evs.length)
      let e : Ev := ⟨BitVec.ofNat 10 ev.1, ev.2, co, tabGet false s.hinge.drops n⟩
      let s := { s with hinge := { s.hinge with
        inputs := tabSet s.hinge.inputs n e, drops := tabErase s.hinge.drops n } }
      let s := if co then (s.count aHfTcnt 0 16).count aHfTcnt 16 16 (evs.length - 1) else s
      s.wakeIsland k

/-- Flag OVR or COINC of a task (R215). -/
def State.taskFlag (s : State) (n : Nat) (ovr : Bool) : State :=
  let i := n - 0x400
  (s.setFlag (aHf ((if ovr then 0x500 else 0x400) + 4 * (i / 32))) (i % 32)).count aHfTcnt (if ovr then 16 else 0) 16

/-- COINC of a task that `c` events reach in one cycle (Table 8.6). -/
def State.coincide (s : State) (n c : Nat) : State := if 2 ≤ c then s.taskFlag n false else s

/-- OVR of a task that has met its busy outcome (Table 8.6). -/
def overrun (n : Nat) (r : State × Bool) : State := if r.2 then r.1.taskFlag n true else r.1

/-- Pad clocks of the fabric to pad crossing (Table 1.2). -/
def padCrossing : Nat := 2

/-- A pad or converter task leaves for the pad island (R219). -/
def State.crossTask (s : State) (n c : Nat) : State :=
  { s with hinge := { s.hinge with padDue := s.hinge.padDue ++ [(s.cycle + padCrossing, n, c)] } }

/-- A pad or converter task acts in the pad island, `c` events of it in one fire cycle (R272, R275, R280, Table 8.6). -/
def State.landTask (s : State) (n c : Nat) : State :=
  if !s.islesUp then s
  else if n < 0x700 then
    let p := (n - 0x500) / 4
    match n % 4 with
    | 0 => s.padForce p
    | 1 => s.padHold p
    | 2 => s.padRelease p
    | _ => s.padStamp p
  else
    let p := n - 0x740
    if s.cvtOn p then (overrun n (s.cvtRequest p s.now true false)).coincide n c else s

/-- `c` events reach a task other than a thread input in one fire cycle (Table 8.6). `sh` starts (true) or stops a
Shuttle channel and says whether it met the busy outcome. -/
def State.fireTask (s : State) (sh : Nat → Bool → State → State × Bool) (n c : Nat) : State :=
  let flagC (s : State) := s.coincide n c
  let flagO (r : State × Bool) := overrun n r
  if n < 0x500 then
    let t := (n - 0x400) / 8
    match n % 8 with
    | 4 => flagC (if s.tmrSrc t == 2 || (s.tmr t).run then s.taskFlag n true else s.tmrStart t)
    | 5 => flagC (s.tmrStop t)
    | 6 => flagC (s.tmrReload t)
    | 7 => s.tmrStepEvents t c
    | i => flagC (flagO (s.capture t i))
  else if n < 0x700 then flagC (s.crossTask n c)
  else if n < 0x740 then flagC (flagO (sh (n % 32) (n < 0x720) s))
  else if n < 0x748 then s.crossTask n c
  else if n < 0x7C0 then flagC (s.setGroup (n - 0x780) true)
  else if n < 0x800 then flagC (s.setGroup (n - 0x7C0) false)
  else if n < 0x8C0 then flagC (s.routeRaise (832 + (n - 0x800)))
  else flagC s

/-- The order in which the tasks of one fire cycle act: ascending, a RELEASE before the sets of its pad (R275). -/
def taskOrder (ns : List Nat) : List Nat :=
  let keep := (upTo 0x2000).filter ns.contains
  let isRel (n : Nat) := decide (0x500 ≤ n) && decide (n < 0x700) && n % 4 == 2
  keep.filter isRel ++ keep.filter fun n => !isRel n

/-- The routes `due` fire in the present cycle (R214, R215): an ENABLE with a DISABLE of its group leaves the state to that
(R220). -/
def State.fireAll (s : State) (sh : Nat → Bool → State → State × Bool) (due : List Fire) : State :=
  let ns := due.flatMap (·.tasks)
  let evs (n : Nat) : List (Nat × Time64) := (due.filter (·.tasks.contains n)).map fun f => (f.ch, f.ts)
  (taskOrder ns).foldl (fun s n =>
    if n < 0x400 then s.fireInput n (evs n)
    else if 0x780 ≤ n ∧ n < 0x7C0 ∧ ns.contains (n + 0x40) then s.coincide n (evs n).length
    else s.fireTask sh n (evs n).length) s

/-- Every task of the earliest fire cycle fires (R214, R215, R218), or every pad and converter task of the earliest landing
acts (R219), whichever comes first. -/
def State.fire (s : State) (sh : Nat → Bool → State → State × Bool) : State :=
  match (s.hinge.fires.map (·.cyc) ++ s.hinge.padDue.map (·.1)).min? with
  | none => s
  | some c =>
    if !s.running then s else
    let s := s.atCycle c
    let due := s.hinge.fires.filter fun f => f.cyc == c
    let lands := s.hinge.padDue.filter fun x => x.1 == c
    let s := { s with hinge := { s.hinge with
      fires := s.hinge.fires.filter (fun f => f.cyc != c), padDue := s.hinge.padDue.filter fun x => x.1 != c } }
    (lands.foldl (fun s x => s.landTask x.2.1 x.2.2) s).fireAll sh due

/-! ### Delivery and consumption (R213, R138) -/

/-- The lowest armed input of a waiting thread that holds an event completes its WAITE (R138, R145). -/
def State.tryWaite (s : State) (id : Nat) : State :=
  let t := s.thr id
  match t.wait with
  | .event rd =>
    if !t.inWait then s else
    match t.eventIn fun k => t.armed.getLsbD k && !s.ien id k with
    | some (k, e) => ((s.consume id k e).updThr id (·.wr rd (report k e))).completeWait id
    | none => s
  | _ => s

/-- The event latched at input `k` of thread `id` reaches the engine (R213). -/
def State.deliverEvent (s : State) (id k : Nat) : State :=
  match tabFind s.hinge.inputs (4 * id + k) with
  | none => s
  | some e =>
    if !s.islandOn (id / 16) || (s.eng (id / 16)).twinStop || (tabFind (s.thr id).ev k).isSome
      || s.hinge.notes.any (fun n => n.id == id && n.k == k) then s
    else (s.updThr id fun t => { t with ev := tabSet t.ev k e }).tryWaite id

/-- Events that met entry `m.input` in this cycle before the note that empties it at the cycle's start: they meet it empty
(R213). What they counted as dropped is taken back. -/
def State.refire (s : State) (m : Missed) : State :=
  let x := s.sameNow
  let i := 32 * aHfTcnt + 16
  let n := m.evs.length
  let now := tabGet 0 x.counts i
  let s := s.setRegFld aHfTcnt 16 16 (min 0xFFFF (m.ovr + now - m.cnt - n))
  let s := { s with
    hinge := { s.hinge with drops := if m.drop then tabSet s.hinge.drops m.input true else tabErase s.hinge.drops m.input }
    same := { x with counts := tabSet x.counts i (now - n), missed := x.missed.erase m } }
  s.fireInput m.input m.evs

/-- HF_TCNT is cleared: what it counts from is 0 for the events of the cycle (R38). -/
def State.unmissed (s : State) : State := s.note fun x => { x with missed := x.missed.map fun m => { m with ovr := m.cnt } }

/-- The oldest consume note of thread `id` lands (R213, R227). -/
def State.landNote (s : State) (id : Nat) : State :=
  match s.hinge.notes.find? fun n => n.id == id with
  | none => s
  | some n =>
    let h := s.hinge
    let i := 4 * id + n.k
    let s := { s with hinge := { h with notes := h.notes.erase n, inputs := tabErase h.inputs i, rts := tabSet h.rts id n.ts } }
    (s.sameNow.missed.filter (·.input == i)).foldl State.refire s

/-- Every consume note of thread `id` lands, ahead of its later far requests (R27, R213). -/
def State.landNotes (s : State) (id : Nat) : State :=
  (s.hinge.notes.filter (·.id == id)).foldl (fun s _ => s.landNote id) s

/-! ### Latch commits (R222, R223, R225) -/

/-- The pads that a latch route forces or holds. -/
def latchPads (r : Nat) : List Nat :=
  ((rTasks r).filter fun n => decide (0x500 ≤ n) && decide (n < 0x700)).map fun n => (n - 0x500) / 4

/-- Step 2 of R222: the collected routes with those refused by R223 dropped, in descending order, and the refused. -/
def refuseLoops : List (Nat × Nat) → List (Nat × Nat) → List Nat → List (Nat × Nat) × List Nat
  | [], kept, out => (kept, out)
  | (r, v) :: todo, kept, out =>
    let edges := kept.flatMap fun x => (latchPads x.2).map fun p => (rSrc x.2, p)
    if (reach edges (edges.length + 1) (latchPads v)).contains (rSrc v) then
      refuseLoops todo (kept.filter fun x => x.1 != r) (out ++ [r])
    else refuseLoops todo kept out

/-- Step 1 of R222: the routes as read, without the uncorrectable ones; a route written during the commit counts with
either content. -/
def State.collect (s : State) : State × List (Nat × Nat) :=
  s.listedRoutes.foldl (fun (acc : State × List (Nat × Nat)) r =>
    let (s, v) := acc.1.readRoute r 3 0
    let (s, v) := match tabFind s.hinge.oldRoutes r with
      | some o =>
        let (s, b) := s.drawBit
        (s, if b then some o.toNat else v)
      | none => (s, v)
    (s, acc.2 ++ (v.map fun v => (r, v)).toList)) (s, [])

/-- Route `r` disabled in the table. -/
def State.disableRoute (s : State) (r : Nat) : State :=
  let v := s.rawRoute r
  if rEn v then (s.writeCode (routeKey r) ((v - 2 ^ 10) % 2 ^ 64)) else s

/-- The channels on a cycle of swing routes among the routes `vs` (R225). -/
def loopChannels (vs : List Nat) : List Nat :=
  let vs := vs.filter fun v => rEn v && !rLatch v
  let edges := vs.flatMap fun v => (loopTargets v).map fun c => (rSrc v, c)
  ((edges.map (·.1)).eraseDups.filter fun c => decide (704 ≤ c)).filter fun c =>
    (reach edges (edges.length + 1) ((edges.filter fun e => e.1 == c).map (·.2))).contains c

/-- A commit ends (R222): the new slots replace the old ones. -/
def State.commitDone (s : State) : State :=
  let (s, read) := s.collect
  let all := read.filter fun x => rLatch x.2 && rEn x.2
  let (kept, refused) := refuseLoops all.reverse all []
  let live := kept.take 32
  let excess := (kept.drop 32).map (·.1)
  let s := { s with hinge := { s.hinge with commit := false, oldRoutes := [] } }
  let s := (refused ++ excess).foldl State.disableRoute s
  let a := aHf 0x38
  let last := ((refused ++ excess).getLast?).getD (fld (s.reg a) 0 12)
  let s := s.setReg a (word (min 255 refused.length * 2 ^ 24 + min 255 excess.length * 2 ^ 16 + last))
  { s with hinge := { s.hinge with
      slots := (upTo live.length).map fun i => (i, BitVec.ofNat 128 (live.getD i (0, 0)).2)
      lslots := live.length
      inloop := loopChannels (read.map (·.2)) } }

/-- A write of HF_CTL.COMMIT (R222). -/
def State.commitStart (s : State) : State :=
  if s.hinge.commit then s.setFlag (aHf 4) 1
  else { s with hinge := { s.hinge with commit := true, commitAt := s.cycle, oldRoutes := [] } }

/-! ### Registers (R217, R226, R227) -/

/-- HF_RACC.WR and RD (R217). -/
def State.hfRacc (s : State) (v : Word) (id : Nat) : State :=
  let r := fld (s.reg (aHf 8)) 0 12
  let s := if bit v 0 then
      let w := (upTo 4).foldl (fun n i => n + (s.reg (aHf (0x10 + 4 * i))).toNat * 2 ^ (32 * i)) 0
      let (w, n) := clampRoute w
      (s.clamp n).writeRoute id r w
    else s
  if bit v 1 then
    let (s, w) := s.readRoute r 0 id
    (upTo 4).foldl (fun s i => s.setReg (aHf (0x10 + 4 * i)) (word (w.getD 0 / 2 ^ (32 * i)))) s
  else s

/-- HF_CHc.NROUTE: in Recall it reads its Reset value, also over routes that a unit reset has left (R171, R228; DEDUCED, log
entry 122). -/
def State.nroute (s : State) (c : Nat) : Nat := if s.sys.mode == .recall then 0 else (s.routesOf c).length

/-- A read in the Hinge window (Table 8.9). -/
def State.hfRead (s : State) (id off : Nat) : State × Word :=
  (s, if 0x1000 ≤ off ∧ off < 0x2000 then
      let c := (off - 0x1000) / 4
      s.reg (aHf off) ||| word ((s.hinge.inloop.contains c).toNat * 2 ^ 29 + s.nroute c * 2 ^ 8)
    else match off with
    | 0x04 => s.reg (aHf 4) ||| word (s.hinge.lslots * 2 ^ 16 + s.hinge.commit.toNat)
    | 0x28 => word (tabGet 0 s.hinge.rts id).toNat
    | 0x2C => word ((tabGet 0 s.hinge.rts id).toNat / 2 ^ 32)
    | _ => s.reg (aHf off))

/-- The action of a write in the Hinge window beside the common field rules; `old` is the register's word before. -/
def State.hfWrite (s : State) (id off : Nat) (old v : Word) : State :=
  if 0x40 ≤ off ∧ off < 0x58 then
    (bitsOf v).foldl (fun s i => s.raise (832 + 8 * (off - 0x40) + i)) s
  else match off with
    | 0x00 =>
      let s := if bit v 1 then
          (((s.unmissed.clearCount aHfCnt 0 16).clearCount aHfCnt 16 16).clearCount aHfTcnt 0 16).clearCount aHfTcnt 16 16
        else s
      if bit v 0 then s.commitStart else s
    | 0x0C => s.hfRacc v id
    | 0x20 => s.grpWritten 0 old v
    | 0x24 => s.grpWritten 1 old v
    | _ => s

end Sys2Proof.Machine
end

