-- ==== Sys2Proof/Machine/LocalMem.lean ====
section
/-! DEFINITION. Local loads and stores (R114 to R120, R176 to R178). -/

namespace Sys2Proof.Machine

/-- `n` bytes at local address `a` of engine `j` as a load sees them (R178): lanes of the merge entry over memory.
Nothing where a byte that comes from memory lies in an uncorrectable word. -/
def State.loadLocal (s : State) (j a n id : Nat) : State × Option Nat :=
  let cw := a - a % 4
  let lanes : Tab Byte := match (s.eng j).localMerge with
    | some m => if m.addr = cw then m.lanes else []
    | none => []
  let (s, v) := s.readCode (engKey j cw) 0 id
  let need := (upTo n).map (a % 4 + ·)
  if v.isNone && need.any fun i => (tabFind lanes i).isNone then (s, none)
  else
    let byte (i : Nat) : Nat := match tabFind lanes i with
      | some b => b.toNat
      | none => v.getD 0 / 256 ^ i % 256
    (s, some (need.foldr (fun i acc => byte i + 256 * acc) 0))

/-- A local read of thread `id` of engine `k` as its engine, and in a Twin pair the odd one too, sees it (R98). -/
def State.loadPair (s : State) (k a n id : Nat) : State × Option Nat × Option Nat :=
  let (s, v) := s.loadLocal k a n id
  if s.twin k then
    let (s, w) := s.loadLocal (k + 1) a n id
    (s, v, w)
  else (s, v, v)

/-- A loaded value of `n` bytes, sign-extended where asked (Table 4.7). -/
def extend (n : Nat) (signed : Bool) (v : Nat) : Word :=
  match n with
  | 1 => if signed then (BitVec.ofNat 8 v).signExtend 32 else word v
  | 2 => if signed then (BitVec.ofNat 16 v).signExtend 32 else word v
  | _ => word v

/-- The common form of the local loads (R114 to R117, R173): a Twin pair loads from both SRAMs (R98, R100, R101). -/
def load (n : Nat) (signed : Bool) (b : Beat) (rd ra : Reg) (imm : BitVec 18) (s : State) : State :=
  beat b { reads := [.reg ra] } (fun id s =>
    let k := id / 16
    let ea := ea18 (s.thr id) ra imm
    let a := ea.toNat
    if a % n ≠ 0 then .trap .align ea
    else if 0x14000 ≤ a then .trap .farerr ea
    else
      match s.loadPair k a n id with
      | (s1, some v, some w) =>
        let t := s1.updThr id (·.wr rd (extend n signed v))
        if v = w then .next t else .hold ((t.advance id).twinStops k (id % 16) b.pos.toNat 2)
      | (s1, none, none) => .fail s1 .eccd (word (a - a % 4))
      | (s1, _, _) => .hold (s1.oneSided id b.pos.toNat .eccd false (s.thr id).pc (word (a - a % 4)))) s

/-- LDW (R114). -/
def execLdw (b : Beat) (rd ra : Reg) (imm : BitVec 18) (s : State) : Out := .next (load 4 false b rd ra imm s)

/-- LDH (R114). -/
def execLdh (b : Beat) (rd ra : Reg) (imm : BitVec 18) (s : State) : Out := .next (load 2 true b rd ra imm s)

/-- LDHU (R114). -/
def execLdhu (b : Beat) (rd ra : Reg) (imm : BitVec 18) (s : State) : Out := .next (load 2 false b rd ra imm s)

/-- LDB (R114). -/
def execLdb (b : Beat) (rd ra : Reg) (imm : BitVec 18) (s : State) : Out := .next (load 1 true b rd ra imm s)

/-- LDBU (R114). -/
def execLdbu (b : Beat) (rd ra : Reg) (imm : BitVec 18) (s : State) : Out := .next (load 1 false b rd ra imm s)

/-- ENG_THCFG.CODEW of a thread (R120). -/
def State.codeW (s : State) (id : Nat) : Bool := bit (s.reg (aThcfg (id / 16) (id % 16))) 15

/-- A word store to data SRAM (R176, R177): a merge entry of the same word is replaced, one of another word flushed. -/
def State.storeData (s : State) (k a : Nat) (v : Word) : State :=
  (s.both k).foldl (fun s j =>
    let s := if (s.eng j).localMerge.any (fun m => m.addr == a) then s.updEng j ({ · with localMerge := none })
      else s.flushLocal j
    s.writeCode (engKey j a) v.toNat) s

/-- A code store (R120): the word, and the fetch-ahead words that hold its address. -/
def State.storeCode (s : State) (k a : Nat) (v : Word) : State :=
  (s.both k).foldl (fun s j => (s.writeCode (engKey j a) v.toNat).snoop j a v) s

/-- A narrow store of thread `id` into the local merge entry of engine `j` (R176, R177). -/
def State.storeNarrow (s : State) (j id a n v : Nat) : State :=
  let cw := a - a % 4
  let s := if (s.eng j).localMerge.any (fun m => m.addr != cw) then s.flushLocal j else s
  let m := (s.eng j).localMerge.getD ⟨cw, [], [], s.cycle⟩
  let lanes := (lanesOf (a % 4) n v).foldl (fun l x => tabSet l x.1 x.2) m.lanes
  let m : LocalMerge := ⟨cw, lanes, id % 16 :: m.owners.filter (· != id % 16), s.cycle⟩
  let s := s.updEng j ({ · with localMerge := some m })
  if lanes.length = 4 then s.flushLocal j else s

/-- STW (R114 to R120, R176). -/
def execStw (b : Beat) (rd ra : Reg) (imm : BitVec 18) (s : State) : Out :=
  .next (beat b { reads := [.reg ra, .reg rd] } (fun id s =>
    let t := s.thr id
    let ea := ea18 t ra imm
    let a := ea.toNat
    if a % 4 ≠ 0 then .trap .align ea
    else if 0x14000 ≤ a then .trap .farerr ea
    else if a < 0x10000 then
      if s.codeW id then .next (s.storeCode (id / 16) a (t.rd rd)) else .trap .priv ea
    else .next (s.storeData (id / 16) a (t.rd rd))) s)

/-- The common form of STH and STB (R114 to R120, R176). -/
def storeSmall (n : Nat) (b : Beat) (rd ra : Reg) (imm : BitVec 18) (s : State) : State :=
  beat b { reads := [.reg ra, .reg rd] } (fun id s =>
    let t := s.thr id
    let ea := ea18 t ra imm
    let a := ea.toNat
    if a % n ≠ 0 ∨ a < 0x10000 then .trap .align ea
    else if 0x14000 ≤ a then .trap .farerr ea
    else .next ((s.both (id / 16)).foldl (fun s j => s.storeNarrow j id a n (t.rd rd).toNat) s)) s

/-- STH (R176). -/
def execSth (b : Beat) (rd ra : Reg) (imm : BitVec 18) (s : State) : Out := .next (storeSmall 2 b rd ra imm s)

/-- STB (R176). -/
def execStb (b : Beat) (rd ra : Reg) (imm : BitVec 18) (s : State) : Out := .next (storeSmall 1 b rd ra imm s)

/-- LOCAL_MERGE_TIMEOUT (R177): no store joined for 16 engine clocks, which are 8 fabric cycles. -/
def execLocalMergeTimeout (eng : Fin 16) (s : State) : Out :=
  .next (match (s.eng eng.val).localMerge with
    | none => s
    | some m => if s.islandOn eng.val then (s.atCycle (m.last + 8)).flushLocal eng.val else s)

/-- FAR_MERGE_TIMEOUT (R180). -/
def execFarMergeTimeout (eng : Fin 16) (s : State) : Out :=
  .next (match (s.eng eng.val).farMerge with
    | none => s
    | some m => if s.islandOn eng.val then (s.atCycle (m.last + 8)).flushFar eng.val else s)

end Sys2Proof.Machine
end

