-- ==== Sys2Proof/Machine/Branch.lean ====
section
/-! DEFINITION. Control transfers (R121 to R123), TRAP, RFI and NOP (R141, R142, R155), and which instruction words are
legal (R104 to R141). -/

namespace Sys2Proof.Machine

/-- The pc-relative target of B.cond, B and BL (R121). -/
def relTarget (pc : Word) (off : BitVec 22) : Word := pc + 4 * off.signExtend 32

/-- The first beat of a taken transfer fills the successor word, which the second beat kills (R119). -/
def State.fillSuccessor (s : State) (id : Nat) : State :=
  let a := (s.thr id).pc + 4
  if a.toNat < 0x10000 then s.fill id a else s

/-- A transfer to `target`, after `f` on the thread; one outside the code space traps (R116, R123). INFO is the
target (DESIGN CHOICE, log entry 88). -/
def transfer (id : Nat) (target : Word) (f : Thread → Thread) (s : State) : Act :=
  if target.toNat % 4 ≠ 0 then .trap .align target
  else if 0x10000 ≤ target.toNat then .trap .farerr target
  else .jump ((s.fillSuccessor id).updThr id f) target

/-- The thread with lk at the return address (R121). -/
def link (t : Thread) : Thread := t.wr 15 (t.pc + 4)

/-- B.cond (R121, R122). -/
def execBCond (b : Beat) (cond : BitVec 4) (off : BitVec 22) (s : State) : Out :=
  .next (beat b { reads := if 14 ≤ cond.toNat then [.flagT] else [] } (fun id s =>
    let t := s.thr id
    if condHolds cond t.status then transfer id (relTarget t.pc off) (·) s else .next s) s)

/-- B (R121). -/
def execB (b : Beat) (off : BitVec 22) (s : State) : Out :=
  .next (beat b {} (fun id s => transfer id (relTarget (s.thr id).pc off) (·) s) s)

/-- BL (R121). -/
def execBl (b : Beat) (off : BitVec 22) (s : State) : Out :=
  .next (beat b {} (fun id s => transfer id (relTarget (s.thr id).pc off) link s) s)

/-- JR (R121). -/
def execJr (b : Beat) (ra : Reg) (s : State) : Out :=
  .next (beat b { reads := [.reg ra] } (fun id s => transfer id ((s.thr id).rd ra) (·) s) s)

/-- JR.L (R121): the target is ra before lk is written. -/
def execJrL (b : Beat) (ra : Reg) (s : State) : Out :=
  .next (beat b { reads := [.reg ra] } (fun id s => transfer id ((s.thr id).rd ra) link s) s)

/-- RET (R121). -/
def execRet (b : Beat) (s : State) : Out :=
  .next (beat b { reads := [.reg 15] } (fun id s => transfer id ((s.thr id).rd 15) (·) s) s)

/-- TRAP n (R141, R142): the saved pc addresses the following instruction. -/
def execTrap (b : Beat) (n : BitVec 4) (s : State) : Out :=
  .next (beat b {} (fun id s =>
    if (s.thr id).pc = 0xFFFC then .trap .farerr 0x10000 else .trapAfter (.trapN n)) s)

/-- The writable bits of the status register (Table 4.1). -/
def statusBits : Word := 0xF8FF0000

/-- A frame word still waits for its reply (R155). -/
def Thread.frameAwaits (t : Thread) (sp : Word) : Bool :=
  t.outst.any fun q => q.dests.any fun x =>
    match x.1 with
    | .frame b _ => b == sp
    | .frameT b => b == sp
    | _ => false

/-- What RFI reads of its frame: the words, the address of the first uncorrectable one, that of the first one that a single
engine of a Twin pair finds uncorrectable, and what of the outputs of R100 differs between the engines. -/
structure FrameRead where
  words : List Word := []
  bad : Option Nat := none
  one : Option Nat := none
  diff : Nat := 0

/-- The bit of SYS_TWINERR.DIFF for frame word `i` (Tables 3.18, 5.2). -/
def frameDiff (i : Nat) : Nat := if i = 0 then 1 else if i = 1 then 4 else 2

/-- The words of the frame at `sp` (Table 5.2), each engine of a Twin pair from its own SRAM (R98). -/
def State.readFrame (s : State) (k id : Nat) (sp : Nat) : State × FrameRead :=
  (upTo 7).foldl (fun (acc : State × FrameRead) i =>
    let r := acc.2
    let a := sp + 4 * i
    match acc.1.loadPair k a 4 id with
    | (s, some v, some w) =>
      (s, { r with words := r.words ++ [word v], diff := if v = w then r.diff else r.diff ||| frameDiff i })
    | (s, none, none) => (s, { r with words := r.words ++ [0], bad := some (r.bad.getD a) })
    | (s, v, _) => (s, { r with words := r.words ++ [word (v.getD 0)], one := some (r.one.getD a) })) (s, {})

/-- The thread with what RFI restores from its frame at `sp` (R128, R155). -/
def Thread.restore (t : Thread) (sp : Word) (ws : List Word) : Thread :=
  let t := (((((t.wr 0 (ws.getD 2 0)).wr 1 (ws.getD 3 0)).wr 2 (ws.getD 4 0)).wr 3 (ws.getD 5 0)).wr 15
    (ws.getD 6 0)).cancel .flagT
  { t.wr 14 (sp + 32) with status := ws.getD 1 0 &&& statusBits, bpSkip := some (ws.getD 0 0) }

/-- RFI (R155). An uncorrectable frame word goes ahead of a loaded pc that is not word-aligned or lies outside the code space
(DESIGN CHOICE, log entry 114). -/
def execRfi (b : Beat) (s : State) : Out :=
  .next (beat b { reads := [.reg 14], transfer := true } (fun id s =>
    let t := s.thr id
    let sp := t.rd 14
    if t.frameAwaits sp then .stall s (.farRfi sp)
    else if sp.toNat % 4 ≠ 0 then .trap .align sp
    else if sp.toNat < 0x10000 ∨ 0x14000 < sp.toNat + 32 then .trap .farerr sp
    else
      let (s1, r) := s.readFrame (id / 16) id sp.toNat
      let pc := r.words.getD 0 0
      let ends := s1.updThr id (·.restore sp r.words)
      match r.one, r.bad with
      | some a, _ => .hold (s1.oneSided id b.pos.toNat .eccd false t.pc (word a))
      | none, some a => .fail s1 .eccd (word a)
      | none, none =>
        if r.diff ≠ 0 then .hold ((ends.goTo id (pcOf pc)).twinStops (id / 16) (id % 16) b.pos.toNat r.diff)
        else if pc.toNat % 4 ≠ 0 then .fail s1 .align pc
        else if 0x10000 ≤ pc.toNat then .fail s1 .farerr pc
        else .jump ends pc) s)

/-! ### Legal words (R104 to R106) -/

/-- Fields of an instruction word are zero. -/
def zeroAt (w : Word) (lo n : Nat) : Bool := fld w lo n == 0

/-- Words of major opcode 0x01 and 0x02 (Tables 4.4, 4.5): the unused fields are zero. -/
def legalR (w : Word) : Bool :=
  let fn := fld w 0 4
  zeroAt w 4 10 && (if fld w 26 6 = 1 then
    fn ≤ 10 && (fn != 9 || zeroAt w 22 4) && (fn != 10 || zeroAt w 14 4) else fn ≤ 5)

/-- A word that R106 does not trap with ILLOP. -/
def legalWord (w : Word) : Bool :=
  let rd0 := zeroAt w 22 4
  let ra0 := zeroAt w 18 4
  let rb0 := zeroAt w 14 4
  match fld w 26 6 with
  | 0x01 | 0x02 => legalR w
  | 0x03 | 0x04 | 0x05 | 0x06 | 0x07 => rb0
  | 0x08 => rb0 && zeroAt w 7 7
  | 0x09 => rd0 && rb0
  | 0x0A => ra0
  | 0x0B => ra0 && zeroAt w 16 2
  | 0x10 | 0x11 | 0x12 | 0x13 | 0x14 | 0x15 | 0x16 | 0x17 => true
  | 0x18 => fld w 16 2 != 3 && (fld w 16 2 != 0 || zeroAt w 15 1) && zeroAt w 14 1
  | 0x19 => fld w 16 2 != 3 && zeroAt w 14 2
  | 0x1A | 0x1B | 0x1C => rb0
  | 0x1D => true
  | 0x20 => true
  | 0x21 | 0x22 => rd0
  | 0x23 => rd0 && rb0 && zeroAt w 0 13
  | 0x28 | 0x29 => rb0 && zeroAt w 8 6
  | 0x2A | 0x2C => rd0 && rb0 && zeroAt w 0 14
  | 0x2B | 0x2D => zeroAt w 0 26
  | 0x2E => rd0 && ra0 && rb0 && zeroAt w 3 11
  | 0x30 | 0x32 => rd0 && ra0 && rb0 && zeroAt w 4 10
  | 0x31 => ra0 && rb0 && zeroAt w 0 14
  | 0x34 => rb0
  | 0x35 | 0x36 => rd0 && rb0
  | 0x37 | 0x38 => ra0 && rb0 && zeroAt w 7 7
  | 0x3A => rd0 && zeroAt w 9 4 && fld w 7 2 != 3 && (if bit w 13 then zeroAt w 0 7 else ra0)
  | 0x3B => rb0 && zeroAt w 7 6 && zeroAt w 22 1 && (if bit w 13 then zeroAt w 0 7 else ra0)
  | 0x3C => rd0 && ra0 && rb0 && zeroAt w 4 10
  | 0x3D | 0x3E | 0x3F => zeroAt w 0 26
  | _ => false

/-- NOP (R141): nothing for one beat. The command carries the word: one that R106 calls illegal traps with ILLOP; one of
another instruction is that instruction's own command and does nothing here (log entry 12). -/
def execNop (b : Beat) (w : Word) (s : State) : Out :=
  .next (beat b {} (fun _ s =>
    if !legalWord w then .trap .illop w
    else if w = 0xFC000000 then .next s else .hold s) s)

end Sys2Proof.Machine
end

