-- ==== Sys2Proof/Machine/Shackle.lean ====
section
/-! DEFINITION. The Shackle unit (chapter 14): pairs, snapshots and heartbeats, the decision of ownership, OWN_OUT and the
Shackle gate (R278, R279), applying a mirror, and the registers of Table 14.4. -/

namespace Sys2Proof.Machine

def aShk (off : Nat) : Nat := 0x500F7000 + off
def aCh (off : Nat) : Nat := 0x50050000 + off

/-- The own address (CH_ADDR). -/
def State.addr (s : State) : Nat := fld (s.reg (aCh 8)) 0 8

/-- SHK_CFG.PADDR. -/
def State.paddr (s : State) : Nat := fld (s.reg (aShk 4)) 0 8

/-- The unit is paired (R385). -/
def State.paired (s : State) : Bool := bit (s.reg (aShk 0)) 0 && s.paddr != 0

/-- Offset in image memory and length in bytes of a window register (Table 14.5). -/
def State.shkWin (s : State) (off : Nat) : Nat × Nat :=
  let r := s.reg (aShk off)
  (8 * fld r 3 16, 8 * fld r 19 11)

/-- SCN_EVT raises virtual channel `v` (R306). -/
def State.raiseVc (s : State) (v : Nat) : State := if v < 192 then s.raise (832 + v) else s

/-- SCN_EVT.IV. -/
def State.raiseIv (s : State) : State := s.raiseVc (fld (s.reg 0x500F5018) 0 8)

/-- The status block of Table 14.1 of the present tick. -/
def State.statusBlock (s : State) (mirlen : Nat) : List Byte :=
  let b (n : Nat) : Byte := BitVec.ofNat 8 n
  [b s.sys.mode.code,
   b (s.shk.owner.toNat + 2 * s.shk.prev.isSome.toNat + 4 * s.chain.prevGood.toNat
     + 8 * (bit (s.reg (aShk 0)) 1).toNat),
   b (fld (s.reg (aShk 0x14)) 23 2), 0] ++ leBytes 2 mirlen ++ [0, 0] ++ leBytes 4 s.shk.prevCrc.toNat
    ++ leBytes 4 s.shk.take.toNat

/-- CH_SHTX and CH_SHRX. -/
def aShTx : Nat := 0x5005C000
def aShRx : Nat := 0x50058000

/-- One window is copied into CH_SHTX from `dst` on (R389): an uncorrectable doubleword as 0, with MECC. -/
def State.mirrorWin (s : State) (off len dst : Nat) : State :=
  (upTo (len / 8)).foldl (fun s i =>
    match s.readCode (0x40000000 + off + 8 * i) 3 0 with
    | (s, some v) => { s with mem := writeBytes s.mem (aShTx + dst + 8 * i) (leBytes 8 v) }
    | (s, none) =>
      { s with mem := writeBytes s.mem (aShTx + dst + 8 * i) (leBytes 8 0) }.setFlag (aShk 0x14) 25) s

/-- The status block of the present tick is written with a mirror of `n` bytes: the snapshot is complete (R389). -/
def State.writeStatus (s : State) (n : Nat) : State :=
  { s with mem := writeBytes s.mem aShTx (s.statusBlock n), shk := { s.shk with snap := true } }

/-- The snapshot at the end of the local input pass (R389). -/
def State.snapshot (s : State) : State :=
  if !s.paired then s else
    let (io, il) := s.shkWin 0xC
    let (so, sl) := s.shkWin 0x10
    let mirror := s.sys.mode == .run
    let s := if mirror then (s.mirrorWin io il 16).mirrorWin so sl (16 + il) else s
    let s := if mirror then s.pass ((il + sl) / 8) else s
    s.writeStatus (if mirror then il + sl else 0)

/-! ### OWN_OUT and the Shackle gate (R278, R279) -/

/-- OWN_OUT takes a new level at its instant. -/
def State.ownOut (s : State) : State :=
  match s.shk.outAt with
  | none => s
  | some (b, t) =>
    let s := s.atChain t
    let s := { s with shk := { s.shk with outAt := none } }
    if bit (s.reg aOwnStat) 0 = b then s
    else if b then
      let s := (s.setRegFld aOwnStat 0 2 1)
      { s with pads := tabMap (fun _ (p : Pad) => { p with shk := none }) s.pads, shk := { s.shk with holdEnd := none } }
    else
      let s := s.shkGateOn.setRegFld aOwnStat 0 2 2
      { s with shk := { s.shk with holdEnd := some (s.cycle + 200 * fld (s.reg 0x50021110) 0 16) } }

/-- HOLDT has elapsed (R279): the gate shows the safe state, and is no longer in effect once HOLDING is 0. -/
def State.holdExpiry (s : State) : State :=
  match s.shk.holdEnd with
  | none => s
  | some c =>
    let s := (s.atCycle c).setRegFld aOwnStat 1 1 0
    let s := { s with shk := { s.shk with holdEnd := none } }
    { s with pads := tabMap (fun _ (p : Pad) => { p with shk := none }) s.pads }

/-! ### Heartbeats and decisions (R390, R393) -/

/-- Ownership passes to `b` for the output commit of the present tick (R393). -/
def State.ownership (s : State) (b : Bool) (mode : Option (Option Mode)) : State :=
  let s := { s with shk := { s.shk with owner := b, take := if b then s.chain.tn else 0xFFFFFFFF
                                        outDue := some b, modeDue := mode } }
  let s := (s.setRegFld (aShk 0x14) 31 1 b.toNat).count (aShk 0x1C) 8 8
  if b then s else s.clearFlag (aShk 0) 1

/-- A unit that owns enters Tracking, where it never owns (R387): OWN_OUT falls at the next output commit (R278; DEDUCED, log entry
124). -/
def State.disown (s : State) : State := if s.shk.owner then s.ownership false s.shk.modeDue else s

/-- The heartbeat of the tick that has just ended was received, or a paired unit has missed it (R390). -/
def State.heartbeatEnd (s : State) : State :=
  let p := s.shk.peer
  let b := s.shk.began
  let s := { s with shk := { s.shk with peer := none, prev := p, ranges := [], snap := false, applied := false
                                        late := false, localDone := false, prevCrc := s.shk.crc, crc := 0
                                        prevOk := b == some Mode.run || (b == some Mode.tracking && s.shk.applied) } }
  let s := s.setRegFld (aShk 0x14) 30 1 p.isSome.toNat
  if p.isSome || !s.paired then s
  else ((s.count (aShk 0x14) 23 2).count (aShk 0x1C) 16 16).raise 665

/-- The decision at a tick instant (R393). `tkok`: a good TICK frame of the previous tick arrived. -/
def State.ownDecision (s : State) (tkok : Bool) : State :=
  if !s.paired || s.sys.mode == .recall || s.sys.mode == .unaddressed then s
  else
    let k := s.shk
    let pmiss := fld (s.reg (aShk 0x14)) 23 2
    if !k.owner then
      if s.sys.mode == .tracking && tkok
          && (decide (2 ≤ pmiss) || k.prev.any (fun p => (p.mode == 5 || p.swreq) && p.own)) then
        s.ownership true (some (some .run))
      else s
    else if k.prev.any (fun p => p.own
        && (decide (k.take.toNat < p.take.toNat) || (p.take == k.take && decide (s.paddr < s.addr)))) then
      (s.setFlag (aShk 0x14) 28).ownership false (some (if s.sys.mode == .run then some .tracking else none))
    else if decide (2 ≤ pmiss) && !tkok then
      (s.setFlag (aShk 0x14) 27).ownership false (some none)
    else s

/-- What a decision changes at the output commit `c` (R393, R387): the mode, where the unit still is in the one that it leaves (R51),
OWN_OUT's instant, channel 664. -/
def State.ownCommit (s : State) (c : Time64) : State :=
  let k := s.shk
  let s : State := match k.modeDue with
    | some (some m) =>
      if (s.sys.mode == Mode.run && m == Mode.tracking) || (s.sys.mode == Mode.tracking && m == Mode.run) then s.setMode m else s
    | some none => s.enterSafe 5
    | none => s
  let s := match k.outDue with
    | some b => { s with shk := { s.shk with outAt := some (b, c) } }.raise 664
    | none => s
  { s with shk := { s.shk with modeDue := none, outDue := none } }

/-! ### The mirror (R390, R391, R399) -/

/-- Every byte of the mirror has been copied in the present tick. -/
def covered (ranges : List (Nat × Nat)) (a b : Nat) : Bool :=
  (upTo (b - a)).all fun i => ranges.any fun r => decide (r.1 ≤ a + i) && decide (a + i < r.1 + r.2)

/-- D of the present tick (R391). -/
def State.deadline (s : State) : Time64 := s.chain.ti + BitVec.ofNat 64 (256 * fld (s.reg (aShk 8)) 0 21)

/-- The bytes of CH_SHRX from 16 on reach a window. -/
def State.applyWin (s : State) (off len src : Nat) : State :=
  (upTo (len / 8)).foldl (fun s i =>
    s.writeCode (0x40000000 + off + 8 * i) (leNat (readBytes s.mem (aShRx + src + 8 * i) 8))) s

/-- A complete mirror is applied (R391). -/
def State.mirrorApply (s : State) : State :=
  let (io, il) := s.shkWin 0xC
  let (so, sl) := s.shkWin 0x10
  match s.shk.peer with
  | none => s
  | some p =>
    if s.sys.mode != .tracking || p.mode != 3 || p.tn != s.chain.tn || p.mirlen != il + sl || s.shk.applied || s.shk.late
        || !s.shk.localDone || !covered s.shk.ranges 16 (16 + p.mirlen) || later s.now s.deadline then s
    else
      let s := ((s.applyWin io il 16).applyWin so sl (16 + il)).pass ((il + sl) / 8)
      { s with shk := { s.shk with applied := true } }.raiseIv

/-- The apply deadline passes without a mirror (R391). -/
def State.applyDeadline (s : State) : State :=
  if s.sys.mode != .tracking || s.shk.applied || s.shk.late || s.chain.sched.isNone then s
  else
    let s := (s.atChain s.deadline).setFlag (aShk 0x14) 29
    { s with shk := { s.shk with late := true } }.raiseIv

/-! ### Registers (R385, R386, R400) -/

/-- A write of SHK_CFG, SHK_ADL, SHK_INWIN or SHK_SDWIN has no effect outside Preparation (R386). -/
def shkHeld (off : Nat) : Bool := off == 4 || off == 8 || off == 0xC || off == 0x10

/-- The clamps of Table 14.5 on a written value, and how many there were. -/
def State.shkClamp (s : State) (off : Nat) (v : Word) : Word × Nat :=
  let win (v : Word) (other : Nat) : Word × Nat :=
    let len := fld v 19 11
    let room := min ((0x60000 - 8 * fld v 3 16) / 8) (2046 - other)
    let room := if 0x60000 ≤ 8 * fld v 3 16 then 0 else room
    if room < len then (setFld v 19 11 room, 1) else (v, 0)
  match off with
  | 0x04 =>
    let p := fld v 0 8
    if p = 0 ∨ p = s.addr + 1 ∨ p + 1 = s.addr then (v, 0) else (setFld v 0 8 0, 1)
  | 0x08 =>
    if fld v 0 21 = 0 then (setFld v 0 21 1, 1) else if 1999999 < fld v 0 21 then (setFld v 0 21 1999999, 1) else (v, 0)
  | 0x0C => win v 0
  | 0x10 => win v (fld (s.reg (aShk 0xC)) 19 11)
  | _ => (v, 0)

/-- The action of a write in Table 14.4 beside the common field rules (R397). A longer input window shortens the state
window (Table 14.5). -/
def State.shkWrite (s : State) (off : Nat) (v : Word) : State :=
  match off with
  | 0x00 =>
    let s := if bit v 2 then
        ((s.clearCount (aShk 0x1C) 0 8).clearCount (aShk 0x1C) 8 8).clearCount (aShk 0x1C) 16 16
      else s
    let s := if bit v 1 then s.armFlag (aShk 0) 1 else s
    if bit v 3 then s.setRegFld (aShk 0) 1 1 0 else s
  | 0x0C =>
    let (w, n) := s.shkClamp 0x10 (s.reg (aShk 0x10))
    (s.setReg (aShk 0x10) w).clamp n
  | _ => s

end Sys2Proof.Machine
end

