-- ==== Sys2Proof/Machine/Scan.lean ====
section
/-! DEFINITION. Point processing (chapter 11): the image layout, the Ward table, the three passes of a tick, the image
exchange windows, bank flips, and the scan registers. -/

namespace Sys2Proof.Machine

def aScn (off : Nat) : Nat := 0x500F5000 + off
def aScnStat : Nat := aScn 4

/-! ### The layout (R288) -/

/-- Byte offsets in image memory at which the input image, the output image, the bit region and the free region
begin. -/
def State.layout (s : State) : Nat × Nat × Nat × Nat :=
  let r := s.reg (aScn 8)
  let a := 4096 * fld r 0 7
  let b := a + 4096 * fld r 8 7
  let c := b + 4096 * fld r 16 7
  (a, b, c, c + 4096 * fld r 24 7)

/-- The layout with the sizes clamped (R288): BIT, then OUT, then IN down to 0, then SD; and the fields changed. -/
def clampLayout (v : Word) : Word × Nat :=
  let sd := fld v 0 7
  let i := fld v 8 7
  let o := fld v 16 7
  let b := fld v 24 7
  let sd' := min sd 96
  let i' := min i (96 - sd')
  let o' := min o (96 - sd' - i')
  let b' := min b (96 - sd' - i' - o')
  (word (sd' + i' * 2 ^ 8 + o' * 2 ^ 16 + b' * 2 ^ 24),
    (sd' != sd).toNat + (i' != i).toNat + (o' != o).toNat + (b' != b).toNat)

/-! ### Ward entries (R291 to R293) -/

/-- A field of an entry. -/
def wf (e lo n : Nat) : Nat := e / 2 ^ lo % 2 ^ n
def wKind (e : Nat) : Nat := wf e 62 2
def wSrc (e : Nat) : Nat := wf e 60 2
def wType (e : Nat) : Nat := wf e 58 2
def wInv (e : Nat) : Bool := wf e 57 1 == 1
def wFilt (e : Nat) : Nat := wf e 54 3
def wSafem (e : Nat) : Nat := wf e 52 2
def wSidx (e : Nat) : Nat := wf e 36 16
def wSbit (e : Nat) : Nat := wf e 33 3
def wLoc (e : Nat) : Nat := 4 * wf e 16 17
def wIbit (e : Nat) : Nat := wf e 11 5

/-- The KIND and TYPE of an analogue point (R291). -/
def wAnalogue (e : Nat) : Bool := (wKind e == 1 || wKind e == 2) && wType e == 2

/-- Address of an entry. -/
def wardKey (i : Nat) : Nat := 0x50080000 + 8 * i

/-- The entry as the table memory holds it. -/
def State.ward (s : State) (i : Nat) : Nat := leNat (readBytes s.mem (wardKey i) 8)

/-- Entry `i` is the extension of the entry before it (R291): an odd run of analogue entries stands before it. -/
def State.isExt (s : State) : Nat → Bool
  | 0 => false
  | i + 1 => wAnalogue (s.ward i) && !s.isExt i

/-- Offset in image memory of an exchange window (R304, R305); `r` is IMG_TXOFF or IMG_RXOFF. -/
def State.window (s : State) (r : Nat) : Nat := s.layout.1 + (s.reg (aScn r)).toNat

/-- IMG_TXLEN, IMG_RXLEN. -/
def State.txLen (s : State) : Nat := fld (s.reg (aScn 0x20)) 0 9
def State.rxLen (s : State) : Nat := fld (s.reg (aScn 0x28)) 0 16

/-- Bytes of a chain point. -/
def chainBytes (type : Nat) : Nat := if type = 0 then 1 else if type = 1 then 4 else 2

/-- The combination reads "invalid" in Table 11.4. -/
def tableInvalid (src type : Nat) (input : Bool) : Bool :=
  (src == 0 && type == 2) || (src == 1 && (type == 0 || !input))

/-- The point of entry `i` with content `e` is invalid (R293). -/
def State.invalid (s : State) (i e : Nat) : Bool :=
  let (a, b, c, f) := s.layout
  let input := wKind e == 1
  let l := wLoc e
  let inBits := decide (c ≤ l) && decide (l < f)
  let inImage := if input then decide (a ≤ l) && decide (l < b) else decide (b ≤ l) && decide (l < c)
  wKind e == 3 || wType e == 3 || tableInvalid (wSrc e) (wType e) input
    || (wType e == 0 && wf e 0 11 != 0)
    || decide (0x60000 ≤ l) || !(inImage || inBits)
    || (!input && wSrc e == 2 && decide (s.txLen < wSidx e + chainBytes (wType e)))
    || (wType e == 2 && i == 16383)

/-- A checked read by the point processor (Table 6.10). -/
def State.pointRead (s : State) (key n : Nat) : State × Option Nat :=
  let b := cwOf key
  if cwOf (key + n - 1) = b then s.loadIn key n 3 0
  else
    let (s, v) := s.loadBytes key n 3 0
    (s, v.map leNat)

/-- The image word at an offset has its bits of `mask` replaced (R290): a memory merge write, recorded with SRC 0b10 and ID 0
(DESIGN CHOICE, log entry 95). -/
def State.mergeBits (s : State) (key : Nat) (mask v : Nat) : State :=
  let n := cwBytes (memNum key)
  let raw := s.rawWord key
  let (s, r) := s.readCode key 2 0
  let old := r.getD raw
  let new := Nat.xor old (Nat.land (Nat.xor old v) mask)
  ({ s with mem := writeBytes s.mem key (leBytes n new) }).markCode key (if r.isNone then poison (memNum key) else 0)

/-- One bit of image memory, at a byte offset, is written by a merge. -/
def State.imageBit (s : State) (off bitNo : Nat) (b : Bool) : State :=
  let key := 0x40000000 + off / 8 * 8
  let sh := 8 * (off % 8) + bitNo
  s.mergeBits key (2 ^ sh) (b.toNat * 2 ^ sh)

/-- Bytes of image memory, at a byte offset, are written by the point processor; bytes beyond image memory are not. Its cycles come
after the engines' requests and ahead of every other master's (R303), and the write that lands last stands (R290); a merge read is
recorded with SRC 0b10 and ID 0 (DESIGN CHOICE, log entry 95). -/
def State.imageBytes (s : State) (off : Nat) (bs : List Byte) : State :=
  s.storeBytes (0x40000000 + off) 255 (bs.take (0x60000 - off)) 0

/-- The value is written to the image location of an input point. -/
def State.pointWrite (s : State) (e : Nat) (v : Word) : State :=
  if wType e = 0 then s.imageBit (wLoc e) (wIbit e) (bit v 0)
  else s.imageBytes (wLoc e) (leBytes 4 v.toNat)

/-- SAFEV sign-extended, or the safe value of a bit (Table 11.2); nothing where it holds. -/
def safeVal (e : Nat) : Option Word :=
  match wSafem e with
  | 0 => some 0
  | 2 => some (if wType e = 0 then 1 else (BitVec.ofNat 16 e).signExtend 32)
  | _ => none

/-- scale of R298 with the extension `x`: the clamped result, and whether the clamp changed it. HI below LO is taken as
LO (R293). -/
def scale (x : Nat) (raw : Int) : Word × Bool :=
  let half (lo : Nat) : Int := (BitVec.ofNat 16 (x / 2 ^ lo)).toInt
  let y := (raw - half 32) * half 48 / 2 ^ 12
  let lo := half 16
  let hi := if half 0 < lo then lo else half 0
  let z := if y < lo then lo else if hi < y then hi else y
  (BitVec.ofInt 32 z, decide (z ≠ y))

/-- The filter of R299 on a raw value. -/
def Filter.step (f : Filter) (n : Nat) (raw : Word) : Filter :=
  if !f.seen then ⟨raw, raw, 0, true⟩
  else if raw = f.acc then { f with cnt := 0 }
  else
    let f := if raw = f.cand then { f with cnt := f.cnt + 1 } else { f with cand := raw, cnt := 1 }
    if n + 1 ≤ f.cnt then { f with acc := f.cand, cnt := 0 } else f

/-- What a source answers (R297): a raw value, not ok, or a converter FIFO that is empty. -/
inductive SourceVal where
  | raw (v : Word)
  | notOk
  | empty
  deriving DecidableEq, Repr

/-- An uncorrectable read in a pass (R307). -/
def State.unread (s : State) : State := s.count (aScn 0x3C) 16 16

/-- A read of a source in image memory at byte offset `off`. -/
def State.imageSource (s : State) (off n : Nat) : State × SourceVal :=
  if 0x60000 < off + n then (s, .notOk)
  else match s.pointRead (0x40000000 + off) n with
    | (s, some v) => (s, .raw (if n = 2 then (BitVec.ofNat 16 v).signExtend 32 else word v))
    | (s, none) => (s.unread, .notOk)

/-- The 32 latched input levels from pad 32 × i on. -/
def latchWord (l : BitVec 128) (i : Nat) : Word := word (l.toNat / 2 ^ (32 * i))

/-- The source of an input point (Table 11.4). -/
def State.source (s : State) (e : Nat) (miss : Bool) : State × SourceVal :=
  let i := wSidx e
  match wSrc e with
  | 0 =>
    (s, .raw (if wType e = 0 then bitWord (s.scan.latch.getLsbD (i % 128)) else latchWord s.scan.latch (i % 4)))
  | 1 =>
    let p := i % 8
    let x := s.cvt p
    match x.fifo with
    | [] => (s, .empty)
    | (v, t) :: q => (s.setCvt p { x with fifo := q, rst := t }, .raw v)
  | 2 =>
    let n := chainBytes (wType e)
    if miss || decide (s.rxLen < i + n) then (s, .notOk)
    else match s.imageSource (s.window 0x24 + i) n with
      | (s, .raw v) => (s, .raw (if wType e = 0 then bitWord (bit v (wSbit e)) else v))
      | r => r
  | _ =>
    match s.imageSource ((s.reg (aScn 0x30)).toNat + 4 * i) 4 with
    | (s, .raw v) => (s, .raw (if wType e = 0 then bitWord (bit v 0)
        else if wType e = 2 then (v.setWidth 16).signExtend 32 else v))
    | r => r

/-- NOT of a bit, complement of a word (Table 11.2). -/
def invert (e : Nat) (v : Word) : Word := if wType e = 0 then v ^^^ 1 else ~~~v

/-- The extension of entry `i`, and a count in BAD where LO lies above HI (R293). -/
def State.extension (s : State) (i : Nat) : State × Option Nat :=
  let (s, x) := s.readCode (wardKey (i + 1)) 3 0
  match x with
  | none => (s.unread, none)
  | some x =>
    (if (BitVec.ofNat 16 x).toInt < (BitVec.ofNat 16 (x / 2 ^ 16)).toInt then s.count (aScn 0x3C) 0 16 else s, some x)

/-- A valid input point is processed (R297): the state and its quality bit. It reads in the first of its `c` cycles and writes in
the last (R303). -/
def State.inputPoint (s : State) (i e : Nat) (x : Nat) (miss : Bool) (c : Nat) : State × Bool :=
  let f := tabGet {} s.scan.filt i
  let (s, r) := s.source e miss
  let (f, q) : Filter × Bool := match r with
    | .empty => (f, true)
    | .notOk => ({ f with acc := (safeVal e).getD f.acc }, true)
    | .raw v =>
      if wType e = 2 then
        let (y, q) := scale x v.toInt
        ({ f with acc := y }, q)
      else (f.step (wFilt e) (if wInv e then invert e v else v), false)
  let s := { s with scan := { s.scan with filt := tabSet s.scan.filt i f } }
  ((s.pass (c - 1)).pointWrite e f.acc, q)

/-- A destination of an output point is written (Table 11.4): into the commit buffer or image memory. -/
def State.destination (s : State) (e : Nat) (v : Word) (buf : Tab (BitVec 2)) : State × Tab (BitVec 2) :=
  let i := wSidx e
  let lvl (b : Bool) : BitVec 2 := if b then 1 else 0
  match wSrc e with
  | 0 =>
    if wType e = 0 then (s, tabSet buf (i % 128) (lvl (bit v 0)))
    else (s, (upTo 32).foldl (fun b j => tabSet b (32 * (i % 4) + j) (lvl (bit v j))) buf)
  | 2 =>
    let off := s.window 0x1C + i
    if wType e = 0 then (if off < 0x60000 then s.imageBit off (wSbit e) (bit v 0) else s, buf)
    else (s.imageBytes off (leBytes (chainBytes (wType e)) v.toNat), buf)
  | _ =>
    let w := if wType e = 0 then v &&& 1 else v
    (s.imageBytes ((s.reg (aScn 0x30)).toNat + 4 * i) (leBytes 4 w.toNat), buf)

/-- A valid output point is processed (R300). It reads in the first of its `c` cycles and writes in the last (R303). -/
def State.outputPoint (s : State) (e : Nat) (x : Nat) (buf : Tab (BitVec 2)) (c : Nat) : State × Bool × Tab (BitVec 2) :=
  let (s, r) := s.pointRead (0x40000000 + wLoc e) 4
  let s := if r.isNone then s.unread else s
  let live := s.sys.mode != .preparation && s.sys.mode != .safe
  match (if live then r else none) with
  | none =>
    match safeVal e with
    | some v =>
      let (s, buf) := (s.pass (c - 1)).destination e v buf
      (s, true, buf)
    | none => (s, true, buf)
  | some w =>
    let w := word w
    let (v, q) := if wType e = 2 then scale x w.toInt
      else
        let v := if wType e = 0 then bitWord (bit w (wIbit e)) else w
        (if wInv e then invert e v else v, false)
    let (s, buf) := (s.pass (c - 1)).destination e v buf
    (s, q, buf)

/-! ### A pass (R296, R303) -/

/-- The pass judges an entry (R293). -/
def Pass.judges (k : Pass) (e : Nat) : Bool :=
  match k with
  | .localIn => (wKind e == 1 || wKind e == 3) && wSrc e != 2
  | .chainIn => (wKind e == 1 || wKind e == 3) && wSrc e == 2
  | .output => wKind e == 2 || wKind e == 3

/-- Entry cost without contention (Table 11.6). -/
def State.entryCost (s : State) (k : Pass) (e : Nat) : Nat :=
  if wSrc e < 2 then (if k == .output then 1 else 2)
  else
    let n := if wSrc e = 2 then chainBytes (wType e) else 4
    let off := if wSrc e = 3 then (s.reg (aScn 0x30)).toNat + 4 * wSidx e
      else (if k == .output then s.window 0x1C else s.window 0x24) + wSidx e
    if off / 8 = (off + n - 1) / 8 then 3 else 4

/-- The running result of a walk: state, quality bits by entry, commit buffer, cycles. -/
structure Walk where
  s : State
  q : List (Nat × Bool)
  buf : Tab (BitVec 2)
  cost : Nat
  deriving DecidableEq, Repr

/-- One entry of a walk. -/
def Walk.entry (w : Walk) (k : Pass) (miss : Bool) (i : Nat) : Walk :=
  if w.s.isExt i then { w with cost := w.cost + 1 }
  else
    match w.s.readCode (wardKey i) 3 0 with
    | (s, none) => { w with s := s.unread, q := w.q ++ [(i, true)], cost := w.cost + 1 }
    | (s, some e) =>
      if !k.judges e then { w with s := s, cost := w.cost + 1 }
      else if s.invalid i e then { w with s := s.count (aScn 0x3C) 0 16, q := w.q ++ [(i, true)], cost := w.cost + 1 }
      else
        let (s, x) := if wType e = 2 then s.extension i else (s, some 0)
        match x with
        | none => { w with s := s, q := w.q ++ [(i, true)], cost := w.cost + 1 }
        | some x =>
          let n := s.entryCost k e
          let c := w.cost + n
          match k with
          | .output =>
            let (s, q, buf) := s.outputPoint e x w.buf n
            { s := s, q := w.q ++ [(i, q)], buf := buf, cost := c }
          | _ =>
            let (s, q) := s.inputPoint i e x miss n
            { w with s := s, q := w.q ++ [(i, q)], cost := c }

/-- The quality bits of doubleword `d` among those of a pass are written by one merge (R302). -/
def State.qualityWord (s : State) (q : List (Nat × Bool)) (d : Nat) : State :=
  let here := q.filter fun x => x.1 / 64 == d
  let mask := here.foldl (fun n x => n + 2 ^ (x.1 % 64)) 0
  let v := here.foldl (fun n x => n + x.2.toNat * 2 ^ (x.1 % 64)) 0
  s.mergeBits (0x40000000 + (s.reg (aScn 0x2C)).toNat + 8 * d) mask v

/-- The entry indices of SCN_INLIST (0xC) or SCN_OUTLIST (0x10). -/
def State.list (s : State) (r : Nat) : List Nat :=
  (upTo (fld (s.reg (aScn r)) 0 15)).map (fld (s.reg (aScn r)) 16 14 + ·)

/-- A pass that has waited is counted (R296). -/
def State.overrunPass (s : State) (n : Nat) : State :=
  if n = 0 then s else (s.setFlag aScnStat 1).count (aScn 0x40) 0 16 n

/-- OLATE, where an output pass has not started by C (R301). -/
def State.notStarted (s : State) (d : PassDue) : State :=
  if d.kind == .output && !d.late && later s.now d.c then s.setFlag aScnStat 2 else s

/-- The pass of kind `k` that starts now (R296), taken out of the waiting passes: earlier ones of its kind that are due
have waited and are discarded. -/
def State.takePass (s : State) (k : Pass) : Option (State × PassDue) :=
  let mine := s.scan.passes.filter fun d => d.kind == k
  let due := mine.filter fun d => !later d.due s.now
  match due.getLast?.orElse fun _ => mine.head? with
  | none => none
  | some d =>
    let drop := due.length - 1
    let gone := if due.isEmpty then 1 else due.length
    let rest := s.scan.passes.filter (fun d => d.kind != k) ++ mine.drop gone
    let s := { s with scan := { s.scan with passes := rest } }
    let s := s.count (aScn 0x40) 16 16 drop
    let s := s.overrunPass (drop + (s.scan.ended.any fun t => later t d.due).toNat)
    some ((due.dropLast.foldl State.notStarted s).atChain d.due, d)

/-- Doubleword `i` of the RX copy (R305): chain image bytes from `src` on, into the RX window, within the input image. -/
def State.rxWord (s : State) (src i : Nat) : State :=
  let off := s.window 0x24
  let len := min s.rxLen (s.layout.2.1 - off)
  s.imageBytes (off + 8 * i) (readBytes s.mem (src + 8 * i) (min 8 (len - 8 * i)))

/-- Doubleword `i` of the TX snapshot (R304): its bytes. -/
def State.txWord (s : State) (i : Nat) : State × List Byte :=
  let off := s.window 0x1C
  let stop := min s.layout.2.1 0x60000
  if stop ≤ off + 8 * i then (s, leBytes 8 0)
  else match s.readCode (0x40000000 + off + 8 * i) 3 0 with
    | (s, some v) => (s, leBytes 8 v)
    | (s, none) => (s.setFlag aScnStat 5, leBytes 8 0)

/-- The registers of the layout and the windows, which a pass takes as they stand at its start (R308). -/
def passRegs : List Nat := [aScn 0x08, aScn 0x1C, aScn 0x20, aScn 0x24, aScn 0x28]

/-- `f` with the registers of `t` at the values there, put back afterwards. -/
def State.withRegs (s : State) (t : Tab Word) (f : State → State) : State :=
  let put (s : State) (x : Nat × Word) : State := if s.reg x.1 = x.2 then s else s.setReg x.1 x.2
  let now := t.map fun x => (x.1, s.reg x.1)
  now.foldl put (f (t.foldl put s))

/-- The cycles of the pass's length so far have passed (R303). -/
def State.passClock (s : State) : State := s.scan.run.elim s fun r => s.atCycle (r.start + r.cost)

/-- The pass that runs is now `r`. -/
def State.setRun (s : State) (r : Option PassRun) : State := { s with scan := { s.scan with run := r } }

/-- A pass of kind `k` starts (R294, R296, R303): 2 cycles of preparation, then its steps, the RX copy of the chain input pass
from the chain image at `image` first. A flip tick and an activation tick act first (R309, R439). -/
def State.passStart (s : State) (k : Pass) (image : Nat) : State :=
  if s.scan.flipDue || s.upd.due then s
  else match s.takePass k with
    | none => s
    | some (s, d) =>
      let s := s.notStarted d
      let copies := if k == .chainIn && !d.miss then (upTo ((s.rxLen + 7) / 8)).map (PassStep.copy image) else []
      let todo := copies ++ (s.list (if k == .output then 0x10 else 0xC)).map PassStep.entry ++ [.tail]
      let regs := passRegs.map fun a => (a, s.reg a)
      let s := (s.setRun (some ⟨k, d.c, d.miss, todo, [], [], 2, s.cycle, regs, []⟩)).pass 2
      if k == .chainIn && d.miss then s.setFlag aScnStat 3 else s

/-- What follows the entries of the pass `r` (R303): the quality doublewords, then the TX snapshot of the local input pass. -/
def State.tailSteps (s : State) (r : PassRun) : List PassStep :=
  ((r.q.map fun x => x.1 / 64).eraseDups).map PassStep.quality
    ++ if r.kind == .localIn then (upTo ((s.txLen + 7) / 8)).map PassStep.snap else []

/-- A step of the pass `r` acts, in the cycles that it takes (R302 to R305). -/
def State.passAct (s : State) (r : PassRun) : PassStep → State
  | .copy src i => (s.rxWord src i).setRun (some { r with cost := r.cost + 1 })
  | .entry i =>
    let w := Walk.entry ⟨s, r.q, r.buf, r.cost⟩ r.kind r.miss i
    w.s.setRun (some { r with q := w.q, buf := w.buf, cost := w.cost })
  | .tail => s.setRun (some { r with todo := s.tailSteps r })
  | .quality d => ((s.pass 1).qualityWord r.q d).setRun (some { r with cost := r.cost + 2 })
  | .snap i =>
    let (s, bs) := s.txWord i
    let tx := r.tx ++ bs
    let s := s.setRun (some { r with cost := r.cost + 1, tx := tx })
    if s.txLen ≤ tx.length then { s with scan := { s.scan with tx := tx.take s.txLen, txNow := true } } else s

/-- The next step of the pass that runs acts, once its cycles so far have passed (R303). -/
def State.passStep (s : State) : State :=
  match s.scan.run with
  | none => s
  | some r =>
    match r.todo with
    | [] => s
    | x :: rest => (s.passClock.withRegs r.regs fun s => s.passAct { r with todo := rest } x).passClock

/-- A pass has ended (R303, R306): its length, its end, its event. -/
def State.passEnd (s : State) (cost reg lo vc : Nat) : State :=
  let s := s.setRegFld reg lo 16 (min 0xFFFF cost)
  ({ s with scan := { s.scan with run := none, ended := some (periods s.now) } }).raiseVc vc

/-- The pass that runs ends (R301, R303, R306). In Tracking the local input pass raises no IV (R391). -/
def State.passFinish (s : State) : State :=
  match s.scan.run with
  | none => s
  | some r =>
    let s := (s.setRun (some { r with cost := r.cost + 2 })).passClock
    let s := if r.kind == .localIn && r.tx.isEmpty then { s with scan := { s.scan with tx := [], txNow := true } } else s
    let cost := s.scan.run.elim 0 (·.cost)
    let evt := s.reg (aScn 0x18)
    match r.kind with
    | .localIn =>
      let s := s.passEnd cost (aScn 0x34) 0 (if s.sys.mode == .tracking then 0xFF else fld evt 0 8)
      { s with shk := { s.shk with localDone := true } }.snapshot
    | .chainIn => s.passEnd cost (aScn 0x34) 16 (fld evt 8 8)
    | .output =>
      let s := s.passEnd cost (aScn 0x38) 0 (fld evt 16 8)
      { s with shk := { s.shk with crc := crc32 (r.buf.map fun (x : Nat × BitVec 2) => BitVec.setWidth 8 x.2) }
               scan := { s.scan with bufs := s.scan.bufs ++ [⟨r.buf, r.c, s.cycle + 2⟩] } }

/-- `n` steps of the pass that runs. -/
def State.passSteps (s : State) (n : Nat) : State := (upTo n).foldl (fun s _ => s.passStep) s

/-- The steps that the pass that runs still has in its list. -/
def State.stepsLeft (s : State) : Nat := s.scan.run.elim 0 (·.todo.length)

/-- A pass of kind `k` runs (R296, R303): it starts where none runs, and goes on where it does; to its end, or by as many
steps as `Scan.cuts` says (log entry 96). -/
def State.runPass (s : State) (k : Pass) (image : Nat) : State :=
  let s := if s.scan.run.isNone then s.passStart k image else s
  match s.scan.run with
  | none => s
  | some r =>
    if r.kind != k then s
    else
      match s.scan.cuts with
      | m :: l => { s with scan := { s.scan with cuts := l } }.passSteps m
      | [] =>
        let s := s.passSteps s.stepsLeft
        (s.passSteps s.stepsLeft).passFinish

/-- OLATE at an output commit instant `c` (R301): its output pass still waits. -/
def State.passLate (s : State) (c : Time64) : State :=
  let hit (d : PassDue) : Bool := d.kind == .output && d.c == c && !d.late
  if !s.scan.passes.any hit then s
  else
    let passes := s.scan.passes.map fun d => if hit d then { d with late := true } else d
    { s with scan := { s.scan with passes := passes } }.setFlag aScnStat 2

/-- The commit buffer lands (R301). -/
def State.bufLand (s : State) : State :=
  match s.scan.bufs with
  | [] => s
  | b :: bs =>
    let s := s.atCycle b.land
    let s := if s.cyclesTo b.c < 3 then s.setFlag aScnStat 2 else s
    let s := { s with scan := { s.scan with bufs := bs } }
    b.levels.foldl (fun s x => s.setRegFld (aPadCommit x.1) 0 2 x.2.toNat) s

/-! ### Bank flips (R309, R310) -/

/-- A commit of SCN_FLIPL arms a flip (R309). -/
def State.armFlip (s : State) (v : Word) : State :=
  { s with scan := { s.scan with flip := some (s.reg (aScn 0x48) ++ v), flipDue := false } }

/-- The identities named in SCN_FLIPTj that are not ignored, ascending. -/
def State.flipIds (s : State) : List Nat :=
  ((upTo 8).flatMap fun j => (bitsOf (s.reg (aScn (0x50 + 4 * j)))).map (32 * j + ·)).filter fun id =>
    !(s.twin (id / 16) && id / 16 % 2 == 1)

/-- A thread is relocated to the other bank (R309). -/
def State.relocate (s : State) (id : Nat) : State :=
  let t := s.thr id
  let lk := t.rd 15
  let t' := { t with pc := t.pc ^^^ 0x8000, vbase := t.vbase ^^^ 0x8000 }
  let t' := if decide (lk.toNat < 0x10000) && bit lk 15 == bit t.pc 15 then t'.wrRaw 15 (lk ^^^ 0x8000) else t'
  (s.setThr id t').fill id (pcOf (t'.pc + 4))

/-- The thread is WAITING with reason EVENT on an island that runs. -/
def State.relocatable (s : State) (id : Nat) : Bool :=
  let t := s.thr id
  t.st == .waiting && !t.heldWake && s.islandOn (id / 16) &&
    match t.wait with
    | .event _ => true
    | _ => false

/-- The flip tick (R309, R310); the threads of `skip` have been relocated by an activation of the same tick (R439). -/
def State.flip (s : State) (skip : List Nat) : State :=
  if !s.scan.flipDue then s else
    let ids := s.flipIds
    let miss := ids.filter fun id => !s.relocatable id
    let s := ((ids.filter s.relocatable).filter fun id => !skip.contains id).foldl State.relocate s
    let s := { s with scan := { s.scan with flip := none, flipDue := false } }
    let r := s.reg (aScn 0x4C)
    let s := s.setReg (aScn 0x4C) (setFld (setFld (setBit r 30 true) 16 9 (miss.getLastD 0)) 0 8 (min 255 miss.length))
    (s.noteSet (aScn 0x4C) 30).raiseVc (fld (s.reg (aScn 0x18)) 24 8)

/-! ### Registers (R307, R308) -/

/-- A read in Table 11.8. -/
def State.scnRead (s : State) (off : Nat) : Word :=
  match off with
  | 0x04 => s.reg (aScn 4) ||| bitWord s.scan.run.isSome
  | 0x4C => s.reg (aScn 0x4C) ||| word (s.scan.flip.isSome.toNat * 2 ^ 31)
  | _ => s.reg (aScn off)

/-- The clamps of Table 11.9 on a written value, and how many there were. -/
def scnClamp (off : Nat) (v : Word) : Word × Nat :=
  let ch (w : Word) : Word × Nat := (w, (w != v).toNat)
  match off with
  | 0x08 => clampLayout v
  | 0x0C => ch (setFld v 0 15 (min (fld v 0 15) (16384 - fld v 16 14)))
  | 0x10 => ch (setFld v 0 15 (min (fld v 0 15) (16384 - fld v 16 14)))
  | 0x14 => ch (setFld v 0 16 (max 8 (fld v 0 16)))
  | 0x18 =>
    (upTo 4).foldl (fun (a : Word × Nat) j =>
      let x := fld v (8 * j) 8
      if 192 ≤ x ∧ x < 255 then (setFld a.1 (8 * j) 8 255, a.2 + 1) else a) (v, 0)
  | 0x20 => ch (setFld v 0 9 (min 256 (fld v 0 9)))
  | 0x28 => ch (setFld v 0 16 (min 65024 (fld v 0 16)))
  | 0x2C => ch (if 0x5F800 < v.toNat then 0x5F800 else v)
  | _ => (v, 0)

/-- The action of a write in Table 11.8 beside the common field rules. -/
def State.scnWrite (s : State) (off : Nat) (v : Word) : State :=
  match off with
  | 0x00 =>
    if bit v 1 then (((s.clearCount (aScn 0x3C) 0 16).clearCount (aScn 0x3C) 16 16).clearCount (aScn 0x40) 0 16).clearCount
      (aScn 0x40) 16 16 else s
  | 0x44 => s.armFlip v
  | 0x4C => if bit v 29 then { s with scan := { s.scan with flip := none, flipDue := false } } else s
  | _ => s

end Sys2Proof.Machine
end

