-- ==== Sys2Proof/Machine/Chain.lean ====
section
/-! DEFINITION. The Aguth chain (chapter 12): ports, forwarding and wrapping, addressing, the tick schedule, the input
exchange, time distribution, events, and the registers of the chain window. -/

namespace Sys2Proof.Machine

/-- Base of the chain image in the model's own view (R343, log entry 5). -/
def chainImage : Nat := 0x70000000

/-- A little-endian field of a payload. -/
def field (bs : List Byte) (off n : Nat) : Nat := leNat ((bs.drop off).take n)

def aChStat : Nat := aCh 4
def State.chDrop (s : State) (n : Nat := 1) : State := s.count (aCh 0x3C) 0 16 n
def State.chDup (s : State) : State := s.count (aCh 0x3C) 16 16

/-! ### Ports (R326, R331) -/

def State.portUp (s : State) : Port → Bool
  | .a => s.chain.upA
  | .b => s.chain.upB

def otherPort : Port → Port
  | .a => .b
  | .b => .a

/-- CH_CTL.ENA, ENB. -/
def State.portEn (s : State) : Port → Bool
  | .a => bit (s.reg (aCh 0)) 0
  | .b => bit (s.reg (aCh 0)) 1

/-- A port goes up or down; a change raises channel 581 (R326, R353). -/
def State.setPort (s : State) (p : Port) (b : Bool) : State :=
  if s.portUp p = b then s
  else
    let c := match p with
      | .a => { s.chain with upA := b }
      | .b => { s.chain with upB := b }
    { s with chain := c }.raise 581

/-- A frame leaves through a port, or turned back through the other where that one alone is up (R331). -/
def State.emit (s : State) (p : Port) (f : Frame) : State :=
  let put (s : State) (p : Port) (f : Frame) : State :=
    match p with
    | .a => { s with chain := { s.chain with sentA := some f } }
    | .b => { s with chain := { s.chain with sentB := some f } }
  if s.portUp p then put s p f
  else if s.portUp (otherPort p) then put s (otherPort p) { f with wrap := true }
  else s

/-- A frame that arrived at `p` is forwarded (R328): HOPS counts, and a frame whose HOPS has reached 600 ends here. -/
def State.forward (s : State) (p : Port) (f : Frame) : State :=
  if 600 ≤ f.hops.toNat then s else s.emit (otherPort p) { f with hops := f.hops + 1 }

/-- A frame can arrive at the port: the link island runs and the port is up. -/
def State.hears (s : State) (p : Port) : Bool := s.islesUp && s.portUp p

/-- A bad frame at port `p` counts (Table 12.13). -/
def State.crcCount (s : State) (p : Port) : State :=
  match p with
  | .a => s.count (aCh 0x34) 0 16
  | .b => s.count (aCh 0x34) 16 16

/-- The unit takes a good frame (R329) of a type other than ADDRESS, TICK and TIME. -/
def State.takes (s : State) (f : Frame) : Bool :=
  f.good && ((f.dst.toNat == s.addr && s.addr != 0) || f.dst == 255
    || (f.dst == 0 && f.type == 1 && s.sys.mode == .unaddressed))

/-- A SEQ that is among the last 4 taken is a duplicate and counts; another is recorded (R329). -/
def State.fresh (s : State) (f : Frame) : State × Bool :=
  let k := 256 * f.type.toNat + f.src.toNat
  let l := tabGet [] s.chain.dups k
  if l.contains f.seq then (s.chDup, false)
  else ({ s with chain := { s.chain with dups := tabSet s.chain.dups k ((f.seq :: l).take 4) } }, true)

/-- A frame of the unit's own has come back (R329): SRC is its address, and it originated the frame. -/
def State.originated (s : State) (f : Frame) : Bool :=
  f.src.toNat == s.addr && (tabFind s.chain.mine (256 * f.type.toNat + f.seq.toNat)).any fun g =>
    g.dst == f.dst && g.payload == f.payload

/-- The unit consumes a frame (R329): it is addressed to it, or its own frame has come back. -/
def State.consumes (s : State) (f : Frame) : Bool :=
  f.good && ((s.addr != 0 && f.dst.toNat == s.addr) || s.originated f)

/-- A probe, which is never forwarded (R345). -/
def isProbe (f : Frame) : Bool := f.type == 4 && (field f.payload 0 1 == 1 || field f.payload 0 1 == 2)

/-- A frame that is not consumed passes on (R328), one of reserved TYPE whatever its addresses. A good ADDRESS frame and a
good TIME distribution pass under their own rules. -/
def State.passOn (s : State) (p : Port) (f : Frame) : State :=
  if !s.hears p then s else
    let s := if f.good then s else s.crcCount p
    if 8 ≤ f.type.toNat then s.chDrop.forward p f
    else if isProbe f || s.consumes f || (f.good && (f.type == 0 || (f.type == 4 && field f.payload 0 1 == 0))) then s
    else s.forward p f

/-! ### Own frames (R329, R330) -/

/-- An own frame is queued with the next SEQ of its type. -/
def State.queueOwn (s : State) (type dst : Nat) (payload : List Byte) (seq : Option Byte := none) : State :=
  let n := tabGet 0 s.chain.seqs type
  let c := s.chain
  let f : OwnFrame := ⟨BitVec.ofNat 4 type, BitVec.ofNat 8 dst, seq.getD n, payload⟩
  { s with chain := { c with own := c.own ++ [f], seqs := if seq.isSome then c.seqs else tabSet c.seqs type (n + 1) } }

/-- The next tick instant (R336, R338). -/
def Sched.next (x : Sched) : Time64 := x.i + BitVec.ofNat 64 (256 * x.p * (x.skip + 1))

/-- A frame of `n` payload bytes may start now (R330): after the half-tick instant, and so that it ends 1 µs before the
next tick instant. -/
def State.inWindow (s : State) (n : Nat) : Bool :=
  match s.chain.sched with
  | none => true
  | some x => x.half && !later (s.now + BitVec.ofNat 64 (256 * (8 * (14 + n) + 200))) x.next

/-- An own frame as it leaves on a port. -/
def State.ownAs (s : State) (f : OwnFrame) (dir : Bool) : Frame :=
  { dst := f.dst, src := BitVec.ofNat 8 s.addr, type := f.type, dir := dir, wrap := false, fold := false
    record := false, seq := f.seq, hops := 0, good := true, payload := f.payload }

/-- A frame that the unit originates is remembered (R329). -/
def State.remember (s : State) (f : OwnFrame) : State :=
  { s with chain := { s.chain with mine := tabSet s.chain.mine (256 * f.type.toNat + f.seq.toNat) f } }

/-- A frame is sent on both ports, once in each sense (R329). -/
def State.sendBoth (s : State) (f : OwnFrame) : State :=
  let s := s.remember f
  (s.emit .a (s.ownAs f false)).emit .b (s.ownAs f true)

/-- A port is up. -/
def State.anyUp (s : State) : Bool := s.islesUp && (s.chain.upA || s.chain.upB)

/-- The oldest own frame that waits starts (R330, R388): the heartbeat train first. A unit's own EVENT raises its
channel as it leaves (R350). -/
def State.sendOwn (s : State) : State :=
  if !s.anyUp then s
  else match s.chain.train, s.chain.own with
  | f :: fs, _ =>
    if s.inWindow f.payload.length then { s with chain := { s.chain with train := fs } }.sendBoth f else s
  | [], f :: fs =>
    if !s.inWindow f.payload.length then s
    else
      let s := { s with chain := { s.chain with own := fs } }.sendBoth f
      let s := if f.type = 2 then s.drGone .chain else s
      if f.type = 5 then
        s.raiseIn s.cycle (592 + field f.payload 0 1) (BitVec.ofNat 64 (field f.payload 8 8))
      else s
  | [], [] => s

/-! ### Addressing (R333, R334) -/

/-- An address is taken (R334); R28 carries it to the always-on island. -/
def State.takeAddr (s : State) (a : Nat) : State :=
  let s := (s.setReg (aCh 8) (word a)).raise 582
  let s := { s with sys := { s.sys with aon := s.sys.aon ++ [⟨aCh 8, word a, none⟩] } }
  if s.sys.mode == .unaddressed then s.setMode .preparation else s

/-- An ADDRESS frame arrives (R333). -/
def State.address (s : State) (p : Port) (f : Frame) : State :=
  if !s.hears p then s
  else if !f.good then (s.crcCount p).forward p f
  else
    let c := field f.payload 0 1
    let all := field f.payload 1 1 % 2 == 1
    let next : Byte := BitVec.ofNat 8 (min 255 (c + 1))
    let counted := { f with payload := next :: f.payload.drop 1 }
    if s.consumes f then s
    else if f.wrap || s.sys.mode == .recall then s.forward p f
    else if s.sys.mode == .unaddressed || (all && s.sys.mode == .preparation) then
      (if 1 ≤ c ∧ c ≤ 254 then s.takeAddr c else s).forward p counted
    else if all then (if c = s.addr then s else s.setFlag aChStat 25).forward p counted
    else s.forward p f

/-! ### The schedule (R335 to R340) -/

/-- CH_CTL.LOCAL. -/
def State.localSched (s : State) : Bool := bit (s.reg (aCh 0)) 2

/-- The periods and offsets in force show in CH_PER and CH_COFF (Table 12.12). -/
def State.showSched (s : State) (p coff : Nat) : State := (s.setReg (aCh 0x18) (word p)).setReg (aCh 0x1C) (word coff)

/-- LOCAL becomes 1 (R340): the first tick instant is the first multiple of CH_PER at or after now. -/
def State.startLocal (s : State) : State :=
  let p := (s.reg (aCh 0x18)).toNat
  let now := (s.now.toNat + 255) / 256
  let first := (now + p - 1) / p * p
  { s with chain := { s.chain with
      sched := some { i := BitVec.ofNat 64 (256 * first) - BitVec.ofNat 64 (256 * p), p := p
                      coff := (s.reg (aCh 0x1C)).toNat, half := true, commit := true }
      per := p, coff := (s.reg (aCh 0x1C)).toNat } }

/-- The output commit instant of the present tick (R336). -/
def Sched.commitAt (x : Sched) : Time64 := x.i + BitVec.ofNat 64 (256 * x.coff)

/-- A schedule taken from a good TICK frame (R336, R337). The passes of the present tick that still wait move with it. -/
def State.takeSched (s : State) (ti : Time64) (p coff : Nat) : State :=
  let s := match s.chain.sched with
    | none =>
      { s with chain := { s.chain with sched := some { i := ti, p := p, coff := coff }, ti := ti } }.showSched p coff
    | some x =>
      if x.i = ti then s
      else
        let waits (d : PassDue) : Bool := d.kind != Pass.chainIn && d.c == x.commitAt
        let moved := s.scan.passes.map fun d => if waits d then { d with due := d.due + (ti - x.i), c := d.c + (ti - x.i) } else d
        { s with chain := { s.chain with sched := some { x with i := ti, skip := 0 }, ti := ti }
                 scan := { s.scan with passes := moved } }.count (aCh 0x38) 0 16
  { s with chain := { s.chain with per := p, coff := coff } }

/-- The record of the unit enters the copy of a train (R342, R304), at the first pass of the copy; a wrapped or folded copy
is kept out on a later pass alone (DEDUCED, log entry 97). -/
def State.insertRecord (s : State) (p : Port) (f : Frame) (tn : Word) : State :=
  let eligible := match s.sys.mode with
    | .preparation | .run | .tracking | .safe => true
    | _ => false
  if !eligible || s.addr == 0 || s.localSched || s.chain.sched.isNone
      || s.chain.inserted.contains f.dir then s
  else
    let s := if s.scan.txNow then s else s.setFlag aScnStat 4
    let s := { s with chain := { s.chain with inserted := s.chain.inserted ++ [f.dir] } }
    let s := s.remember ⟨3, 255, tn.setWidth 8, s.scan.tx⟩
    s.emit (otherPort p) { dst := 255, src := BitVec.ofNat 8 s.addr, type := 3, dir := f.dir, wrap := false
                           fold := false, record := true, seq := tn.setWidth 8, hops := 0, good := true, payload := s.scan.tx }

/-- A TICK frame arrives (R335, R337, R339, R342, R343). -/
def State.tickFrame (s : State) (p : Port) (f : Frame) : State :=
  if !s.hears p || !f.good || f.record || f.type != 3 || s.sys.mode == .recall then s
  else
    let pl := f.payload
    let per := field pl 12 4
    let coff := field pl 16 4
    let tn := word (field pl 8 4)
    if pl.length < 24 ∨ per < 2000 ∨ 2000000 < per ∨ coff < 1 ∨ per ≤ coff then s.chDrop
    else
      let s := if s.localSched then s else s.takeSched (BitVec.ofNat 64 (field pl 0 8)) per coff
      let s := { s.setReg (aCh 0xC) tn with chain := { s.chain with tn := tn } }
      let s := s.setRegFld aChStat 20 4 0
      let s := if s.chain.good then s
        else
          let ring := field pl 21 1 % 2
          let s := if fld (s.reg aChStat) 30 1 = ring then s else (s.setRegFld aChStat 30 1 ring).raise 581
          let s := (s.setRegFld aChStat 0 8 (field pl 20 1)).setReg (aCh 0x58) (word (min 1000 (pl.length - 24)))
          { s with mem := writeBytes s.mem (aCh 0x1000) ((pl.drop 24).take 1000)
                   chain := { s.chain with good := true } }
      s.insertRecord p f tn

/-- A record of a train arrives (R343): the first good copy fills its sender's slot. -/
def State.tickRecord (s : State) (p : Port) (f : Frame) : State :=
  let a := f.src.toNat
  if !s.hears p || !f.good || !f.record || f.type != 3 || s.sys.mode == .recall || a == 0 || a == 255 || a == s.addr
      || s.chain.done || s.chain.got.contains a then s
  else
    let bs := f.payload.take 256
    { s with mem := writeBytes s.mem (chainImage + 256 * (a - 1)) (bs ++ List.replicate (256 - bs.length) 0)
             chain := { s.chain with got := s.chain.got ++ [a] } }

/-- The chain input pass of the present tick becomes due at `due` (Table 11.5). -/
def State.chainDue (s : State) (due : Time64) (miss : Bool) : State :=
  if !s.scan.on then s
  else { s with scan := { s.scan with passes := s.scan.passes ++ [⟨.chainIn, due, 0, miss, false⟩] } }

/-- The exchange of the present tick completes (R343): the own slot from the own snapshot, CH_RXOKj; the chain input pass is
due at `due`, in the next fabric cycle. -/
def State.exchange (s : State) (due : Time64) : State :=
  let own := s.scan.tx.take 256
  let s := if s.addr = 0 ∨ s.addr = 255 then s
    else { s with mem := writeBytes s.mem (chainImage + 256 * (s.addr - 1)) (own ++ List.replicate (256 - own.length) 0)
                  chain := { s.chain with got := s.chain.got ++ [s.addr] } }
  let s := (upTo 8).foldl (fun s j =>
    s.setReg (aCh (0x60 + 4 * j)) (word ((upTo 32).foldl (fun n i =>
      n + (s.chain.got.contains (32 * j + i + 1)).toNat * 2 ^ i) 0))) s
  { s with chain := { s.chain with done := true } }.chainDue due false

/-- A record has been collected for every address 1 to NUNITS (R343). -/
def State.allCollected (s : State) : Bool :=
  (upTo (fld (s.reg aChStat) 0 8)).all fun i => s.chain.got.contains (i + 1) || i + 1 == s.addr

/-- The exchange completes before the half-tick instant (R343). -/
def State.exchangeComplete (s : State) : State :=
  if s.chain.good && !s.chain.done && s.allCollected then s.exchange (periods (s.nowIn 1)) else s

/-- The frames of a heartbeat train (R388): the mirror from byte 16 on, then the status block. -/
def trainFrames (tx : Memory) (paddr : Byte) (tn : Word) (mirlen : Nat) : List OwnFrame :=
  let frame (off n : Nat) (last : Bool) : OwnFrame :=
    ⟨7, paddr, 0, leBytes 4 tn.toNat ++ leBytes 2 off ++ [BitVec.ofNat 8 last.toNat, 0] ++ readBytes tx (aShTx + off) n⟩
  (upTo ((mirlen + 1015) / 1016)).map (fun i => frame (16 + 1016 * i) (min 1016 (mirlen - 1016 * i)) false)
    ++ [frame 0 16 true]

/-- The frames with rising SEQ from `n` on. -/
def numbered (n : Byte) : List OwnFrame → List OwnFrame
  | [] => []
  | f :: fs => { f with seq := n } :: numbered (n + 1) fs

/-- The passes of a tick run in these modes (R294). -/
def Mode.scans : Mode → Bool
  | .preparation | .run | .tracking | .safe => true
  | _ => false

/-- The frames of a heartbeat train whose snapshot is complete and which is not queued (R388). -/
def State.unsent (s : State) : Nat :=
  if !s.paired || !s.shk.snap then 0
  else (trainFrames s.mem 0 0 (field (readBytes s.mem aShTx 16) 4 2)).length

/-- The Shackle unit at a tick instant (R390, R393, R399). Where no local input pass runs in the tick, the status block is written at
once, without a mirror (DESIGN CHOICE, log entry 123). -/
def State.shackleTick (s : State) (tkok : Bool) : State :=
  let s := s.heartbeatEnd
  let s := if s.paired then s.ownDecision tkok else s
  let m := s.sys.mode
  let s := { s with shk := { s.shk with began := if m == .run || m == .tracking then some m else none } }
  if s.paired && !s.scan.on && m.scans then s.writeStatus 0 else s

/-- The tick instant (R336): the schedule moves on, inputs are latched, passes become due, ownership is decided. -/
def State.tick (s : State) : State :=
  match s.chain.sched with
  | none => s
  | some x =>
    if !s.running || !x.half || !x.commit then s
    else
      let i := x.next
      let missed := later s.now i
      let s := s.atChain i
      let new : Sched := { i := i, p := s.chain.per, coff := s.chain.coff }
      let c := s.chain
      let lost := c.train.length + s.unsent
      let s := { s with chain := { c with sched := some new, ti := i, past := c.ti :: c.past, tn := c.tn + 1, prevGood := c.good, good := false
                                          done := false, got := [], inserted := [], train := [] } }
      let s := if s.localSched then s else s.showSched new.p new.coff
      let s := (s.chDrop lost).raise 576
      let levels := (upTo 128).foldl (fun n p => n + (s.pinNow p).toNat * 2 ^ p) 0
      let on := bit (s.reg (aScn 0)) 0 && s.sys.mode.scans
      let lead := BitVec.ofNat 64 (256 * (s.reg (aScn 0x14)).toNat)
      let latched := if missed then periods (i + 255) + 4 * 256 else periods (s.nowIn 4)
      let due : List PassDue := if on then
          [⟨.localIn, latched, new.commitAt, false, false⟩, ⟨.output, new.commitAt - lead, new.commitAt, false, false⟩]
        else []
      let s := { s with scan := { s.scan with
        on := on, latch := BitVec.ofNat 128 levels, txNow := false, passes := s.scan.passes ++ due
        flipDue := s.scan.flipDue || s.scan.flip.any fun t => !later t i } }
      let s := s.shackleTick c.good
      let s := if s.upd.state == 4 && s.upd.armed.any (fun t => !later t i) then { s with upd := { s.upd with due := true } }
        else s
      (upTo 8).foldl (fun s p =>
        if fld (s.reg (aCvt p 0)) 29 2 = 2 then
          (s.cvtRequest p (i + BitVec.ofNat 64 (4 * (s.reg (aCvt p 8)).toNat)) false false).1
        else s) s

/-- The half-tick instant (R336, R339, R340, R343). -/
def State.halfTick (s : State) : State :=
  match s.chain.sched with
  | none => s
  | some x =>
    if !s.running || x.half then s
    else
      let half := x.i + BitVec.ofNat 64 (256 * (x.p / 2))
      let past := later s.now half
      let s := (s.atChain half).raise 577
      let s := { s with chain := { s.chain with sched := some { x with half := true }, opened := s.cycle } }
      let s :=
        if s.localSched then
          { s with chain := { s.chain with per := (s.reg (aCh 0x18)).toNat, coff := (s.reg (aCh 0x1C)).toNat } }
        else if s.chain.good then s
        else
          let s := (s.count aChStat 20 4).count (aCh 0x38) 16 16
          if fld (s.reg aChStat) 20 4 < fld (s.reg (aCh 0)) 8 4 then s
          else
            let s := s.setFlag aChStat 24
            if s.sys.mode == .run || s.sys.mode == .tracking then s.enterSafe 4 else s
      if s.chain.done then s
      else if s.chain.good then s.exchange (if past then half + 256 else periods (s.nowIn 1))
      else { s with chain := { s.chain with done := true } }.chainDue half true

/-- A step of the timebase moves the schedule (R338): tick instants that it passes over do not act. -/
def State.stepSched (s : State) : State :=
  match s.chain.sched with
  | none => s
  | some x =>
    if later s.now x.next then
      let late := (s.now - x.next).toNat
      { s with chain := { s.chain with sched := some { x with skip := x.skip + (late + 256 * x.p - 1) / (256 * x.p) } } }
    else s

/-! ### Time distribution (R345 to R347) -/

def State.probe (s : State) : Port → Probe
  | .a => s.chain.probeA
  | .b => s.chain.probeB

def State.setProbe (s : State) (p : Port) (x : Probe) : State :=
  match p with
  | .a => { s with chain := { s.chain with probeA := x } }
  | .b => { s with chain := { s.chain with probeB := x } }

def aDly : Port → Nat
  | .a => aCh 0x20
  | .b => aCh 0x24

/-- A port has a measured delay (R345): four samples taken. -/
def State.measured (s : State) (p : Port) : Bool := decide (4 ≤ (s.probe p).samples.length)

/-- CH_ASYM for a port. -/
def State.asym (s : State) (p : Port) : Int :=
  (BitVec.ofNat 16 ((s.reg (aCh 0x28)).toNat / (match p with | .a => 1 | .b => 2 ^ 16))).toInt

/-- Delay measurement runs (Table 2.17). -/
def State.measures (s : State) (p : Port) : Bool := s.hears p && s.sys.mode.executes

/-- A TIME payload (Table 12.6). -/
def timePayload (kind flags : Nat) (t1 t2 t3 : Time64) : List Byte :=
  [BitVec.ofNat 8 kind, BitVec.ofNat 8 flags, 0, 0, 0, 0, 0, 0] ++ leBytes 8 t1.toNat ++ leBytes 8 t2.toNat
    ++ leBytes 8 t3.toNat

/-- A probe frame (R345). -/
def probeFrame (p : Port) (payload : List Byte) : Frame :=
  { dst := 0, src := 0, type := 4, dir := p == .b, wrap := false, fold := false, record := false, seq := 0, hops := 0
    good := true, payload := payload }

/-- A probe leaves through the port it belongs to; nothing wraps it. -/
def State.emitProbe (s : State) (p : Port) (payload : List Byte) : State :=
  match p with
  | .a => { s with chain := { s.chain with sentA := some (probeFrame p payload) } }
  | .b => { s with chain := { s.chain with sentB := some (probeFrame p payload) } }

/-- A probe request is sent 1 ms or more after the port's previous one, under a schedule in a window that opened 1 ms or
more after it (R345). -/
def State.probeSend (s : State) (p : Port) : State :=
  if !s.measures p then s
  else
    let from' := (s.probe p).sent.elim 0 (· + 200000)
    let s := if s.chain.sched.isNone then s.atCycle from' else s
    if s.inWindow 32 && (s.chain.sched.isNone || decide (from' ≤ s.chain.opened)) then
      (s.setProbe p { s.probe p with sent := some s.cycle }).emitProbe p (timePayload 1 0 (stampOf s.now) 0 0)
    else s

/-- A probe request is answered at once (R345). -/
def State.probeAnswer (s : State) (p : Port) (f : Frame) (t2 t3 : Time64) : State :=
  if !f.good then (if s.hears p then s.crcCount p else s)
  else if !s.measures p || f.type != 4 || field f.payload 0 1 != 1 then s
  else s.emitProbe p (timePayload 2 0 (BitVec.ofNat 64 (field f.payload 8 8)) t2 t3)

/-- The mean of samples (R345). -/
def mean (l : List Int) : Int := l.foldl (· + ·) 0 / (l.length : Int)

/-- An echo gives one sample (R345). -/
def State.probeEcho (s : State) (p : Port) (f : Frame) (t4 : Time64) : State :=
  if !f.good then (if s.hears p then s.crcCount p else s)
  else if !s.measures p || f.type != 4 || field f.payload 0 1 != 2 || (s.probe p).sent.isNone then s
  else
    let t (o : Nat) : Time64 := BitVec.ofNat 64 (field f.payload o 8)
    let d := ((t4 - t 8).toInt - (t 24 - t 16).toInt) / 2
    let x := s.probe p
    let x := { x with samples := (d :: x.samples).take 16 }
    let s := s.setProbe p x
    if x.samples.length < 4 then s else s.setReg (aDly p) (BitVec.ofInt 32 (mean x.samples))

/-- The range of R232. -/
def clampTrim (v : Int) : Int := if v < -524288 then -524288 else if 524288 < v then 524288 else v

/-- The servo acts on an applied offset (R347). -/
def State.servo (s : State) (t0 : Time64) (o : Int) : State :=
  let x := s.chain.servo
  let stepth : Int := 256 * fld (s.reg (aCh 0x30)) 0 16
  let big := decide (stepth ≤ o.natAbs)
  match (if big then none else x.t0) with
  | none =>
    let s := (s.correct none (some (BitVec.ofInt 64 (-o)))).setSync false
    { s with chain := { s.chain with servo := ⟨some t0, (s.reg aTbRate).toInt, 0, s.cycle⟩ } }
  | some prev =>
    let t : Int := ((t0 - prev).toNat / 256 : Nat)
    let ri := clampTrim (x.ri - o * 2 ^ 24 / (8 * t))
    let s := s.correct (some (BitVec.ofInt 32 (clampTrim (ri - o * 2 ^ 24 / (2 * t))))) none
    let good := if o.natAbs ≤ 51 then x.good + 1 else 0
    let s := { s with chain := { s.chain with servo := ⟨some t0, ri, good, s.cycle⟩ } }
    if 512 < o.natAbs then s.setSync false else if 8 ≤ good then s.setSync true else s

/-- An offset saturated to CH_OFFS. -/
def satOffs (o : Int) : Word := BitVec.ofInt 32 (if o < -2 ^ 31 then -2 ^ 31 else if 2 ^ 31 - 1 < o then 2 ^ 31 - 1 else o)

/-- A distribution frame arrives with its stamp and its residence (R346); one that the unit consumes goes no further (R329). -/
def State.timeFrame (s : State) (p : Port) (f : Frame) (stamp : Time64) (residence : Nat) : State :=
  if !s.hears p || f.type != 4 then s
  else if !f.good then (s.crcCount p).forward p f
  else if 3 ≤ field f.payload 0 1 then s.forward p f
  else if field f.payload 0 1 != 0 then s
  else
    let flags := field f.payload 1 1
    let t0 : Time64 := BitVec.ofNat 64 (field f.payload 8 8)
    let corr : Time64 := BitVec.ofNat 64 (field f.payload 16 8)
    let dly : Int := (s.reg (aDly p)).toNat
    let here : Time64 := BitVec.ofInt 64 (dly + s.asym p)
    let s := if s.consumes f then s
      else if s.measured p then
        s.forward p { f with payload := timePayload 0 flags t0 (corr + here + BitVec.ofNat 64 residence) 0 }
      else s.forward p { f with payload := timePayload 0 (flags / 2 * 2 + 1) t0 corr 0 }
    if flags % 2 == 1 || !s.measured p || bit (s.reg aTbCtl) 0 || s.chain.servo.t0.any (fun t => !later t0 t) then s
    else
      let o := (stamp - (t0 + corr + here)).toInt
      ((s.setReg (aCh 0x2C) (satOffs o)).raise 579).servo t0 o

/-- 100 ms pass without an applied frame (R347). -/
def State.syncTimeout (s : State) : State :=
  if !bit (s.reg aTbStat) 31 || bit (s.reg aTbCtl) 0 then s
  else (s.atCycle (s.chain.servo.since + 20000000)).setSync false

/-! ### Events (R350) -/

/-- A write of CH_EVSEND queues an EVENT frame. -/
def State.evSend (s : State) (v : Word) : State :=
  let n := fld v 0 6
  let s := s.clamp (decide (47 < n)).toNat
  if 4 ≤ (s.chain.own.filter fun f => f.type == 5).length then (s.setFlag (aCh 0x40) 30).chDrop
  else
    let t : Time64 := if bit v 8 then s.reg (aCh 0x50) ++ s.reg (aCh 0x4C) else periods s.now
    s.queueOwn 5 255 ([BitVec.ofNat 8 (min 47 n), 0, 0, 0, 0, 0, 0, 0] ++ leBytes 8 t.toNat
      ++ leBytes 4 (s.reg (aCh 0x44)).toNat ++ leBytes 4 (s.reg (aCh 0x48)).toNat)

/-- An EVENT frame arrives. -/
def State.eventFrame (s : State) (p : Port) (f : Frame) : State :=
  let n := field f.payload 0 1
  if !s.hears p || f.type != 5 || !s.takes f || s.sys.mode == .recall || s.originated f || 47 < n then s
  else match s.fresh f with
  | (s, false) => s
  | (s, true) =>
    let s := { s with mem := writeBytes s.mem (aCh (0x2000 + 8 * n)) ((f.payload.drop 16).take 8) }
    s.raiseIn s.cycle (592 + n) (BitVec.ofNat 64 (field f.payload 8 8))

/-! ### UPDATE and SHACKLE frames (R351, R390, R399) -/

/-- A payload enters CH_UPBUF, or is dropped while it is full (R351). -/
def State.upBuf (s : State) (payload : List Byte) : State :=
  if bit (s.reg (aCh 0x54)) 31 then s.chDrop
  else
    let s := { s with mem := writeBytes s.mem (aCh 0x4000) (payload.take 1024) }
    (s.setReg (aCh 0x54) (word (2 ^ 31 + min 1024 payload.length * 2 ^ 16))).raise 584

/-- The status block of a final heartbeat frame (Table 14.1). -/
def peerOf (tn : Word) (d : List Byte) : Peer :=
  { tn := tn, mode := field d 0 1 % 8, own := field d 1 1 % 2 == 1, heard := field d 1 1 / 2 % 2 == 1
    swreq := field d 1 1 / 8 % 2 == 1, miss := field d 2 1 % 4, mirlen := field d 4 2
    outcrc := word (field d 8 4), take := word (field d 12 4) }

/-- A heartbeat is received (R390, R399): PMISS 0, SHK_PEER, and the comparison of output commit buffers, where both units have
been in Run or Tracking through the tick before. -/
def State.heartbeat (s : State) (x : Peer) : State :=
  let inScan (m : Nat) := m == 3 || m == 4
  let s := s.setReg (aShk 0x18) (word (x.mode * 2 ^ 29 + x.own.toNat * 2 ^ 28 + x.heard.toNat * 2 ^ 27
    + x.swreq.toNat * 2 ^ 26 + x.miss * 2 ^ 24 + x.tn.toNat % 2 ^ 24))
  let s := s.setRegFld (aShk 0x14) 23 2 0
  let s := if x.outcrc != s.shk.prevCrc && s.shk.prevOk && s.shk.prev.any (fun y => inScan y.mode) then
      (s.setFlag (aShk 0x14) 26).count (aShk 0x1C) 0 8
    else s
  { s with shk := { s.shk with peer := some x } }

/-- A SHACKLE frame arrives (R351, R390): one that the unit does not take is no duplicate of a later copy (R329). A frame of the tick
before, which CH_TICKN still names until the present tick's TICK frame, is copied but is no heartbeat of the present tick. -/
def State.shackleFrame (s : State) (p : Port) (f : Frame) : State :=
  if !s.hears p || f.type != 7 || !s.takes f || s.sys.mode == .recall then s
  else
    let tn := word (field f.payload 0 4)
    if f.src.toNat != s.paddr || s.paddr == 0 || tn != s.reg (aCh 0xC) || f.payload.length < 8 then s.chDrop
    else match s.fresh f with
    | (s, false) => s
    | (s, true) =>
      let off := field f.payload 4 2
      let bs := (f.payload.drop 8).take (16384 - off)
      let s := { s with mem := writeBytes s.mem (aShRx + off) bs }
      if tn != s.chain.tn then s
      else
        let s := { s with shk := { s.shk with ranges := s.shk.ranges ++ [(off, bs.length)] } }
        if field f.payload 6 1 % 2 = 0 then s
        else (s.raise 585).heartbeat (peerOf tn (readBytes s.mem aShRx 16))

/-- The heartbeat train of the present tick starts (R388), with the mode of this instant in its status block (Table 14.1). -/
def State.heartbeatSend (s : State) : State :=
  if !s.paired || !s.sys.mode.scans || !s.shk.snap || !(s.chain.sched.any (·.half)) then s
  else
    let s := { s with mem := writeByte s.mem aShTx (BitVec.ofNat 8 s.sys.mode.code) }
    let fs := trainFrames s.mem (BitVec.ofNat 8 s.paddr) s.chain.tn (field (readBytes s.mem aShTx 16) 4 2)
    let n := tabGet 0 s.chain.seqs 7
    { s with
      chain := { s.chain with train := numbered n fs, seqs := tabSet s.chain.seqs 7 (n + BitVec.ofNat 8 fs.length) }
      shk := { s.shk with snap := false } }.sendOwn

/-! ### Registers (R352, R353) -/

/-- CH_STAT as read. -/
def State.chStat (s : State) : Word :=
  let c := s.chain
  s.reg aChStat ||| word (c.sched.isSome.toNat * 2 ^ 31 + c.upA.toNat * 2 ^ 29 + c.upB.toNat * 2 ^ 28
    + (!c.upA && c.upB).toNat * 2 ^ 27 + (c.upA && !c.upB).toNat * 2 ^ 26)

/-- A read in the chain window (Table 12.11). -/
def State.chRead (s : State) (id off : Nat) : State × Word :=
  if 0x1000 ≤ off then (s, readWord s.mem (aCh off))
  else match off with
  | 0x04 => (s, s.chStat)
  | 0x10 => ({ s with chain := { s.chain with tih := tabSet s.chain.tih id (word (s.chain.ti.toNat / 2 ^ 32)) } },
      word s.chain.ti.toNat)
  | 0x14 => (s, tabGet 0 s.chain.tih id)
  | 0x40 => (s, s.reg (aCh 0x40) |||
      word ((decide (4 ≤ (s.chain.own.filter fun f => f.type == 5).length)).toNat * 2 ^ 31))
  | _ => (s, s.reg (aCh off))

/-- The ranges of CH_PER and CH_COFF (Table 12.12). -/
def State.schedRange (s : State) (off : Nat) (v : Word) : Word × Nat :=
  let n := fld v 0 21
  let p := (s.reg (aCh 0x18)).toNat
  if off = 0x18 then (if n < 2000 then (word 2000, 1) else if 2000000 < n then (word 2000000, 1) else (v, 0))
  else if n = 0 then (word 1, 1)
  else if p ≤ n then (word (p - 1), 1)
  else (v, 0)

/-- The clamps of Table 12.12 on a written value, and how many there were. -/
def State.chClamp (s : State) (off : Nat) (v : Word) : Word × Nat :=
  match off with
  | 0x00 => if fld v 8 4 = 0 then (setFld v 8 4 1, 1) else (v, 0)
  | 0x18 | 0x1C => if s.localSched then s.schedRange off v else (s.reg (aCh off), 0)
  | 0x30 => if fld v 0 16 = 0 then (setFld v 0 16 1, 1) else (v, 0)
  | _ => (v, 0)

/-- The action of a write in the chain window beside the common field rules; `old` is the register's word before. -/
def State.chWrite (s : State) (off : Nat) (old v : Word) : State :=
  if 0xC000 ≤ off then { s with mem := writeWord s.mem (aCh off) v }
  else match off with
  | 0x00 =>
    let s := if bit v 3 then
        (upTo 3).foldl (fun s i => (s.clearCount (aCh (0x34 + 4 * i)) 0 16).clearCount (aCh (0x34 + 4 * i)) 16 16) s
      else s
    let s := if bit v 0 then s else s.setPort .a false
    let s := if bit v 1 then s else s.setPort .b false
    if !bit old 2 && bit v 2 && s.sys.mode != .recall then s.startLocal else s
  | 0x18 =>
    if s.localSched && (s.reg (aCh 0x18)).toNat ≤ (s.reg (aCh 0x1C)).toNat then
      (s.setReg (aCh 0x1C) (s.reg (aCh 0x18) - 1)).clamp
    else s
  | 0x40 => s.evSend v
  | 0x54 => if bit v 0 then s.setRegFld (aCh 0x54) 31 1 0 else s
  | _ => s

end Sys2Proof.Machine
end

