-- ==== Sys2Proof/Machine/ThreadCtl.lean ====
section
/-! DEFINITION. Thread contexts (R87 to R90, R164) and thread control (R88 to R96, R135), WAITE and ARM (R136, R138). -/

namespace Sys2Proof.Machine

def ThreadState.code : ThreadState → Nat
  | .stopped => 0 | .ready => 1 | .running => 2 | .waiting => 3 | .trapped => 4 | .halted => 5

/-- The base of the frame whose words still wait: the newest, which lies lowest (R154; log entry 13). -/
def Thread.frameBase (t : Thread) : Option Word :=
  (t.outst.flatMap fun q => q.dests.filterMap fun x =>
    match x.1 with
    | .frame b _ => some b
    | .frameT b => some b
    | _ => none).foldl (fun m b => match m with
      | none => some b
      | some a => some (if b.toNat < a.toNat then b else a)) none

/-- RDIR, selector 0x14 (Table 5.12). -/
def Thread.rdir (t : Thread) : Word :=
  match t.frameBase with
  | none => 0
  | some b =>
    let has (d : Dest) : Nat := (t.pendingOn d).toNat
    word (b.toNat % 2 ^ 16 * 2 ^ 16 + has (.frameT b) * 2 ^ 7 + has (.frame b 15) * 16 + has (.frame b 3) * 8
      + has (.frame b 2) * 4 + has (.frame b 1) * 2 + has (.frame b 0))

/-- WDCNT, selector 0x15: the beats before expiry. -/
def State.wdcnt (s : State) (id : Nat) : Word := word (wdPeriod (s.wdt id) - (s.thr id).wdCount s.cycle)

/-- A selector's value, and whether the selector exists (R90, R164). -/
def State.ctxRead (s : State) (id sel : Nat) : Word × Bool :=
  let t := s.thr id
  if sel < 16 then (t.rd (Fin.ofNat 16 sel), true)
  else match sel with
  | 0x10 => (t.pc, true)
  | 0x11 => (t.status, true)
  | 0x12 => (t.vbase, true)
  | 0x13 => (t.slim, true)
  | 0x14 => (t.rdir, true)
  | 0x15 => (s.wdcnt id, true)
  | 0x16 => (word t.hprev.code, true)
  | _ => (0, false)

/-- A value with only the bits of `mask` kept, and whether a cleared bit was 1 (R89, R153, R164). -/
def keepBits (v mask : Word) : Word × Nat := (v &&& mask, if v &&& mask = v then 0 else 1)

/-- A write of a selector of a thread that is STOPPED, TRAPPED or HALTED (R89, R164), and whether it was made. -/
def State.ctxWrite (s : State) (id sel : Nat) (v : Word) : State × Bool :=
  let t := s.thr id
  if !(t.st == .stopped || t.st == .trapped || t.st == .halted) then (s, false)
  else if sel < 16 then (s.setThr id (t.wr (Fin.ofNat 16 sel) v), true)
  else match sel with
  | 0x10 =>
    let (p, n) := keepBits v 0xFFFC
    ((s.clamp n).updThr id ({ · with pc := p }), true)
  | 0x11 => (s.setThr id { t.cancel .flagT with status := v &&& statusBits }, true)
  | 0x12 =>
    let (p, n) := keepBits v 0xFF00
    ((s.clamp n).updThr id ({ · with vbase := p }), true)
  | 0x13 =>
    let (p, n) := keepBits v 0x1FFFC
    ((s.clamp n).updThr id ({ · with slim := p }), true)
  | _ => (s, false)

/-- The form of TSET, TGET, TGO and TRST (R88): the engine master only; its own number as target clears T. -/
def masterBeat (b : Beat) (reads : List Dest) (ra : Reg) (w : Word) (f : Nat → Nat → State → State × Bool) (s : State) :
    State :=
  beat b { reads := .reg ra :: reads } (fun id s =>
    if id % 16 ≠ 0 then .trap .priv w
    else
      let target := ((s.thr id).rd ra).toNat % 16
      if target = 0 then .next (s.updThr id (·.wrT false))
      else
        let (s, ok) := f id (id - id % 16 + target) s
        .next (s.updThr id (·.wrT ok))) s

/-- An instruction word of format I14 (Table 4.2). -/
def wordI14 (op : Nat) (rd ra : Reg) (imm : Nat) : Word := word (op * 2 ^ 26 + rd.val * 2 ^ 22 + ra.val * 2 ^ 18 + imm)

/-- TSET (R89, R135). -/
def execTset (b : Beat) (rd ra : Reg) (sel : BitVec 8) (s : State) : Out :=
  .next (masterBeat b [.reg rd] ra (wordI14 0x28 rd ra sel.toNat)
    (fun id target s => s.ctxWrite target sel.toNat ((s.thr id).rd rd)) s)

/-- TGET (R90, R135). -/
def execTget (b : Beat) (rd ra : Reg) (sel : BitVec 8) (s : State) : Out :=
  .next (masterBeat b [] ra (wordI14 0x29 rd ra sel.toNat) (fun id target s =>
    let (v, ok) := s.ctxRead target sel.toNat
    (s.updThr id (·.wr rd v), ok)) s)

/-- A STOPPED thread passes to READY at its context pc (R91, R118, R468); while its island does not run its watchdog holds
(R161). -/
def State.toReady (s : State) (id : Nat) : State :=
  (s.fill id (s.thr id).pc).updThr id fun t =>
    let t := t.enter s.cycle .ready
    if s.islandOn (id / 16) then t else { t with wdFrom := none }

/-- TGO's release of a STOPPED thread restarts its watchdog (R91, R161). -/
def State.releaseStopped (s : State) (id : Nat) : State :=
  (s.updThr id (·.wdRestart s.cycle)).toReady id

/-- TGO (R91). -/
def execTgo (b : Beat) (ra : Reg) (s : State) : Out :=
  .next (masterBeat b [] ra (wordI14 0x2A 0 ra 0) (fun _ target s =>
    if (s.thr target).st = .stopped then (s.releaseStopped target, true) else (s, false)) s)

/-- TRST (R93). -/
def execTrst (b : Beat) (ra : Reg) (s : State) : Out :=
  .next (masterBeat b [] ra (wordI14 0x2C 0 ra 0) (fun _ target s => (s.resetThread target, true)) s)

/-- TSTOP (R92). -/
def execTstop (b : Beat) (s : State) : Out :=
  .next (beat b {} (fun id s => .hold ((s.advance id).setSt id .stopped)) s)

/-- YIELD (R78). -/
def execYield (b : Beat) (s : State) : Out :=
  .next (beat b {} (fun id s =>
    if s.timed (id / 16) (id % 16) then .next s
    else .hold (((s.advance id).setSt id .ready).updEng (id / 16) ({ · with yielded := some b.thr }))) s)

/-- PRIO (R96). -/
def execPrio (b : Beat) (n : BitVec 3) (s : State) : Out :=
  .next (beat b {} (fun id s => .next (s.setRegFld (aThcfg (id / 16) (id % 16)) 8 3 n.toNat)) s)

/-- ARM (R136). -/
def execArm (b : Beat) (mask : BitVec 4) (s : State) : Out :=
  .next (regBeat b [] (fun t => { t with armed := mask }) s)

/-- A wait that has completed at once did not suspend its thread (R78, R86, Tables 3.2 and 3.13): a slack thread has given up the pool
and is READY, a timed thread stays RUNNING. -/
def State.atOnce (s : State) (id : Nat) : State :=
  if (s.thr id).st == .ready && s.timed (id / 16) (id % 16) then s.updThr id (·.enter s.cycle .running) else s

/-- WAITE (R138): it suspends, and completes at once where an armed input holds an event; either way a slack thread
gives up the pool (R78). -/
def execWaite (b : Beat) (rd : Reg) (s : State) : Out :=
  .next (beat b {} (fun id s =>
    .hold (((s.setSt id .waiting).updThr id fun t => { t.cancel (.reg rd) with wait := .event rd }).tryWaite id |>.atOnce id)) s)

end Sys2Proof.Machine
end

