-- ==== Sys2Proof/Machine/EngRegs.lean ====
section
/-! DEFINITION. Engine registers, trap registers, debug registers and error registers (Tables 3.4 to 3.10, 5.5 to 5.11,
6.6 to 6.9) as read and as written, debug halts (R163 to R167), and the scrubber (R182 to R184). Offsets are from
0x500F_0000. -/

namespace Sys2Proof.Machine

def aSys (off : Nat) : Nat := 0x500F0000 + off

/-! ### Engine and trap blocks -/

/-- The code of ENG_THWAIT (Table 3.9). -/
def Thread.waitCode (t : Thread) : Nat :=
  if t.st != .waiting then 0 else match t.wait with
  | .none => 0
  | .event _ => 1
  | .lock _ => 2
  | _ => 3

/-- Eight 4-bit state codes from thread `t` on (Table 3.8). -/
def State.thst (s : State) (k t : Nat) : Word :=
  word ((upTo 8).foldl (fun n j => n + (s.thr (16 * k + t + j)).st.code * 2 ^ (4 * j)) 0)

/-- A read of the block of engine `k` (Table 3.4). A block of a pair shows the state of the pair (R98). ENG_REV counts on while
a Twin stop holds the rotation (R74, R100; DESIGN CHOICE, log entry 116). -/
def State.engRead (s : State) (k off : Nat) : Word :=
  let e := s.lead k
  let x := s.eng e
  match off with
  | 0x04 => word ((s.eng k).twinStop.toNat * 2 ^ 8 + x.holder.isSome.toNat * 2 ^ 5 + x.holder.elim 0 Fin.val)
  | 0x08 => word (x.commitPend.toNat * 2)
  | 0x30 => s.thst e 0
  | 0x34 => s.thst e 8
  | 0x38 => word ((upTo 16).foldl (fun n t => n + (s.thr (16 * e + t)).waitCode * 2 ^ (2 * t)) 0)
  | 0x3C => if x.power == .on then word ((s.cycle - x.lockedAt) / 32) else 0
  | _ => s.reg (aEng e off)

/-- The action of a write to the block of engine `k` beside the common field rules (R84, R94, R161). A commit asked for again is
a new request (R38). A write that clears an IEN bit does not try a wait anew (R145; DESIGN CHOICE, log entry 117). -/
def State.engWrite (s : State) (k off : Nat) (old v : Word) : State :=
  if off = 0 then
    if fld v 16 16 = 0xE5C2 && bit v 0 then s.engineReset k else s
  else if off = 8 then
    if bit v 0 then
      let s := if (s.eng k).commitPend then s.noteSet (aEng k 8) 1 else s
      s.updEng k ({ · with commitPend := true })
    else s
  else if 0x40 ≤ off && off < 0x80 then
    if fld old 5 3 = fld v 5 3 then s else s.updThr (16 * k + (off - 0x40) / 4) (·.wdRestart s.cycle)
  else s

/-- A TRAPPED thread is released to READY at its context pc (R159, R161); a HALTED one that was TRAPPED resumes as READY
(R165). -/
def State.releaseTrapped (s : State) (id : Nat) : State :=
  let t := s.thr id
  if t.st = .trapped then s.releaseStopped id
  else if t.st = .halted && t.hprev = .trapped then s.setThr id { t.wdRestart s.cycle with hprev := .ready }
  else s

/-- The action of a write to the trap block of engine `k` (Tables 5.6, 5.7). -/
def State.trpWrite (s : State) (k off : Nat) (v : Word) : State :=
  match off with
  | 0x04 => ((bitsOf v).filter fun t => decide (t < 16)).foldl (fun s t => s.releaseTrapped (16 * k + t)) s
  | 0x08 => if bit v 31 && !bit (s.reg (aTrp k 8)) 31 then s.setRegFld (aTrp k 8) 30 1 0 else s
  | _ => s

/-- The wheel takes effect (R84, R85): the next position 0. A timed thread that loses all positions is READY where it was
RUNNING; a holder that gains one leaves the pool. A stopped Twin pair turns no further (R100). A commit asked for anew in this cycle stays pending (R38). -/
def State.wheelSwitch (s : State) (k : Nat) : State :=
  if !(s.eng k).commitPend || !s.islandOn k || (s.eng k).twinStop then s else
    let again := s.setNow (aEng k 8) 1
    let old := (upTo 16).filter (s.timed k)
    let s := (upTo 4).foldl (fun s i => s.setReg (aEng k (0x20 + 4 * i)) (s.reg (aEng k (0x10 + 4 * i)))) s
    let s := s.updEng k fun e =>
      { e with commitPend := again, holder := e.holder.filter fun (h : Fin 16) => !s.timed k h.val }
    (old.filter fun t => !s.timed k t && (s.thr (16 * k + t)).st == .running).foldl
      (fun s t => s.setSt (16 * k + t) .ready) s

/-! ### Debug (R163 to R168) -/

/-- A halt request lands for thread `id` (R165): a RUNNING thread halts at its next boundary, any other at once. -/
def State.requestHalt (s : State) (id : Nat) : State :=
  match (s.thr id).st with
  | .halted => s
  | .running => s.updThr id ({ · with haltReq := true })
  | _ => s.halt id

/-- A HALTED thread resumes (R165, R167): the state in HPREV, the fetch-ahead word refilled; an event that came while
it was halted completes its WAITE. A halt that a thread has not yet taken is withdrawn (DESIGN CHOICE, log entry 90); the
refilled word has no vector mark (DESIGN CHOICE, log entry 93). -/
def State.resume (s : State) (id : Nat) : State :=
  let t := s.thr id
  if t.st ≠ .halted then s.updThr id ({ · with haltReq := false, frozen := false })
  else
    let s := s.fill id t.pc
    let s := s.updThr id fun t => { t.enter s.cycle t.hprev with bpSkip := some t.pc, frozen := false }
    (s.tryWaite id).farWake id

/-- A step (R166); a frozen thread stays one that FREEZE returning to 0 resumes. -/
def State.stepThread (s : State) (id : Nat) : State :=
  let t := s.thr id
  if t.st = .halted && t.hprev = .ready then (s.resume id).updThr id ({ · with stepping := true, frozen := t.frozen }) else s

/-- Engines whose islands run. -/
def State.onEngines (s : State) : List Nat := (upTo 16).filter s.islandOn

/-- Every thread of every running engine; a Twin pair has those of its even engine (R98). -/
def State.onThreads (s : State) : List Nat :=
  (s.onEngines.filter fun k => s.lead k == k).flatMap fun k => (upTo 16).map (16 * k + ·)

/-- FREEZE at `b` acts on the threads `ids` (R165). -/
def State.freezeThreads (s : State) (b : Bool) (ids : List Nat) : State :=
  if b then ids.foldl (fun s id =>
    if (s.thr id).st = .halted then s else (s.requestHalt id).updThr id ({ · with frozen := true })) s
  else (ids.filter fun id => (s.thr id).frozen).foldl (fun s id => s.resume id) s

/-- FREEZE becomes 1 or 0 (R165). A thread whose island does not run meets FREEZE as it stands when the island locks. -/
def State.freeze (s : State) (b : Bool) : State := s.freezeThreads b s.onThreads

/-- A write of DBG_CTL (R165, R250, R252). -/
def State.dbgCtlWritten (s : State) (old v : Word) : State :=
  let s := if bit old 0 == bit v 0 then s else s.freeze (bit v 0)
  if (bit old 0 && bit old 1) && !(bit v 0 && bit v 1) then s.lfEnd else s

/-- A refused DBG_CTXDATA or DBG_MDATA access sets ERR (Table 5.10). -/
def State.dbgErr (s : State) : State := s.setFlag aDbgCtl 3

/-- An access of `ident` to DBG_CTXDATA (R163): a read, or a write of `wr`. A write of a read-only selector sets ERR (DESIGN
CHOICE, log entry 92). -/
def State.ctxData (s : State) (ident : Nat) (wr : Option Word) : State × Word :=
  let sel := s.reg (aSys 0x3004)
  let k := s.lead (fld sel 12 4)
  let id := 16 * k + fld sel 8 4
  if !s.islandOn k then ((s.gateCount ident).dbgErr, 0)
  else match wr with
  | none => (s, (s.ctxRead id (fld sel 0 8)).1)
  | some v =>
    let (s', ok) := s.ctxWrite id (fld sel 0 8) v
    (if ok then s' else s.dbgErr, 0)

/-- An access to DBG_MDATA by `id` (R163, R173, R177): the word at DBG_MADDR, which then advances. -/
def State.mData (s : State) (id : Nat) (wr : Option Word) : State × Word :=
  let r := s.reg (aSys 0x300C)
  let k := fld r 17 4
  let a := 4 * fld r 2 15
  let s := s.setReg (aSys 0x300C) (setFld r 2 15 (if a = 0x13FFC then 0 else a / 4 + 1))
  if !s.islandOn k then ((s.gateCount id).dbgErr, 0)
  else
    let s := s.flushLocalAt k a
    match wr with
    | some v =>
      let s := s.writeCode (engKey k a) v.toNat
      (if a < 0x10000 then s.snoop k a v else s, 0)
    | none => match s.readCode (engKey k a) 0 id with
      | (s, some v) => (s, word v)
      | (s, none) => (s.dbgErr, 0)

/-- The action of a write to the debug registers of engine `k` (Table 5.11); of an island that does not run it is lost
(DESIGN CHOICE, log entry 89). -/
def State.dbgWrite (s : State) (k off : Nat) (v : Word) : State :=
  if !s.islandOn k then s else
  let ids := ((bitsOf v).filter fun t => decide (t < 16)).map (16 * k + ·)
  match off with
  | 0x00 => ids.foldl (fun s id => s.requestHalt id) s
  | 0x04 => ids.foldl (fun s id => s.resume id) s
  | 0x08 => ids.foldl (fun s id => s.stepThread id) s
  | _ => s

/-! ### Error registers and the scrubber -/

/-- Code words of memory `m` (Table 6.1). -/
def cwCount (m : Nat) : Nat :=
  if m < 16 then 16384 else if m < 32 then 4096 else if m = 32 then 49152 else if m = 33 then 16384 else 8192

/-- The address of code word `i` of memory `m`. -/
def cwKey (m i : Nat) : Nat :=
  if m < 16 then engKey m (4 * i) else if m < 32 then engKey (m - 16) (0x10000 + 4 * i)
  else if m = 32 then 0x40000000 + 8 * i else if m = 33 then 0x50080000 + 8 * i else 0x60000000 + 8 * i

/-- The island of memory `m` runs. -/
def State.memRuns (s : State) (m : Nat) : Bool := if m < 32 then s.islandOn (m % 16) else s.running

/-- The lap figure of memory `m` (R184). -/
def State.lapOf (s : State) (m : Nat) : Nat := min 0xFFFFFFFF (max (s.reg (aEcc m 0x14)).toNat (s.lapCount m / 200))

/-- The memory with the largest lap figure, the lowest of several, and that figure (R184); memory 0 while every figure is
0 (Table 6.8). -/
def State.lap (s : State) : Nat × Nat :=
  (((upTo 35).filter s.memRuns).map fun m => (m, s.lapOf m)).foldl (fun b x => if b.2 < x.2 then x else b) (0, 0)

/-- ECC_UST.VALID of `n` memories from `m` on as bits. -/
def State.ustBits (s : State) (m n : Nat) : Word :=
  word ((upTo n).foldl (fun x i => x + (bit (s.reg (aEcc (m + i) 12)) 31).toNat * 2 ^ i) 0)

/-- A read of the error registers. -/
def State.eccRead (s : State) (off : Nat) : Word :=
  match off with
  | 0x4004 => s.ustBits 0 32
  | 0x4008 => s.ustBits 32 3
  | 0x400C => word s.lap.2
  | 0x4010 => word s.lap.1
  | _ =>
    if 0x4100 ≤ off && off < 0x4560 && (off - 0x4100) % 0x20 == 0x18 then
      let m := (off - 0x4100) / 0x20
      word (reported (cwKey m (tabGet 0 s.ecc.pos m)))
    else s.reg (aSys off)

/-- The action of a write to the error registers (Tables 6.8, 6.9). -/
def State.eccWrite (s : State) (off : Nat) (v : Word) : State :=
  match off with
  | 0x4000 =>
    if bit v 2 then (upTo 35).foldl (fun s m => (s.clearCount (aEcc m 0) 0 16).clearCount (aEcc m 0) 16 16) s else s
  | 0x4014 => if bit v 31 then s.armFlag aEccInj 31 else s
  | _ =>
    if 0x4100 ≤ off && (off - 0x4100) % 0x20 == 0x0C && bit v 31 && !bit (s.reg (aSys off)) 31 then s.setRegFld (aSys off) 30 1 0 else s

/-- A timed thread is stalled (R78, R79): what its latest beat stalled on has not come. -/
def State.stalled (s : State) (id : Nat) : Bool :=
  let t := s.thr id
  t.st == .running && t.wait != .none && !s.farReady id

/-- A position of engine `k` passes unused (R79): no thread executes at it, or the timed thread that owns it is stalled. -/
def State.freePosition (s : State) (k : Nat) : Bool :=
  let e := s.lead k
  !s.engRuns e || (upTo 16).any fun p => (s.atPosition e p).all fun t => s.timed e t && s.stalled (16 * e + t)

/-- The scrubber has room for a step in memory `m` (R182): an engine memory needs an unused position. -/
def State.scrubRoom (s : State) (m : Nat) : Bool := decide (32 ≤ m) || s.freePosition (m % 16)

/-- One scrubber step of memory `m` (R182 to R184). -/
def State.scrub (s : State) (m : Nat) : State :=
  if !s.sys.mode.executes || !bit (s.reg (aSys 0x4000)) 0 || !s.memRuns m || !s.scrubRoom m then s else
    let pos := tabGet 0 s.ecc.pos m
    let (s, key) := match tabFind s.ecc.repair m with
      | some key => ({ s with ecc := { s.ecc with repair := tabErase s.ecc.repair m } }, key)
      | none =>
        let last := pos + 1 == cwCount m
        let s := { s with ecc := { s.ecc with pos := tabSet s.ecc.pos m (if last then 0 else pos + 1) } }
        let s := if last then
            let us := s.lapCount m / 200
            ({ s with ecc := { s.ecc with lapAcc := tabErase s.ecc.lapAcc m
                                          lapFrom := tabSet s.ecc.lapFrom m s.cycle } }).setReg (aEcc m 0x14)
              (word (min 0xFFFFFFFF us))
          else s
        (s, cwKey m pos)
    let bad := tabGet 0 s.ecc.bad key
    let raw := s.rawWord key
    match s.readCode key 1 0 with
    | (s, none) => s
    | (s, some v) =>
      if bad = 0 then s
      else if ones bad = 1 ∨ v ≠ raw then
        { s with mem := writeBytes s.mem key (leBytes (cwBytes m) v), ecc := { s.ecc with bad := tabErase s.ecc.bad key } }
      else s

/-- SCRUB_STEP (R183). -/
def execScrubStep (m : Fin 35) (s : State) : Out := .next (s.scrub m.val)

end Sys2Proof.Machine
end

