-- ==== Sys2Proof/Machine/FarReply.lean ====
section
/-! DEFINITION. Replies to far requests (R126, R143, R154), and PSET and PCAP requests as they land in the pad island
(R259, R270). -/

namespace Sys2Proof.Machine

/-- The reply to request `n` of thread `id` can reach the thread: no earlier request of the thread to the same island still
waits for its own (R27), the engine's island runs, its pair is not stopped (R100). -/
def State.replyOpen (s : State) (id n : Nat) : Bool :=
  (s.thr id).nextReply n && s.islandOn (id / 16) && !(s.eng (id / 16)).twinStop

/-- Far reply number `n` of thread `id` arrives (R126): its values reach their destinations, its request is no longer
outstanding. -/
def State.farReply (s : State) (id n : Nat) : State :=
  match (s.thr id).outst[n]? with
  | none => s
  | some q =>
    if q.phase == .done && q.err.isNone && s.replyOpen id n then
      ((q.dests.foldl (fun s d => s.deliver id d.1 d.2) s).updThr id (·.dropReq n)).farWake id
    else s

/-- Error reply number `n` of thread `id` arrives (R143): its destinations receive 0, the trap becomes due, a wait
ends; one that a HALTED thread resumes into ends where no source of it is pending any more (R165). -/
def State.farError (s : State) (id n : Nat) : State :=
  match (s.thr id).outst[n]? with
  | none => s
  | some q =>
    match q.err with
    | none => s
    | some e =>
      if q.phase == .done && s.replyOpen id n then
        let s := q.dests.foldl (fun s d => s.deliver id d.1 0) s
        let s := s.updThr id fun t =>
          { t.dropReq n with errs := errInsert ⟨e.1, e.2, q.pc, q.ord, s.cycle⟩ t.errs }
        (s.leaveWait id).farWake id
      else s

/-- FAR_REPLY (R126). -/
def execFarReply (eng thr : Fin 16) (n : Nat) (s : State) : Out := .next (s.farReply (16 * eng.val + thr.val) n)

/-- FAR_ERROR_REPLY (R143). -/
def execFarErrorReply (eng thr : Fin 16) (n : Nat) (s : State) : Out := .next (s.farError (16 * eng.val + thr.val) n)

/-- The oldest request in flight of the instruction at `pc` has been answered by the pad island with the values of its
destinations. -/
def answerFlight (pc : Word) (f : Dest → Word) : List FarReq → List FarReq
  | [] => []
  | q :: qs =>
    if q.phase == .flight && q.pc == pc then
      { q with phase := .done, dests := q.dests.map fun d => (d.1, f d.1) } :: qs
    else q :: answerFlight pc f qs

/-- The value of each destination of a PCAP into rd, rd + 1 and T (R137, R270), as the entry of R154 may have moved
it. -/
def pcapValue (rd : Reg) (stamp : Option Time64) : Dest → Word
  | .reg r => if r = rd then word ((stamp.getD 0).toNat) else word ((stamp.getD 0).toNat / 2 ^ 32)
  | .frame _ r => if r = rd then word ((stamp.getD 0).toNat) else word ((stamp.getD 0).toNat / 2 ^ 32)
  | .flagT => bitWord stamp.isSome
  | .frameT _ => bitWord stamp.isSome

/-- The oldest request of engine `k` on its way to the pad island lands (R27, R259, R270). -/
def State.padLand (s : State) (k : Nat) : State :=
  match (s.eng k).padReqs with
  | [] => s
  | r :: rs =>
    let s := s.updEng k ({ · with padReqs := rs })
    match r.pset with
    | some (lvl, off) =>
      (s.psetLand r.pad lvl off).updThr r.thr fun t => { t with outst := answerFlight r.pc (fun _ => 0) t.outst }
    | none =>
      let (s, v) := s.stampOut r.pad
      s.updThr r.thr fun t => { t with outst := answerFlight r.pc (pcapValue r.rd v) t.outst }

/-- The requests of thread `id` on their way to the pad island land, with those ahead of them: a later access of the thread
through that crossing stays behind them (R27). -/
def State.padCatch (s : State) (id : Nat) : State :=
  (s.eng (id / 16)).padReqs.foldl (fun s _ =>
    if (s.eng (id / 16)).padReqs.any fun r => r.thr == id then s.padLand (id / 16) else s) s

/-- The kind of the oldest request on its way to the pad island. -/
def State.padHead (s : State) (k : Nat) : Option Bool := ((s.eng k).padReqs.head?).map (·.pset.isSome)

/-- PSET_LAND (R259). -/
def execPsetLand (eng : Fin 16) (s : State) : Out :=
  .next (if s.padHead eng.val = some true && s.islesUp then s.padLand eng.val else s)

/-- PCAP_LAND (R270). -/
def execPcapLand (eng : Fin 16) (s : State) : Out :=
  .next (if s.padHead eng.val = some false && s.islesUp then s.padLand eng.val else s)

/-- Far loads of engine `k` that are pending when it enters retention complete into their registers, behind the earlier
replies of their crossing (R64). -/
def State.settleFar (s : State) (k : Nat) : State :=
  let s := (s.eng k).padReqs.foldl (fun s _ => s.padLand k) s
  (upTo 16).foldl (fun s t =>
    (upTo 8).foldl (fun s _ =>
      let l := (s.thr (16 * k + t)).outst
      match l.findIdx? fun q => q.phase == .done with
      | some n =>
        if (l[n]?).any (·.err.isSome) then s.farError (16 * k + t) n else s.farReply (16 * k + t) n
      | none => s) s) s

end Sys2Proof.Machine
end

