-- ==== Sys2Proof/Machine/KeeperNv.lean ====
section
/-! DEFINITION. The raw area of the NV macro (R402, R412 to R415): pages, the segments of a raw write, and the outcome
of a raw write that is cut short. Ring slots, and the outcome of a slot write that is cut short (R416, R417, R420). -/

namespace Sys2Proof.Machine

/-- NPAGES for the NVSIZE strap (R402, R452): 512 pages for each 128 KB. -/
def State.npages (s : State) : Nat := 512 * (s.sys.straps.nvsize.toNat + 1)

/-- LIMIT (R403). -/
def State.nvLimit (s : State) : Nat := 7 * s.npages / 8

/-- Address of a byte of a page of the macro in the model's own view (log entry 5). -/
def nvKey (page off : Nat) : Nat := 0x80000000 + 256 * page + off

/-- Address of a byte of a raw page: page RAWBASE + `page` of the macro (R402, Table 15.7). -/
def State.rawKey (s : State) (page off : Nat) : Nat := nvKey (s.npages - s.nv.rawcnt + page) off

/-- The page offsets of a raw access, in order: (s + k) mod 256 (R412). -/
def rawOffs (start n : Nat) : List Nat := (upTo n).map fun k => (start + k) % 256

/-- The segments of a raw write (R412): maximal runs in one page word, as the numbers k of their bytes. -/
def segments (start n : Nat) : List (List Nat) :=
  (upTo n).foldl (fun segs k =>
    if k ≠ 0 && (start + k) % 256 % 4 != 0 then
      match segs.reverse with
      | last :: before => (before.reverse) ++ [last ++ [k]]
      | [] => [[k]]
    else segs ++ [[k]]) []

/-- The bytes numbered `ks` of a raw write reach their page. -/
def State.rawPut (s : State) (page start : Nat) (data : List Byte) (ks : List Nat) : State :=
  { s with mem := ks.foldl (fun m k => writeByte m (s.rawKey page ((start + k) % 256)) (data.getD k 0)) s.mem }

/-- A raw read (R415). -/
def State.rawGet (s : State) (page start n : Nat) : List Byte :=
  (rawOffs start n).map fun o => readByte s.mem (s.rawKey page o)

/-- A Keeper command that a reset or a power failure cuts short (R414, R423, R425): a raw write stops at a progress that
is a free value, its next segment wholly old or wholly new; anything else leaves the macro as it was. -/
def State.cutRaw (s : State) : State :=
  match s.kpr.cmd with
  | none => s
  | some c =>
    if c.op ≠ 2 ∨ s.nv.rawcnt ≤ c.arg then s
    else
      let segs := segments c.start (c.lenm1 + 1)
      let (s, n) := s.drawNat
      match n % (segs.length + 2) with
      | 0 => { s with nv := { s.nv with journal := none } }
      | p + 1 =>
        let s := s.rawPut c.arg c.start c.data ((segs.take p).flatten)
        let (s, b) := s.drawBit
        let s := if b then s.rawPut c.arg c.start c.data (segs.getD p []) else s
        { s with nv := { s.nv with journal :=
            if p < segs.length then some ⟨c.arg, c.start, c.lenm1, p⟩ else none } }

/-! ### Ring slots (R416, R417, R420) -/

/-- L. -/
def RingItem.bytes (r : RingItem) : Nat := 4 * (r.lw + 1)

/-- A whole slot (Table 15.4): the value, SEQ, the CRC-16 over both, zeros. -/
def slotBytes (v : List Byte) (seq : Word) : List Byte :=
  let b := v ++ leBytes 4 seq.toNat
  b ++ leBytes 4 (crc16 b).toNat

/-- The CRC of a slot's bytes is good. -/
def RingItem.good (r : RingItem) (b : List Byte) : Bool :=
  (crc16 (b.take (r.bytes + 4))).toNat == leNat ((b.drop (r.bytes + 4)).take 2)

/-- SEQ of a slot's bytes. -/
def RingItem.seqOf (r : RingItem) (b : List Byte) : Word := BitVec.ofNat 32 (leNat ((b.drop r.bytes).take 4))

/-- SEQ `a` is later than `b` (R417). -/
def seqLater (a b : Word) : Bool := a != b && decide ((a - b).toNat < 2 ^ 31)

/-- The current slot of an item (R417): its number and its bytes. -/
def RingItem.current (r : RingItem) : Option (Nat × List Byte) :=
  r.store.foldl (fun (best : Option (Nat × List Byte)) x =>
    if !r.good x.2 then best
    else match best with
      | none => some x
      | some b => if seqLater (r.seqOf x.2) (r.seqOf b.2) then some x else best) none

/-- The slot that try `j` of a step writes, with its SEQ (R417, R419). -/
def RingItem.target (r : RingItem) (j : Nat) : Nat × Word :=
  match r.current with
  | none => (j % r.slots, BitVec.ofNat 32 (j + 1))
  | some (i, c) => ((i + 1 + j) % r.slots, r.seqOf c + BitVec.ofNat 32 (j + 1))

/-- Ring management runs (R418, Table 2.17). -/
def State.ringRuns (s : State) : Bool := s.sys.mode.executes && !s.kpr.scan && !s.kpr.noNv

/-- The slot write of the oldest queued item is in progress, which the Keeper's own timing decides: a free value until it is known
(log entry 126). -/
def State.ringBusy (s : State) : State × Bool :=
  if s.kpr.writing then (s, true)
  else if !s.ringRuns then (s, false)
  else
    let (s, b) := s.drawBit
    ({ s with kpr := { s.kpr with writing := b } }, b)

/-- A reset or a power failure cuts a slot write short (R420, R423): the words written so far, a free number, are new. -/
def State.cutRing (s : State) : State :=
  match s.kpr.queue with
  | [] => s
  | (i, v) :: _ =>
    match s.ringBusy, tabFind s.nv.rings i with
    | (s, true), some r =>
      let (s, n) := s.drawNat
      let k := 4 * (n % (r.lw + 4))
      let t := r.target 0
      let slot := (slotBytes v t.2).take k ++ (tabGet (List.replicate (r.bytes + 8) 0) r.store t.1).drop k
      { s with nv := { s.nv with rings := tabSet s.nv.rings i { r with store := tabSet r.store t.1 slot } } }
    | (s, _), _ => s

end Sys2Proof.Machine
end

