-- ==== Sys2Proof/Machine/Tumbler.lean ====
section
/-! DEFINITION. The Tumbler unit (chapter 7): acquisitions, releases, waiting, mark clears, queries, mail channels, and
the registers of its window. Requests take effect in the order in which they are queued, those of one cycle in the order of
Table 7.2 (log entries 8, 83). -/

namespace Sys2Proof.Machine

def aTum (off : Nat) : Nat := 0x50040000 + off

/-- A request of master `id` at a step of Table 7.2 takes its turn (R195): where the order of the cycle puts it before one that
has acted, it lands in the next cycle (log entry 83). Steps 2 to 5 are those of the table, 6 and 7 are mail writes of word 0
and word 1, 8 are reads. -/
def State.tumTurn (s : State) (step id : Nat) : State :=
  let r := 1024 * step + id
  let s := if r < s.sameNow.tumRank then s.pass 1 else s
  s.note ({ · with tumRank := r })

/-- The entries of the lock table in use (R191). -/
def State.lockCount (s : State) : Nat := s.tum.locks.length

/-- Table 4.18 with the further codes of TUM_LRES (Table 7.7). -/
inductive LockCode where
  | taken
  | broken
  | held
  | full
  | released
  | ignored
  | clear
  deriving DecidableEq, Repr

def LockCode.code : LockCode → Nat
  | .taken => 0 | .broken => 1 | .held => 2 | .full => 3 | .released => 4 | .ignored => 5 | .clear => 6

/-- The lock table with the lock at `a` held by `id`. -/
def State.holdLock (s : State) (id a : Nat) : State :=
  { s with tum := { s.tum with locks := tabSet s.tum.locks a (.held id) } }

/-- An acquisition (R192, Table 7.1). -/
def State.acquire (s : State) (id a : Nat) : State × LockCode :=
  let s := s.tumTurn 3 id
  match tabFind s.tum.locks a with
  | some .marked => (s.holdLock id a, .broken)
  | some (.held h) => (s, if h = id then .taken else .held)
  | none => if s.lockCount < 4096 then (s.holdLock id a, .taken) else (s.count (aTum 8) 16 16, .full)

/-- A release (R193). -/
def State.release (s : State) (id a : Nat) : State × LockCode :=
  let s := s.tumTurn 2 id
  if tabFind s.tum.locks a = some (.held id) then (s.freeLock a false, .released)
  else (s.count (aTum 8) 0 16, .ignored)

/-- The BROKEN mark of the lock at `a` is cleared (R198). -/
def State.clearMark (s : State) (a : Nat) : State :=
  if tabFind s.tum.locks a = some .marked then
    { s with tum := { s.tum with locks := tabErase s.tum.locks a } }
  else s

/-- Every BROKEN mark is cleared (R198). -/
def State.clearMarks (s : State) : State :=
  { s with tum := { s.tum with locks := tabDrop (fun _ l => l == .marked) s.tum.locks } }

/-- The lock at `a` is held by some identity. -/
def State.lockHeld (s : State) (a : Nat) : Bool :=
  match tabFind s.tum.locks a with
  | some (.held _) => true
  | _ => false

/-- The image address of a WOFF field, clamped (Table 7.7), with the number of clamps. -/
def lockAddr (woff : Nat) : Nat × Nat :=
  if woff < 0x18000 then (0x40000000 + 4 * woff, 0) else (0x4005FFFC, 1)

/-- The outcome of a lock request of `id` is kept for it (R196). -/
def State.lockResult (id : Nat) (r : State × LockCode) : State :=
  { r.1 with tum := { r.1.tum with lres := tabSet r.1.tum.lres id (word r.2.code) } }

/-- A write of TUM_LREQ by `id` (R196). -/
def State.lreq (s : State) (id : Nat) (v : Word) : State :=
  let (a, n) := lockAddr (fld v 2 17)
  let op := fld v 30 2
  let s := s.clamp (n + if op = 3 then 1 else 0)
  State.lockResult id (match op with
    | 1 => s.release id a
    | 2 => ((s.tumTurn 5 id).clearMark a, .clear)
    | _ => s.acquire id a)

/-- A write of TUM_LQRY by `id` (R196, Table 7.7). -/
def State.lqry (s : State) (id : Nat) (v : Word) : State :=
  let (a, n) := lockAddr (fld v 2 17)
  let s := (s.clamp n).tumTurn 8 0
  let info := match tabFind s.tum.locks a with
    | some (.held h) => 2 ^ 31 + h
    | some .marked => 2 ^ 30
    | none => 0
  let w := (s.tum.waiters.any fun x => x.2 == a).toNat * 2 ^ 29
  { s with tum := { s.tum with linfo := tabSet s.tum.linfo id (word (info + w)) } }

def State.mailCh (s : State) (c : Nat) : Mail := tabGet {} s.tum.mail c

def State.setMail (s : State) (c : Nat) (m : Mail) : State :=
  { s with tum := { s.tum with mail := tabSet s.tum.mail c m } }

/-- Word 0 of channel `c` is staged by `id` (R199). -/
def State.mailStage (s : State) (id c : Nat) (v : Word) : State :=
  let s := s.tumTurn 6 id
  let m := s.mailCh c
  let s := if m.half && m.writer != id then s.count (aTum 12) 16 16 else s
  s.setMail c { m with half := true, stage := v, writer := id }

/-- Word 1 of channel `c` is written by `id` (R200, R201). -/
def State.mailCommit (s : State) (id c : Nat) (v : Word) : State :=
  let s := s.tumTurn 7 id
  let m := s.mailCh c
  if m.half && m.writer == id then
    (s.setMail c { m with valid := true, w0 := m.stage, w1 := v, half := false, seq := m.seq + 1 }).raise (768 + c)
  else s.count (aTum 12) 0 16

/-- Word 0 or 1 of channel `c` is read by `id` (R202). -/
def State.mailRead (s : State) (id c : Nat) (w : Bool) : State × Word :=
  let m := s.mailCh c
  if w then
    match tabFind s.tum.latch id with
    | some (c', v) =>
      if c' = c then ({ s with tum := { s.tum with latch := tabErase s.tum.latch id } }, v) else (s, m.w1)
    | none => (s, m.w1)
  else ({ s with tum := { s.tum with latch := tabSet s.tum.latch id (c, m.w1) } }, m.w0)

/-- MB_STAT (Table 7.8). WRITER, valid only while HALF is 1, reads 0 while it is 0 (DESIGN CHOICE, log entry 115). -/
def Mail.stat (m : Mail) : Word :=
  word (m.valid.toNat * 2 ^ 31 + m.half.toNat * 2 ^ 30 + (if m.half then m.writer * 2 ^ 16 else 0) + m.seq.toNat)

/-- A read in the Tumbler window (Table 7.5). -/
def State.tumRead (s : State) (id off : Nat) : State × Word :=
  let s := s.tumTurn 8 0
  if 0x400 ≤ off && off < 0x800 then
    let c := (off - 0x400) / 16
    match off % 16 with
    | 0 => (s, (s.mailCh c).stat)
    | 4 => s.mailRead id c false
    | 8 => s.mailRead id c true
    | _ => (s, 0)
  else
    (s, match off with
      | 0x04 =>
        let held := (s.tum.locks.filter fun l => l.2 != .marked).length
        word ((s.lockCount - held) * 2 ^ 16 + held)
      | 0x14 => tabGet 7 s.tum.lres id
      | 0x1C => tabGet 0 s.tum.linfo id
      | 0x20 =>
        let here := s.quietHere
        word ((s.tum.quiet && here).toNat * 2 ^ 31 + s.tum.due.toNat * 2 ^ 30 + (if here then s.tum.qcyc else 0))
      | _ => s.reg (aTum off))

/-- The action of a write in the Tumbler window beside the common field rules (Tables 7.6 to 7.8). -/
def State.tumWrite (s : State) (id off : Nat) (v : Word) : State :=
  if 0x400 ≤ off && off < 0x800 then
    let c := (off - 0x400) / 16
    match off % 16 with
    | 4 => s.mailStage id c v
    | 8 => s.mailCommit id c v
    | _ => s
  else match off with
    | 0x00 =>
      let s := if bit v 2 then
          ((((s.clearCount (aTum 8) 0 16).clearCount (aTum 8) 16 16).clearCount (aTum 12) 0 16).clearCount (aTum 12) 16
            16).clearCount (aTum 0x24) 0 16
        else s
      let s := if bit v 1 then (s.tumTurn 5 id).clearMarks else s
      if bit v 0 then s else { s with tum := { s.tum with qcyc := 0 } }
    | 0x10 => s.lreq id v
    | 0x18 => s.lqry id v
    | _ => s

end Sys2Proof.Machine
end

