-- ==== Sys2Proof/Machine/Shuttle.lean ====
section
/-! DEFINITION. Shuttle channels (chapter 11): starting, stopping, resetting and halting a channel, the acquisition of a
descriptor's lock, and the registers of the Shuttle window. The moves themselves go over the bus and stand in
Sys2Proof/Machine/ShuttleRun.lean. -/

namespace Sys2Proof.Machine

def aSh (c off : Nat) : Nat := 0x50030000 + 0x20 * c + off

def State.chan (s : State) (c : Nat) : Chan := tabGet {} s.chans c
def State.setChan (s : State) (c : Nat) (x : Chan) : State := { s with chans := tabSet s.chans c x }
def State.updChan (s : State) (c : Nat) (f : Chan → Chan) : State := s.setChan c (f (s.chan c))

/-- The lock of SH_LOCKA (Table 11.13). -/
def State.shLock (s : State) (c : Nat) : Nat := (lockAddr (fld (s.reg (aSh c 0xC)) 2 17)).1

/-- The channel stops now with what remains of its descriptor (R318). -/
def Chan.halted (x : Chan) : Chan :=
  { x with run := false, lockw := false, stopReq := false, stopped := x.desc.isSome }

/-- A start of channel `c` (R317): the state, and whether it met the busy outcome. A channel that was stopped resumes,
one that was stopped while it retried a lock retries the acquisition, any other begins at SH_DPTR. During an entry to Doze or
Dormant no channel retries a lock (R65). -/
def State.chanStart (s : State) (c : Nat) : State × Bool :=
  let x := s.chan c
  if x.run then (s, true)
  else
    let y := { x with run := true, stopped := false, stopReq := false, err := 0, retryAt := s.cycle
                      lockw := x.lock.isNone && x.desc.any (·.acq) }
    (s.setChan c (if s.entering && y.lockw then y.halted else y), false)

/-- A stop of channel `c` (R318): at once between descriptors and while it retries a held lock, else at its next element
boundary, or after its release where it holds a lock. -/
def State.chanStop (s : State) (c : Nat) : State :=
  let x := s.chan c
  if !x.run then s
  else if x.lockw || (x.desc.isNone && x.lock.isNone) then s.setChan c x.halted
  else s.setChan c { x with stopReq := true }

/-- A reset of channel `c` (R318, R197): its locks are released and marked, SH_STAT is cleared, SH_DPTR stays. -/
def State.chanReset (s : State) (c : Nat) : State :=
  let s := s.holderReset (256 + c)
  (s.setChan c {}).setReg (aSh c 4) 0

/-- A START or STOP task as the fabric fires it (Table 8.4): the state, and whether it met the busy outcome. -/
def shTask (c : Nat) (start : Bool) (s : State) : State × Bool :=
  if start then s.chanStart c else (s.chanStop c, false)

/-- Channel `c` writes TUM_LREQ release for the lock at `a` (R316). -/
def State.chanUnlock (s : State) (c a : Nat) : State := State.lockResult (256 + c) (s.release (256 + c) a)

/-- Channel `c` halts with a status of Table 11.12 (R319): a held lock is released, the address recorded, the error
channel raised. -/
def State.chanHalt (s : State) (c code : Nat) (addr : Word) : State :=
  let s := match (s.chan c).lock with
    | some a => s.chanUnlock c a
    | none => s
  let s := s.updChan c fun x => { x with run := false, lockw := false, lock := none, stopped := false, stopReq := false
                                         err := code, desc := none, done := 0 }
  (s.setReg (aSh c 0x10) addr).raise (513 + 2 * c)

/-- Channel `c` tries to acquire its lock (R316): while it is held the channel retries, or stops during an entry to Doze or Dormant
(R65). -/
def State.chanAcquire (s : State) (c : Nat) : State :=
  let a := s.shLock c
  let r := s.acquire (256 + c) a
  let s := State.lockResult (256 + c) r
  match r.2 with
  | .held => s.updChan c fun x => if s.entering then x.halted else { x with lockw := true, retryAt := s.cycle + 16 }
  | .full => s.chanHalt c 4 (word a)
  | .broken => (s.updChan c ({ · with lockw := false, lock := some a })).setFlag (aSh c 4) 28
  | _ => s.updChan c ({ · with lockw := false, lock := some a })

/-- Channel `c` stops at an element boundary where a stop is pending and it holds no lock (R318). -/
def State.chanBoundary (s : State) (c : Nat) : State :=
  let x := s.chan c
  if x.run && x.stopReq && x.lock.isNone && (x.desc.isNone || x.rem != 0) then s.setChan c x.halted else s

/-- SH_LOCKW retry (R316): each retry of a held lock counts. -/
def State.chanRetry (s : State) (c : Nat) : State :=
  let x := s.chan c
  if !x.run || !x.lockw then s
  else if s.entering then s.setChan c x.halted
  else ((s.atCycle x.retryAt).count (aSh c 0x14) 16 16).chanAcquire c

/-- A read in the Shuttle window (Table 11.13). -/
def State.shRead (s : State) (off : Nat) : Word :=
  if off = 0x400 then word ((upTo 32).foldl (fun n c => n + (s.chan c).run.toNat * 2 ^ c) 0)
  else if off < 0x400 && off % 0x20 == 4 then
    let x := s.chan (off / 0x20)
    s.reg (0x50030000 + off) ||| word (x.run.toNat * 2 ^ 31 + x.lockw.toNat * 2 ^ 30 + x.lock.isSome.toNat * 2 ^ 29
      + x.stopped.toNat * 2 ^ 27 + x.err * 2 ^ 24 + x.rem)
  else s.reg (0x50030000 + off)

/-- The action of a write in the Shuttle window beside the common field rules; `old` is the register's word before. A
write of SH_DPTR while the channel runs has no effect (R317). -/
def State.shWrite (s : State) (off : Nat) (old v : Word) : State :=
  if 0x400 ≤ off then s else
    let c := off / 0x20
    match off % 0x20 with
    | 0x00 =>
      let s := if bit v 0 then (s.chanStart c).1 else s
      let s := if bit v 1 then s.chanStop c else s
      if bit v 2 then s.chanReset c else s
    | 0x08 => if (s.chan c).run then s.setReg (aSh c 8) old else s.clamp (fld v 0 4 != 0).toNat
    | _ => s

end Sys2Proof.Machine
end

