-- ==== Sys2Proof/Machine/System.lean ====
section
/-! DEFINITION. Modes and transitions (R45 to R53), unit resets (R54 to R56, R467), the power-step governor and engine
islands (R59 to R64, R95, R468, R469), Doze and Dormant (R65 to R68), and the system registers (Tables 1.6, 2.3). -/

namespace Sys2Proof.Machine

def aRstCause : Nat := 0x500F0108
def aGovCfg : Nat := 0x500F011C
def aGovSt : Nat := 0x500F0120
def aWakeCfg : Nat := 0x500F0128
def aWakeTmr : Nat := 0x500F012C
def aWakeSrc : Nat := 0x500F0130

/-! ### Mode requests (R50 to R52, R374) -/

/-- The transitions of Table 2.13 that a request causes, with their conditions. `port`: the request comes through the
local register port. A paired unit enters Run only while its partner does not own (R386). After a wake from Doze, chain time is
resynchronised from the pad island's power-up on (R67, R231). -/
def State.allows (s : State) (m : Mode) (port : Bool) : Bool :=
  let clear := s.reg aSafeCause == 0
  match s.sys.mode, m with
  | .unaddressed, .preparation => port && s.sys.straps.dictsrc != 0
  | .preparation, .run =>
    (bit (s.reg aTbStat) 31 && s.untilUp == 0 || s.sys.straps.dictsrc == 1) && clear && !(s.paired && bit (s.reg (aShk 0x18)) 28)
  | .preparation, .tracking => s.paired
  | .run, .preparation | .tracking, .preparation | .preparation, .doze => true
  | .safe, .preparation => clear
  | .unaddressed, .safe | .preparation, .safe | .run, .safe | .tracking, .safe => true
  | .unaddressed, .dormant | .preparation, .dormant | .safe, .dormant => true
  | _, _ => false

/-- The Keeper has finished what it holds (R65, R423). -/
def State.keeperIdle (s : State) : Bool :=
  s.kpr.cmd.isNone && s.kpr.save.isNone && s.kpr.queue.isEmpty && s.upd.state != 2 && s.upd.commit.isNone

/-- SYS_ENGPWR.ENGk. -/
def State.engPwr (s : State) (k : Nat) : Nat := fld (s.reg aEngPwr) (2 * k) 2

/-- The registers of an engine block at the values for a profile that holds none (R95). -/
def State.engDefaults (s : State) (k : Nat) : State :=
  { s with regs := tabDrop (fun a _ => decide (aEng k 0 ≤ a ∧ a < aEng k 0x100)) s.regs }

/-- Engine `k` is no longer in the governor's queue. -/
def State.govDrop (s : State) (k : Nat) : State :=
  { s with sys := { s.sys with gov := s.sys.gov.filter fun r => r.eng != k } }

/-- Engine island `k` is switched off (R95, R197, R469): its merge entries are written first (R177, R180), its contents and
contexts are lost, the locks of its threads are released and marked. -/
def State.switchOff (s : State) (k : Nat) : State :=
  let s := s.govDrop k
  if (s.eng k).power = .off then s
  else
    let s := (((s.flushLocal k).flushFar k).deregisterAll (engIds k)).lapHold [k, 16 + k]
    let s := (upTo 16).foldl (fun s t => (s.holderReset (16 * k + t)).setThr (16 * k + t) {}) s
    ((s.loseEngine k).engDefaults k).setEng k {}

/-- Engine island `k` is placed in retention (R64): its merge entries are written (R177, R180), pending loads complete, a
READY or RUNNING thread is READY at lock, the watchdogs hold. -/
def State.retain (s : State) (k : Nat) : State :=
  let s := (((s.flushLocal k).flushFar k).settleFar k).lapHold [k, 16 + k]
  let s := (upTo 16).foldl (fun s t => s.updThr (16 * k + t) fun t =>
    let t := { t with wdAcc := t.wdCount s.cycle, wdFrom := none }
    if t.st = .running then { t with st := .ready } else t) s
  s.updEng k ({ · with power := .retained, holder := none, retainAtLock := false })

/-- The waiters of the engines `ks`, which one cycle switches off, are deregistered ahead of every release (Table 7.2). -/
def State.deregisterEngs (s : State) (ks : List Nat) : State := s.deregisterAll (ks.flatMap engIds)

/-- The islands follow SYS_MODE into Doze or Dormant (R65 steps 3 and 4, Table 2.2). -/
def State.goDown (s : State) (m : Mode) : State :=
  let on := (upTo 16).filter s.islandOn
  let keep := if m = .doze then on else []
  let s := s.deregisterEngs ((upTo 16).filter fun k => !keep.contains k)
  let s := (upTo 16).foldl (fun s k =>
    if keep.contains k then s.retain k
    else (s.switchOff k).setRegFld aEngPwr (2 * k) 2 0) s
  let s := (s.setPort .a false).setPort .b false
  let s := (s.setMode m).gateOn
  let s := { s with
    pads := tabMap (fun _ (p : Pad) =>
      ({ force := p.force, hold := p.hold, gateLvl := p.gateLvl, pin := p.pin } : Pad)) s.pads
    cvts := tabMap (fun _ (c : Cvt) => ({ sched := c.sched, last := c.last } : Cvt)) s.cvts
    corrections := []
    scan := { s.scan with bufs := [] }
    chain := { s.chain with probeA := {}, probeB := {}, servo := {} }
    shk := { s.shk with outAt := none, holdEnd := none, modeDue := none, outDue := none }
    sys := { s.sys with dozeOn := keep, tmrDue := false }
    kpr := { s.kpr with nvReady := false, key := none } }
  s.setRegFld aOwnStat 0 2 0

/-- The entry sequence goes on as far as it can (R65): channels stopped, the Keeper idle, then the islands. -/
def State.tryDoze (s : State) : State :=
  match s.sys.entry with
  | some ⟨m, none⟩ => if (upTo 32).any (fun c => (s.chan c).run) || !s.keeperIdle then s else s.goDown m
  | _ => s

/-- The entry sequence starts (R65, R318): a channel between descriptors or retrying a held lock stops at once. -/
def State.startEntry (s : State) (m : Mode) : State :=
  let s := { s with sys := { s.sys with entry := some ⟨m, none⟩ } }
  let s := (upTo 32).foldl (fun s c =>
    let x := s.chan c
    if x.run && (x.lockw || x.desc.isNone) then s.setChan c x.halted else s) s
  s.tryDoze

/-- A request for mode `m` by master `id` is decided on its own (R50): the state and whether it is accepted. `wait`: an
accepted entry to Doze or Dormant waits for a response, until a fabric cycle at the latest (R374). -/
def State.takeMode (s : State) (id : Nat) (m : Mode) (port : Bool) (wait : Option Nat) : State × Bool :=
  let raised := s.hinge.raised.any fun r => r.cyc == s.cycle && r.ch == 656
  let s := s.note ({ · with req := some ⟨s.sys.mode, m, id, fld (s.reg aMode) 4 3, bit (s.reg aMode) 8, bit (s.reg aSafeCause) 0,
    bit (s.reg 0x500F7000) 1, s.shk, s.reg (aShk 0x1C), raised⟩ })
  if m = s.sys.mode then (s, true)
  else if !s.allows m port then (s.note ({ · with req := none }), false)
  else
    (match m with
      | .safe => s.enterSafe 0
      | .doze | .dormant =>
        if wait.isSome then { s with sys := { s.sys with entry := some ⟨m, wait⟩ } } else s.startEntry m
      | .preparation =>
        let fromRun := s.sys.mode == .run || s.sys.mode == .tracking
        let s := s.setMode m
        { s with sys := { s.sys with gatePend := fromRun && !s.sys.gate } }
      | .tracking => (s.setMode m).disown
      | _ => s.setMode m, true)

/-- A mode request stands over the one that its cycle has taken (R42, R52): the dictionary agent's over firmware's, else that
of the higher identity. -/
def ReqTaken.yields (q : ReqTaken) (id : Nat) : Bool := id == 288 || (q.id != 288 && decide (q.id < id))

/-- A request for mode `m` by master `id` lands (R50, R52): discarded in the cycle of a cause of Safe, whatever it names; of two
requests of one cycle that name different modes one stands. -/
def State.requestMode (s : State) (id : Nat) (m : Mode) (port : Bool) (wait : Option Nat) : State × Bool :=
  if s.sameNow.cause then (s, false)
  else match s.sameNow.req with
    | none => s.takeMode id m port wait
    | some q =>
      if q.names = m then (s, true)
      else if q.yields id then s.undoRequest.takeMode id m port wait
      else (s, false)

/-- A write of SYS_MODEREQ by master `id` (Table 2.5, R49, R50). -/
def State.modeReq (s : State) (id : Nat) (v : Word) : State :=
  let c := fld v 0 3
  if c < 2 then s.clamp
  else
    let (s, ok) := s.requestMode id (modeOf c) false none
    if ok then s else s.setFlag aMode 9

/-! ### Unit resets (R54 to R56, R287, R353, R467) -/

/-- An address in the memories of an island that stays powered through a unit reset (R467), or in the NV macro. -/
def keptAt (a : Nat) : Bool :=
  (decide (0x40000000 ≤ a) && decide (a < 0x50000000)) || (decide (0x50080000 ≤ a) && decide (a < 0x90000000))

/-- The raw pages of the NV macro. -/
def nvAt (a : Nat) : Bool := decide (0x80000000 ≤ a) && decide (a < 0x90000000)

/-- The engine mask of the selected profile (R58, R380): none where the directory does not hold it. -/
def State.mask (s : State) : Nat :=
  if !s.nv.formatted then 0 else (tabFind s.nv.profiles s.sys.keepSel).elim 0 fun p => p.mask.toNat

/-- The engines of a mask. -/
def maskEngines (m : Nat) : List Nat := (upTo 16).filter fun k => m.testBit k

/-- In Recall the governor powers up the engines of the profile's engine mask, once the macro can be read (Table 2.15,
R457). -/
def State.maskUp (s : State) : State :=
  if s.sys.mode != .recall || !s.kpr.nvReady then s
  else (maskEngines s.mask).foldl (fun s k =>
    if s.engPwr k = 2 then s else (s.setRegFld aEngPwr (2 * k) 2 2).govQueue k true false) s

/-- A test port access in flight ends refused (R463). -/
def Tap.cut (t : Tap) : Tap :=
  if t.access.isSome then { t with access := none, done := true, err := true, data := some 0 } else t

/-- PORST_N is low (R447): every cell drives Z, no island runs. -/
def State.porst (s : State) : State := { s with sys := { s.sys with porLow := true } }

/-- The test port after a unit reset (R463); a power-on reset takes the rest of it too. -/
def Tap.afterReset (t : Tap) (por : Bool) : Tap :=
  if !por then t.cut
  else if t.access.isSome then { dbgen := t.dbgen, err := true, data := some 0 } else { dbgen := t.dbgen }

/-- The state after a unit reset with a cause bit of Table 2.6, at 1.0 µs of Table 2.15 (log entry 2). `off`: every
island was off before it (power-on, Dormant). `por`: a power-on reset with the pins as sampled. While RST_N stays low the islands
stay in reset (R451). -/
def State.unitReset (s : State) (cause : Nat) (off : Bool := false) (por : Option Straps := none) : State :=
  let s := s.cutRaw.cutRing
  let sys := s.sys
  let off := off || sys.mode == .dormant
  let straps := por.getD { sys.straps with dictsrc := s.pins }
  let keepAddr := if por.isSome then 0 else sys.keepAddr
  let keepSel := if por.isSome then straps.profsel.toNat else sys.keepSel
  let kept (a : Nat) : Bool := nvAt a || (keptAt a && !off)
  let r : State :=
    { mem := s.mem.filter fun c => kept c.1
      ecc := { bad := if off then [] else s.ecc.bad.filter fun c => keptAt c.1 }
      regs := if por.isSome then [] else s.regs.filter fun c => aonRegs.contains c.1
      hinge := { slots := if por.isSome then [] else s.hinge.slots }
      pads := (s.pads.filter (·.2.pin)).map fun c => (c.1, ({ pin := true } : Pad))
      sys := { held := sys.held, straps := straps, keepAddr := keepAddr, keepSel := keepSel
               profsel := if por.isSome then straps.profsel.toNat else sys.profsel }
      nv := s.nv
      kpr := { nvReady := s.kpr.nvReady && !off }
      tap := s.tap.afterReset por.isSome
      pins := straps.dictsrc, reply := s.reply, free := s.free, pending := s.pending }
  let r := if por.isSome then r else r.setFlag aRstCause cause
  let r := if off then r else r.setRegFld aCal 31 1 (fld (s.reg aCal) 31 1)
  let r := if keepAddr = 0 then r else r.setReg (aCh 8) (word keepAddr)
  let r := if straps.dictsrc = 1 then (r.setRegFld (aCh 0) 2 1 1).setRegFld aTbCtl 0 1 1 else r
  r.maskUp

/-! ### The governor and engine islands (R59 to R63, R468, R469) -/

/-- Engine start of engine `k` (R468): a STOPPED thread 0 goes to READY at address 0, its watchdog count as it is (R161), and a
change of SYS_TWIN.PAIR takes effect (R97). Engine 2k + 1 of a dissolved pair shows the state that it holds for itself (DESIGN
CHOICE, log entry 87). On an island that runs, a FREEZE that is 1 already does not halt it (DESIGN CHOICE, log entry 118). -/
def State.engineStart (s : State) (k : Nat) : State :=
  if (s.thr (16 * k)).st ≠ .stopped then s
  else
    let s := if k % 2 = 0 then s.setRegFld aTwin (16 + k / 2) 1 (fld (s.reg aTwin) (k / 2) 1) else s
    (s.updThr (16 * k) ({ · with pc := 0 })).toReady (16 * k)

/-- Fabric cycles between two admissions (R59): SYS_GOVCFG.INTERVAL in 0.1 µs, and 9 mA over BUDGET in 0.25 mA/µs. -/
def State.govGap (s : State) : Nat :=
  let r := s.reg aGovCfg
  let b := fld r 8 8
  max (20 * fld r 0 7) ((7200 + b - 1) / b)

/-- The governor admits the head of its queue at the instant `due` of R59 (R60). A lower engine that was queued between the two
admissions of a pair goes ahead of the second one, as R60 orders the queue, where R61 has them one after the other (DESIGN CHOICE,
log entry 119). -/
def State.admitHead (s : State) : State :=
  match s.sys.gov with
  | [] => s
  | q :: qs =>
    if !s.running then s else
    let due := max q.since (s.sys.lastAdm.elim q.since (· + s.govGap))
    let s := s.atCycle due
    let waited := due - q.since
    let s := { s with sys := { s.sys with gov := qs, lastAdm := some due } }
    let s := if 0 < waited then s.count aGovCnt 0 16 else s
    let s := (s.setRegFld aGovSt 16 16 (min 0xFFFF waited)).raise 660
    let p := (s.eng q.eng).power
    if q.powerUp && (p == .off || p == .retained) then
      s.updEng q.eng fun e => { e with power := .powering, admitted := due, startAtLock := e.startAtLock || q.start }
    else if !q.start then s
    else match p with
      | .on => s.engineStart q.eng
      | .off => s
      | _ => s.updEng q.eng ({ · with startAtLock := true })

/-- Island `k` runs from now on (R61, R63, R64, R468): held wakes complete, latched events reach it, a merged start acts,
its threads meet FREEZE as it stands (R165), a requested retention follows. -/
def State.islandRuns (s : State) (k : Nat) : State :=
  let e := s.eng k
  let s := s.setEng k { e with power := .on, lockedAt := s.cycle, lockHeld := false, startAtLock := false }
  let s := (upTo 16).foldl (fun s t => s.updThr (16 * k + t) fun t =>
    let t := if t.heldWake then { t.enter s.cycle .ready with heldWake := false, wait := .none } else t
    if t.st.counting then { t with wdFrom := some (t.wdFrom.getD s.cycle) } else t) s
  let s := if s.sys.mode.executes then s.lapGo [k, 16 + k] else s
  let s := (upTo 64).foldl (fun s i => s.deliverEvent (16 * k + i / 4) (i % 4)) s
  let s := if e.startAtLock then s.engineStart k else s
  let s := if s.lead k = k then s.freezeThreads (bit (s.reg aDbgCtl) 0) (engIds k) else s
  if e.retainAtLock then s.retain k else s

/-- The generator of island `k` reports lock, 1.2 µs after its admission (R61); the first engine of a pair waits for the
second. -/
def State.lock (s : State) (k : Nat) : State :=
  let e := s.eng k
  if e.power != .powering || e.lockHeld then s
  else
    let s := s.atCycle (e.admitted + 240)
    let j := if k % 2 = 0 then k + 1 else k - 1
    let o := s.eng j
    if !s.twin k then s.islandRuns k
    else if o.lockHeld then (s.islandRuns (k - k % 2)).islandRuns (k - k % 2 + 1)
    else if o.power == .powering || s.sys.gov.any (fun r => r.eng == j && r.powerUp) then
      s.updEng k ({ · with lockHeld := true })
    else s.islandRuns k

/-- A write of one field of SYS_ENGPWR with the code `n` acts (R60, R469). Code 0b01 on a retained island leaves a power-up
that is queued for it as it is (DESIGN CHOICE, log entry 85). -/
def State.engPwrField (s : State) (k n : Nat) : State :=
  let p := (s.eng k).power
  match n with
  | 0 => (s.setRegFld aEngPwr (2 * k) 2 0).switchOff k
  | 1 =>
    match p with
    | .off => ((s.govDrop k).setRegFld aEngPwr (2 * k) 2 0).clamp
    | .powering => s.updEng k ({ · with retainAtLock := true })
    | .on => s.retain k
    | .retained => s
  | _ =>
    match p with
    | .on => s
    | .powering => s.updEng k ({ · with retainAtLock := false })
    | _ => s.govQueue k true false

/-! ### Wakes (R66 to R68) -/

/-- The source of a wake is recorded (Table 2.12). -/
def State.wakeRecord (s : State) : WakeSource → State
  | .latch i => (s.setFlag aWakeSrc 0).setRegFld aWakeSrc 5 5 i.val
  | .timer => s.setFlag aWakeSrc 1

/-- SYS_WAKECFG enables the source. -/
def State.wakeOn (s : State) : WakeSource → Bool
  | .latch _ => bit (s.reg aWakeCfg) 0
  | .timer => bit (s.reg aWakeCfg) 1

/-- The power-ups of the engines `ks` are queued for the fabric cycle `c` (R60, R67). -/
def State.govQueueAt (s : State) (ks : List Nat) (c : Nat) : State :=
  ks.foldl (fun s k =>
    let s := (s.govQueue k true false).setRegFld aEngPwr (2 * k) 2 2
    { s with sys := { s.sys with gov := s.sys.gov.map fun q => if q.eng = k then { q with since := c } else q } }) s

/-- A wake from Doze (R67, R231, Table 2.16): 0.5 µs later the fabric runs in Preparation and LF running ends; 1.0 µs after
the wake event the pad, link and Keeper islands run (`padUp`) and the engines that were on reach the governor. -/
def State.wakeDoze (s : State) : State :=
  let s := s.pass 100
  let on := s.sys.dozeOn
  let s := { s with tb := BitVec.ofNat 88 (s.tb.toNat / 2 ^ 32 * 2 ^ 32)
                    sys := { s.sys with dozeOn := [], tmrDue := false, upAt := s.cycle + 100 }
                    kpr := { s.kpr with scan := true } }
  let s := (((s.setMode .preparation).gateOn).setReg aCal 0).lfEnd
  s.stepSched.govQueueAt on (s.cycle + 100)

/-- A wake event (R50, R65, R67, R68). While REFCLK is absent or RST_N low the islands stay in reset: the wake leaves its source, and
the pin reset to come starts the unit (R450, R451; DEDUCED, log entry 120). -/
def State.wake (s : State) (src : WakeSource) : State :=
  if !s.wakeOn src then s
  else match s.sys.mode with
  | .doze => if s.sys.held || s.sys.noRef then s.wakeRecord src else (s.wakeRecord src).wakeDoze
  | .dormant => if s.sys.held || s.sys.noRef then s.wakeRecord src else (s.wakeRecord src).unitReset 5 (off := true)
  | _ =>
    if s.sys.entry.isSome then { s with sys := { s.sys with entry := none } }.setFlag aMode 10
    else s

/-- An LFCLK rising edge (R66, R231, R247, R251): captures, the fabric copy, timer steps, the wake timer; a new cycle of the
always-on island begins (R39). -/
def State.lfTick (s : State) : State :=
  let s := s.note ({ · with aon := {} })
  let s := if s.sys.mode == .dormant then s else ((s.lfCaps).lfCopy).lfSteps
  if s.sys.mode != .doze && s.sys.mode != .dormant then s
  else
    let n := (s.reg aWakeTmr).toNat
    if n = 0 then s
    else
      let s := s.setReg aWakeTmr (word (n - 1))
      if n = 1 then { s with sys := { s.sys with tmrDue := true } } else s

/-- The always-on write in flight completes (R28, R132). -/
def State.aonDone (s : State) : State :=
  match s.sys.aon with
  | [] => s
  | w :: ws =>
    let s := { s with sys := { s.sys with aon := ws } }.aonGone
    let s :=
      if w.addr = aCh 8 then { s with sys := { s.sys with keepAddr := fld w.value 0 8 } }
      else if w.addr = 0 then { s with sys := { s.sys with keepSel := w.value.toNat } }
      else match regRow w.addr with
        | some r => s.setReg w.addr (plainWrite r (s.reg w.addr) (s.maskSets r w.addr w.value))
        | none => s
    match w.id with
    | none => s
    | some id => s.updThr id fun t =>
      match t.outst.findIdx? fun q => q.phase == .aon with
      | some n => { t with outst := t.outst.modify n ({ · with phase := .done }) }
      | none => t

/-! ### Registers (Tables 1.6, 2.3) -/

/-- SYS_ISLPWR and SYS_ISLCLK (Table 1.9): the engines that `p` selects; after a wake from Doze the pad, link and Keeper islands
come up later than the fabric (Table 2.16). -/
def State.islands (s : State) (p : Engine → Bool) : Word :=
  word ((if s.untilUp = 0 then 0x1F0000 else 0x110000) + (upTo 16).foldl (fun n k => n + (p (s.eng k)).toNat * 2 ^ k) 0)

/-- SYS_AONST.BUSY (R28): a register write is in flight, or the slot write of a latch commit (R222), which step 4 launches
between 4,096 and 4,352 fabric cycles after the commit started: a free value there. -/
def State.aonBusy (s : State) : State × Bool :=
  let x := s.hinge
  if !s.sys.aon.isEmpty then (s, true)
  else if !x.commit || s.cycle < x.commitAt + 4096 then (s, false)
  else if x.commitAt + 4352 ≤ s.cycle then (s, true)
  else s.drawBit

/-- A read below offset 0x1000 of the system window. -/
def State.sysRead (s : State) (id off : Nat) : Word :=
  match off with
  | 0x004 => word id
  | 0x008 => s.islands fun e => e.power != .off
  | 0x00C => s.islands fun e => e.power == .on || e.lockHeld
  | 0x01C => word s.sys.straps.dictsrc.toNat
  | 0x100 => setFld (s.reg aMode) 0 3 s.sys.mode.code
  | 0x120 => s.reg aGovSt ||| word (s.sys.gov.length * 2 ^ 8 + (s.sys.gov.headD ⟨0, false, false, 0⟩).eng)
  | _ => s.reg (aSys off)

/-- The action of a write below offset 0x1000 of the system window beside the common field rules. -/
def State.sysWrite (s : State) (id off : Nat) (v : Word) : State :=
  match off with
  | 0x104 => s.modeReq id v
  | 0x10C =>
    if fld v 16 16 = 0xC1A5 && bit v 0 then { s with sys := { s.sys with resetReq := true } } else s
  | 0x114 =>
    let w := s.reg aEngPwr
    let s := s.deregisterEngs ((upTo 16).filter fun k => fld w (2 * k) 2 == 0)
    (upTo 16).foldl (fun s k => s.engPwrField k (fld w (2 * k) 2)) s
  | 0x118 => ((bitsOf v).filter fun k => decide (k < 16) && !(s.twin k && k % 2 == 1)).foldl (fun s k => s.queueStart k) s
  | _ => s

end Sys2Proof.Machine
end

