-- ==== Sys2Proof/Machine/ChainEvents.lean ====
section
/-! DEFINITION. Port states and frames of the chain (R326 to R351, R390). -/

namespace Sys2Proof.Machine

/-- PORT_UP (R326): an enabled port of a unit whose link island runs. -/
def execPortUp (p : Port) (s : State) : Out := .next (if s.islesUp && s.portEn p then s.setPort p true else s)

/-- PORT_DOWN (R326). -/
def execPortDown (p : Port) (s : State) : Out := .next (s.setPort p false)

/-- FRAME_FORWARD (R328). -/
def execFrameForward (p : Port) (f : Frame) (s : State) : Out := .next (s.passOn p f)

/-- ADDRESS (R333). -/
def execAddressFrame (p : Port) (f : Frame) (s : State) : Out := .next (s.address p f)

/-- TICK (R337). -/
def execTickFrame (p : Port) (f : Frame) (s : State) : Out := .next (s.tickFrame p f)

/-- TICK_RECORD (R343). -/
def execTickRecord (p : Port) (f : Frame) (s : State) : Out := .next (s.tickRecord p f)

/-- TIME_DISTRIBUTION (R346). -/
def execTimeDistribution (p : Port) (f : Frame) (stamp : Time64) (residence : Nat) (s : State) : Out :=
  .next (s.timeFrame p f stamp residence)

/-- PROBE_SEND (R345). -/
def execProbeSend (p : Port) (s : State) : Out := .next (s.probeSend p)

/-- PROBE_REQUEST (R345). -/
def execProbeRequest (p : Port) (f : Frame) (t2 t3 : Time64) (s : State) : Out := .next (s.probeAnswer p f t2 t3)

/-- PROBE_ECHO (R345). -/
def execProbeEcho (p : Port) (f : Frame) (t4 : Time64) (s : State) : Out := .next (s.probeEcho p f t4)

/-- SYNC_TIMEOUT (R347). -/
def execSyncTimeout (s : State) : Out := .next (if s.running then s.syncTimeout else s)

/-- EVENT (R350). -/
def execEventFrame (p : Port) (f : Frame) (s : State) : Out := .next (s.eventFrame p f)

/-- OWN_FRAME_SEND (R330). -/
def execOwnFrameSend (s : State) : Out := .next s.sendOwn

/-- SHACKLE (R390). -/
def execShackleFrame (p : Port) (f : Frame) (s : State) : Out := .next (s.shackleFrame p f)

end Sys2Proof.Machine
end

