-- ==== Sys2Proof/Machine/Clamp.lean ====
section
/-! DEFINITION. The clamps of the register tables (R40): the value a written register takes, and how many of its fields
took a clamp target. -/

namespace Sys2Proof.Machine

/-- A value with the `n`-bit field at `lo` replaced by `t` where `bad` holds, and the clamp counted. -/
def clampFld (a : Word × Nat) (lo n : Nat) (bad : Nat → Bool) (t : Nat → Nat) : Word × Nat :=
  let x := fld a.1 lo n
  if bad x then (setFld a.1 lo n (t x), a.2 + 1) else a

/-- A field of reserved code 3 takes `t`. -/
def clamp3 (a : Word × Nat) (lo t : Nat) : Word × Nat := clampFld a lo 2 (· == 3) (fun _ => t)

/-- A field is brought into `lo'` to `hi'`. -/
def clampRange (a : Word × Nat) (lo n min' max' : Nat) : Word × Nat :=
  clampFld a lo n (fun x => decide (x < min') || decide (max' < x)) (fun x => if x < min' then min' else max')

/-- The clamps of Table 6.9 on ECC_INJ. -/
def clampInj (v : Word) : Word × Nat :=
  let a := clampFld (v, 0) 24 6 (34 < ·) (fun _ => 32)
  let top := if fld a.1 24 6 < 32 then 38 else 71
  clampFld (clampFld a 8 7 (top < ·) (fun _ => 0)) 0 7 (top < ·) (fun _ => 0)

/-- PAD_FPUu with EN cleared where another enabled unit holds the pad (R267). -/
def State.clampFpu (s : State) (u : Nat) (v : Word) : Word × Nat :=
  let taken := (upTo 64).any fun i => i != u && bit (s.reg (aFpu i)) 31 && fld (s.reg (aFpu i)) 0 7 == fld v 0 7
  if bit v 31 && taken then (setBit v 31 false, 1) else (v, 0)

/-- The clamps of the pad window (Tables 10.5 to 10.7). -/
def State.padClamp (s : State) (off : Nat) (v : Word) : Word × Nat :=
  if off < 0x1000 then (if off % 0x20 = 0xC then clamp3 (v, 0) 0 2 else (v, 0))
  else if off < 0x1100 then s.clampFpu ((off - 0x1000) / 4) v
  else if off = 0x1110 then clampRange (v, 0) 0 16 1 65535
  else if 0x2000 ≤ off ∧ off < 0x2200 ∧ off % 0x40 = 0 then
    clampRange (clampRange (clamp3 (v, 0) 29 0) 24 4 1 15) 0 16 1 65535
  else (v, 0)

/-- The clamps of the system window. -/
def State.sysClamp (s : State) (off : Nat) (v : Word) : Word × Nat :=
  if off = 0x114 then (upTo 16).foldl (fun a k => clamp3 a (2 * k) 2) (v, 0)
  else if off = 0x11C then clampRange (clampRange (v, 0) 8 8 18 144) 0 7 5 80
  else if 0x1000 ≤ off ∧ off < 0x2000 then
    (if 0x10 ≤ off % 0x100 ∧ off % 0x100 < 0x20 then [0, 8, 16, 24].foldl (fun a i => clamp3 a (i + 6) 0) (v, 0)
     else (v, 0))
  else if 0x2000 ≤ off ∧ off < 0x3000 then (if off % 0x100 = 0 then clampRange (v, 0) 20 2 1 3 else (v, 0))
  else if off = 0x300C then clampRange (v, 0) 2 15 0 0x4FFF
  else if off = 0x4014 then clampInj v
  else if 0x5000 ≤ off ∧ off < 0x6000 then scnClamp (off - 0x5000) v
  else if off = 0x6000 then clampRange (v, 0) 8 8 1 255
  else if off = 0x6008 then (if 0x5FC00 < v.toNat then (0x5FC00, 1) else (v, 0))
  else if 0x7000 ≤ off ∧ off < 0x8000 then s.shkClamp (off - 0x7000) v
  else (v, 0)

/-- The clamps on the value `v` that a write gives the register at an address. -/
def State.clampReg (s : State) (a : Nat) (v : Word) : Word × Nat :=
  let off := a % 0x10000
  match a / 0x10000 with
  | 0x5000 => if off < 0x2000 ∧ off % 0x100 = 0 then clamp3 (clamp3 (v, 0) 4 0) 0 0 else (v, 0)
  | 0x5001 => if 0x1B00 ≤ off then clampRange (v, 0) 0 5 1 31 else (v, 0)
  | 0x5002 => s.padClamp off v
  | 0x5003 => if off < 0x400 ∧ off % 0x20 = 0xC then clampRange (v, 0) 2 17 0 0x17FFF else (v, 0)
  | 0x5005 => s.chClamp off v
  | 0x500F => s.sysClamp off v
  | _ => (v, 0)

end Sys2Proof.Machine
end

