-- ==== Sys2Proof/Machine/Keeper.lean ====
section
/-! DEFINITION. The Keeper (chapter 15): commands, ring items, saves and format, the scans of Recall and of a rescan, and
the Keeper registers. Profiles and what Recall loads (R380, R404 to R406). -/

namespace Sys2Proof.Machine

def aKpr (off : Nat) : Nat := 0x50060000 + off
def aKprStat : Nat := aKpr 4
def aKprBuf : Nat := aKpr 0x100

/-! ### Profiles (R380, Table 13.12) -/

/-- The stored values: base, stride, count, and the bits of the P fields. -/
def storedRows : List (Nat × Nat × Nat × Nat) :=
  [(0x500F0200, 4, 1, 0xFF), (0x500F2000, 0x100, 16, 0x00FFFFFC), (0x50020000, 0x20, 128, 0x01FED000),
   (0x5002000C, 0x20, 128, 3), (0x50021000, 4, 64, 0x8000007F), (0x50021110, 4, 1, 0xFFFF),
   (0x50022000, 0x40, 8, 0xFF00FFFF), (0x50022008, 0x40, 8, 0xFFFFFFFF),
   (0x500F5008, 4, 11, 0xFFFFFFFF), (0x50050018, 4, 2, 0x1FFFFF), (0x50050000, 4, 1, 0xF07),
   (0x50050028, 8, 2, 0xFFFFFFFF), (0x500F6000, 4, 1, 0xFF01), (0x500F6008, 4, 1, 0x7FFF8),
   (0x500F7000, 4, 1, 1), (0x500F7004, 4, 4, 0xFFFFFFFF),
   (0x500F1010, 0x100, 16, 0xCFCFCFCF), (0x500F1014, 0x100, 16, 0xCFCFCFCF),
   (0x500F1018, 0x100, 16, 0xCFCFCFCF), (0x500F101C, 0x100, 16, 0xCFCFCFCF)]

/-- The addresses of the stored values with their bits. -/
def stored : List (Nat × Nat) :=
  storedRows.flatMap fun r => (upTo r.2.2.1).map fun i => (r.1 + r.2.1 * i, r.2.2.2)

/-- The shadow wheel of some engine. -/
def isWheel (a : Nat) : Bool :=
  decide (0x500F1000 ≤ a) && decide (a < 0x500F2000) && decide (0x10 ≤ a % 0x100) && decide (a % 0x100 < 0x20)

/-- One stored value is loaded with the clamps of its register (R41, R404). A wheel is loaded for an engine of the mask,
and takes effect. CH_PER and CH_COFF are loaded, in their ranges, whatever LOCAL holds. -/
def State.loadValue (s : State) (mask : Nat) (a bits : Nat) (v : Word) : State :=
  if isWheel a && !mask.testBit ((a - 0x500F1000) / 0x100) then s
  else
    let old := s.reg a
    let new := (old &&& ~~~(word bits)) ||| (v &&& word bits)
    let (new, n) := if a = aCh 0x18 ∨ a = aCh 0x1C then s.schedRange (a - aCh 0) new else s.clampReg a new
    let s := (s.setReg a new).clamp n
    if isWheel a then s.setReg (a + 0x10) new else s

/-- The memory with the cells of a range replaced by those of `cells`, moved up by `lo`. -/
def loadRange (m : Memory) (lo n : Nat) (cells : Memory) : Memory :=
  m.filter (fun c => decide (c.1 < lo)) ++ (cells.filter fun c => decide (c.1 < n)).map (fun c => (lo + c.1, c.2))
    ++ m.filter fun c => decide (lo + n ≤ c.1)

/-- The cells of a range, from offset 0 on. -/
def saveRange (m : Memory) (lo n : Nat) : Memory :=
  (m.filter fun c => decide (lo ≤ c.1) && decide (c.1 < lo + n)).map fun c => (c.1 - lo, c.2)

/-- A range is loaded with whole code words (R181); an armed injection applies to the first one of its memory (R188). -/
def State.loadCells (s : State) (lo n : Nat) (cells : Memory) : State :=
  let s := { s with mem := loadRange s.mem lo n cells
                    ecc := { s.ecc with bad := tabDrop (fun a _ => decide (lo ≤ a ∧ a < lo + n)) s.ecc.bad } }
  let firsts := if n = 0x14000 then [lo, lo + 0x10000] else [lo]
  match firsts.find? fun a => s.injected (memNum a) != 0 with
  | some a => s.markCode a 0
  | none => s

/-- Bytes of an engine's SRAM, of the Ward table and of the route table. -/
def engBytes : Nat := 0x14000
def wardBytes : Nat := 0x20000
def routeBytes : Nat := 0x10000

/-- The image of engine `k` is loaded (R404): SRAM, thread configuration, the bank that it runs. -/
def State.loadImage (s : State) (k : Nat) (x : EngImage) : State :=
  let s := s.loadCells (engKey k 0) engBytes x.cells
  let s := x.thcfg.foldl (fun s c => s.setReg (aThcfg k c.1) c.2) s
  s.setRegFld (aKpr 0x20C) k 1 x.bankB.toNat

/-- The profile's image for engine `k`, that of engine 2j for both engines of a pair that the profile sets (R99). -/
def Profile.image (p : Profile) (k : Nat) : Option EngImage :=
  if k % 2 = 1 && bit (tabGet 0 p.values aTwin) (k / 2) then tabFind p.images (k - 1) else tabFind p.images k

/-- Header bytes as numbers (Table 16.1). -/
def hdr (h : List Byte) (off n : Nat) : Nat := field h off n

/-- An image of the profile names an ABI level outside 1 to 1 (R437). -/
def Profile.badAbi (p : Profile) : Bool :=
  p.images.any fun x => x.2.header.any fun h => hdr h 13 1 != 1

/-- The header most recently activated among the profile's images. -/
def Profile.latest (p : Profile) : Option (List Byte) :=
  (p.images.foldl (fun (best : Option (Nat × List Byte)) x => match x.2.header with
    | none => best
    | some h => if best.any fun b => decide (x.2.order < b.1) then best else some (x.2.order, h)) none).map (·.2)

/-- UPD_LVL for a header (R437). -/
def lvlOf (h : List Byte) : Word := word (hdr h 10 2 * 2 ^ 16 + hdr h 12 1 * 2 ^ 8 + hdr h 13 1)

/-- The routes that a load has brought take the clamps of R216 (R41). -/
def State.clampRoutes (s : State) : State :=
  s.listedRoutes.foldl (fun s r =>
    let (w, n) := clampRoute (s.rawRoute r)
    if n = 0 then s else { s with mem := writeBytes s.mem (routeKey r) (leBytes 16 w) }.clamp n) s

/-- The selected profile is loaded (R380, R404, R437). -/
def State.loadProfile (s : State) (p : Profile) : State :=
  let mask := p.mask.toNat
  let s := stored.foldl (fun s x => match tabFind p.values x.1 with
    | some v => s.loadValue mask x.1 x.2 v
    | none => s) s
  let s := ((s.loadCells 0x50080000 wardBytes p.ward).loadCells 0x60000000 routeBytes p.routes).clampRoutes
  let s := (s.setReg (aHf 0x20) p.grp0).setReg (aHf 0x24) p.grp1
  let s := (maskEngines mask).foldl (fun s k => (p.image k).elim s fun x => s.loadImage k x) s
  let s := p.latest.elim s fun h => s.setReg (aKpr 0x218) (lvlOf h)
  { s with sys := { s.sys with padsLoaded := true } }

/-- The retained selection as 0x2100 sub 2 reads it: the latest write, which may still be on its way (R381). -/
def State.selection (s : State) : Nat :=
  ((s.sys.aon.filter fun w => w.addr == 0).getLast?).elim s.sys.keepSel fun w => w.value.toNat

/-! ### The extents of a profile (R406) -/

/-- The bytes of an extent that the CRC-32 runs over. The formats are internal to the Keeper (R402); the order is the model's own (log
entry 125). -/
def cellsBytes (m : Memory) : List Byte := m.flatMap fun c => leBytes 4 c.1 ++ [c.2]
def wordsBytes (t : Tab Word) : List Byte := t.flatMap fun c => leBytes 4 c.1 ++ leBytes 4 c.2.toNat

def EngImage.extent (x : EngImage) : List Byte :=
  cellsBytes x.cells ++ wordsBytes x.thcfg ++ BitVec.ofNat 8 x.bankB.toNat :: x.header.getD []

def Profile.valuesExtent (p : Profile) : List Byte :=
  wordsBytes p.values ++ leBytes 4 p.grp0.toNat ++ leBytes 4 p.grp1.toNat

/-- An extent is written with its CRC-32. -/
def EngImage.sealed (x : EngImage) : EngImage := { x with crc := crc32 x.extent }

def Profile.sealed (p : Profile) : Profile :=
  { p with crcValues := crc32 p.valuesExtent, crcWard := crc32 (cellsBytes p.ward), crcRoutes := crc32 (cellsBytes p.routes) }

/-- Every extent of the profile passes its check (R406). -/
def Profile.sound (p : Profile) : Bool :=
  (!p.config || (p.crcValues == crc32 p.valuesExtent && p.crcWard == crc32 (cellsBytes p.ward)
    && p.crcRoutes == crc32 (cellsBytes p.routes)))
  && p.images.all fun x => x.2.crc == crc32 x.2.extent

/-- A table as a save reads it, each code word checked (R172, R186, R383), under the Keeper's identity: what it stores of an
uncorrectable word is a free value (log entry 3). -/
def State.saveTable (s : State) (lo n : Nat) : State × Memory :=
  let marked := (s.ecc.bad.map (·.1)).filter fun a => decide (lo ≤ a) && decide (a < lo + n)
  marked.foldl (fun (acc : State × Memory) key =>
    let (s, v) := acc.1.readCode key 0 289
    let (s, v) := match v with
      | some v => (s, v)
      | none =>
        let (s, a) := s.drawWord
        let (s, b) := s.drawWord
        (s, a.toNat + b.toNat * 2 ^ 32)
    (s, writeBytes acc.2 (key - lo) (leBytes 8 v))) (s, saveRange s.mem lo n)

/-- The stored values, tables and groups as they stand, each extent with its CRC-32 (R383, R406); the engine images stay as they are. -/
def State.picture (s : State) (p : Profile) : State × Profile :=
  let (s, ward) := s.saveTable 0x50080000 wardBytes
  let (s, routes) := s.saveTable 0x60000000 routeBytes
  let q : Profile := { p with
    config := true
    values := stored.foldl (fun t x => tabSet t x.1 (s.reg x.1 &&& word x.2)) []
    ward := ward, routes := routes
    grp0 := s.reg (aHf 0x20), grp1 := s.reg (aHf 0x24) }
  (s, q.sealed)

/-! ### The journal (R414) -/

/-- The journal is evaluated: a write cut short is reported, one that had written all its segments is done. The report's
event comes when the scan ends. -/
def State.evalJournal (s : State) : State :=
  match s.nv.journal with
  | none => s
  | some i =>
    let segs := segments i.start (i.lenm1 + 1)
    if segs.length ≤ i.progress then { s with nv := { s.nv with journal := none } }
    else
      let s := s.setFlag aKprStat 28
      let s := s.setReg (aKpr 0x18) (word (i.page * 2 ^ 16 + i.start * 2 ^ 8 + i.lenm1))
      s.setReg (aKpr 0x1C) (word (((segs.take i.progress).flatten).length * 2 ^ 16 + (segs.getD i.progress []).length))

/-- A scan ends (R408, R414): a torn report raises channel 663. -/
def State.scanEnd (s : State) : State :=
  let s := { s with kpr := { s.kpr with scan := false } }
  if bit (s.reg aKprStat) 28 then s.raise 663 else s

/-! ### Recall (R57, R58, R404 to R406, R457, R458) -/

/-- PRESENT (0x2100 sub 8), from the directory, before any extent is read (R404). -/
def State.presentBits (s : State) : Nat :=
  if !s.nv.formatted then 0
  else (upTo 4).foldl (fun n i => n + ((tabFind s.nv.profiles i).any (·.config)).toNat * 2 ^ i) 0

/-- What the scan finds of the selected profile: LOADSTAT, and the profile where it is loaded (R406, R437). -/
def State.selected (s : State) : Nat × Option Profile :=
  match (if s.nv.formatted && s.kpr.nvReady then tabFind s.nv.profiles s.sys.keepSel else none) with
  | none => (1, none)
  | some p => if !p.sound then (2, none) else if p.badAbi then (3, none) else (0, some p)

/-- Steps 1 to 3 of R404: the macro's readiness, UNFMT, PRESENT. -/
def State.readAnchors (s : State) : State :=
  let ok := s.kpr.nvReady && s.nv.formatted
  { s with kpr := { s.kpr with noNv := !s.kpr.nvReady }
           agent := { s.agent with present := if ok then s.presentBits else 0 } }.setRegFld aKprStat 29 1 (!ok).toNat

/-- Step 6 of R404. -/
def State.readJournal (s : State) : State := if s.kpr.nvReady && s.nv.formatted then s.evalJournal else s

/-- Every engine of the profile's mask has locked (R404). -/
def State.maskLocked (s : State) : Bool := (maskEngines s.mask).all s.islandOn

/-- A port that its loaded enable bit does not allow goes down (R326). -/
def State.portsAsSet (s : State) : State :=
  let s := if s.portEn .a then s else s.setPort .a false
  if s.portEn .b then s else s.setPort .b false

/-- The Recall scan ends (R57, R58, R404): `key` is the device key as the key port answered. -/
def State.recallEnd (s : State) (key : Option (BitVec 256)) : State :=
  if s.sys.mode != .recall || s.sys.held || s.sys.noRef || (s.kpr.nvReady && !s.maskLocked) then s
  else
    let (stat, prof) := s.selected
    let s := { s with kpr := { s.kpr with key := key } }.readAnchors
    let s := match prof with
      | some p => s.loadProfile p |>.portsAsSet
      | none => (s.loadCells 0x50080000 wardBytes []).loadCells 0x60000000 routeBytes []
    let s := s.readJournal.commitDone
    let s := { s with agent := { s.agent with loadstat := stat, active := if prof.isSome then s.sys.keepSel else 0xFF } }
    let s := s.setMode (if s.sys.keepAddr = 0 then .unaddressed else .preparation)
    let s := s.scanEnd
    let s := if s.localSched then s.startLocal else s
    if prof.isSome then s.queueStart 0 else s

/-- NV_READY rises (R457): the level stands while the Keeper island has power, in reset too; in Recall the mask can be read. -/
def State.nvReadyRises (s : State) : State :=
  if s.sys.mode == .doze || s.sys.mode == .dormant then s
  else
    let s := { s with kpr := { s.kpr with nvReady := true } }
    if s.running then s.maskUp else s

/-- A rescan reads the key (R408, R409). -/
def State.rescan (s : State) (key : Option (BitVec 256)) : State :=
  if s.running && s.sys.mode != .recall && s.kpr.scan then { s with kpr := { s.kpr with key := key } } else s

/-- A rescan ends (R408, R414, R457): steps 1, 2, 3 and 6 of R404; the rings are read where they stand. -/
def State.rescanEnd (s : State) : State :=
  if !s.running || s.sys.mode == .recall || !s.kpr.scan then s
  else s.readAnchors.readJournal.scanEnd

/-! ### Ring items (R416 to R419) -/

/-- A ring item that is defined. -/
def State.ringItem (s : State) (i : Nat) : Option RingItem := if s.kpr.noNv then none else tabFind s.nv.rings i

/-- The value that RING READ returns (R417 to R419). -/
def State.ringValue (s : State) (i : Nat) (r : RingItem) : List Byte :=
  match (s.kpr.queue.filter fun q => q.1 == i).getLast? with
  | some q => q.2
  | none => match tabFind s.kpr.copies i with
    | some v => v
    | none => (r.current.map fun c => c.2.take r.bytes).getD (List.replicate r.bytes 0)

/-- The first entry of item `i` takes a new value. -/
def putFirst (i : Nat) (v : List Byte) : List (Nat × List Byte) → List (Nat × List Byte)
  | [] => []
  | q :: qs => if q.1 = i then (i, v) :: qs else q :: putFirst i v qs

/-- The queue with the value queued, in place of the item's latest entry or behind all, and whether there was room (R418). -/
def State.ringPut (s : State) (i : Nat) (v : List Byte) (replace : Bool) : State × Bool :=
  if !replace && decide (8 ≤ s.kpr.queue.length) then (s, false)
  else
    let q := s.kpr.queue
    ({ s with kpr := { s.kpr with queue := if replace then (putFirst i v q.reverse).reverse else q ++ [(i, v)]
                                  copies := tabErase s.kpr.copies i } }, true)

/-- A value enters the ring queue (R418), where there is room: it replaces a value that waits, and goes behind one whose slot write is
in progress. -/
def State.ringQueue (s : State) (i : Nat) (v : List Byte) : State × Bool :=
  if s.kpr.queue.tail.any (·.1 == i) then s.ringPut i v true
  else if s.kpr.queue.head?.any (·.1 == i) then
    let (s, b) := s.ringBusy
    s.ringPut i v !b
  else s.ringPut i v false

/-- Try `j` of a step that fails its first `bad` slots: what stands for the CRC of a slot that reads back wrong is a free value. -/
def RingItem.tryWrite (r : RingItem) (v : List Byte) (bad : Nat) (a : State × Tab (List Byte)) (j : Nat) :
    State × Tab (List Byte) :=
  let t := r.target j
  if bad ≤ j then (a.1, tabSet a.2 t.1 (slotBytes v t.2))
  else
    let (s, n) := a.1.drawNat
    (s, tabSet a.2 t.1 (v ++ leBytes 4 t.2.toNat ++ leBytes 4 (n % 2 ^ 16)))

/-- A ring management step with `failures` failed slots (R419). -/
def State.ringStep (s : State) (failures : Nat) : State :=
  if !s.ringRuns || !s.running then s
  else match s.kpr.queue with
  | [] => s
  | (i, v) :: q =>
    match s.ringItem i with
    | none => s
    | some r =>
      let bad := min 3 failures
      let tries := if bad = 3 then 3 else bad + 1
      let (s, store) := (upTo tries).foldl (r.tryWrite v bad) (s, r.store)
      let s := { s with nv := { s.nv with rings := tabSet s.nv.rings i { r with store := store } }
                        kpr := { s.kpr with queue := q, writing := false } }
      let s := (s.count (aKpr 0x20) 16 16 tries).count (aKpr 0x20) 0 16 bad
      let s := if bad = 3 then
          ({ s with kpr := { s.kpr with copies := tabSet s.kpr.copies i v } }.setFlag aKprStat 26).raise 663
        else s
      let s := if q.isEmpty then s.raise 662 else s
      s.tryDoze

/-! ### Commands (R410 to R415, R418, R421, R425) -/

/-- KPR_STAT.BUSY. -/
def State.kprBusy (s : State) : Bool := s.kpr.cmd.isSome || s.kpr.save.isSome || s.upd.state == 2

/-- A command with operation `op` can start (R407, R408, R410, R422, R423). -/
def State.kprFree (s : State) (op : Nat) : Bool :=
  s.sys.mode != .recall && !s.kpr.scan && !s.entering && s.kpr.cmd.isNone
    && ((s.kpr.save.isNone && s.upd.state != 2) || op == 3 || op == 4)

/-- A write of KPR_CMD by `id` (R410). `own`: the dictionary agent's own buffer with its bytes. -/
def State.kprStart (s : State) (id : Nat) (v : Word) (own : Option (List Byte)) : State :=
  let op := fld v 28 4
  let s := if 5 < op then s.clamp else s
  let op := if 5 < op then 0 else op
  if !s.kprFree op then s.setFlag aKprStat 27
  else if op = 0 then s
  else
    let c : KprCmd := { op := op, arg := fld v 16 12, start := fld v 8 8, lenm1 := fld v 0 8, id := id
                        data := own.getD (readBytes s.mem aKprBuf 256), own := own.isSome }
    { s with kpr := { s.kpr with cmd := some c } }

/-- The ring items that FORMAT defines (Table 15.6), with the clamps counted. -/
def formatRings (data : List Byte) : Tab RingItem × Nat :=
  (upTo 64).foldl (fun (acc : Tab RingItem × Nat) i =>
    let h := field data (4 + 2 * i) 2
    let n := h / 2 ^ 4 % 2 ^ 7
    let m := if 0 < n ∧ n < 4 then 4 else min n 64
    (if m = 0 then acc.1 else tabSet acc.1 i ⟨h % 16, m, []⟩, acc.2 + (m != n).toNat)) ([], 0)

/-- Pages of the ring area. -/
def ringPages (rs : Tab RingItem) : Nat := ((rs.map fun x => x.2.slots * (x.2.bytes + 8)).foldl (· + ·) 0 + 255) / 256

/-- Live pages are at least `n` and within LIMIT (R403); the formats are internal, so the count is a free value. -/
def State.setLive (s : State) (n : Nat) : State :=
  let (s, x) := s.drawNat
  { s with nv := { s.nv with live := n + x % (s.nvLimit - n + 1) } }

/-- FORMAT (R421): the state and its code. -/
def State.format (s : State) (c : KprCmd) (nverr : Bool) : State × Nat :=
  if s.sys.mode != .preparation then (s, 5)
  else
    let raw := field c.data 0 4 % 2 ^ 13
    let (rings, n) := formatRings c.data
    let s := s.clamp n
    let live := 4 + ringPages rings + raw
    if s.nvLimit < live then (s, 6)
    else if nverr then (s, 3)
    else
      let nv : Nv := { formatted := true, rawcnt := raw, rings := rings, orders := s.nv.orders }
      let s := { s with nv := nv, kpr := { s.kpr with queue := [], copies := [], writing := false }
                        agent := { s.agent with present := 0 } }
      ((s.setLive live).setRegFld aKprStat 29 1 0, 1)

/-- What a command does: its code (Table 15.7) and the bytes it returns. -/
def State.kprRun (s : State) (c : KprCmd) (nverr : Bool) : State × Nat × List Byte :=
  if s.kpr.noNv then (s, 3, [])
  else match c.op with
  | 1 => if s.nv.rawcnt ≤ c.arg then (s, 2, []) else (s, 1, s.rawGet c.arg c.start (c.lenm1 + 1))
  | 2 =>
    if s.nv.rawcnt ≤ c.arg then (s, 2, [])
    else if nverr then (s.cutRaw, 3, [])
    else
      let s := s.rawPut c.arg c.start c.data (upTo (c.lenm1 + 1))
      ({ s with nv := { s.nv with journal := none } }, 1, [])
  | 3 => match s.ringItem c.arg with
    | none => (s, 2, [])
    | some r => (s, 1, s.ringValue c.arg r)
  | 4 => match s.ringItem c.arg with
    | none => (s, 2, [])
    | some r => match s.ringQueue c.arg (c.data.take r.bytes) with
      | (s, true) => (s, 1, [])
      | (s, false) => (s, 4, [])
  | _ =>
    let (s, code) := s.format c nverr
    (s, code, [])

/-- The bytes that a read command returns. -/
def State.kprBytes (s : State) (c : KprCmd) : List Byte :=
  if s.kpr.noNv then []
  else match c.op with
  | 1 => if s.nv.rawcnt ≤ c.arg then [] else s.rawGet c.arg c.start (c.lenm1 + 1)
  | 3 => (s.ringItem c.arg).elim [] fun r => s.ringValue c.arg r
  | _ => []

/-- The command in progress has returned some more bytes into KPR_BUF by now, a free number (R411, log entry 127). -/
def State.kprFill (s : State) : State :=
  match s.kpr.cmd with
  | none => s
  | some c =>
    let bs := s.kprBytes c
    if c.own || decide (bs.length ≤ c.filled) then s
    else
      let (s, n) := s.drawNat
      let m := c.filled + n % (bs.length - c.filled + 1)
      { s with mem := writeBytes s.mem (aKprBuf + c.filled) ((bs.take m).drop c.filled)
               kpr := { s.kpr with cmd := some { c with filled := m } } }

/-- KPR_RES takes an outcome (R410): channel 662, and 663 for a failure. -/
def State.kprResult (s : State) (op id code : Nat) : State :=
  let s := (s.setReg (aKpr 0xC) (word (op * 2 ^ 28 + id * 2 ^ 16 + code))).raise 662
  if code = 1 then s else s.raise 663

/-- The command in progress ends (R410): the state, and the command with its code and the bytes it returns; into KPR_BUF
but for a command of the agent's own (R411). -/
def State.kprEnd (s : State) (mismatches : Nat) (nverr : Bool) : State × Option (KprCmd × Nat × List Byte) :=
  match s.kpr.cmd with
  | none => (s, none)
  | some c =>
    let (s, code, bs) := s.kprRun c (nverr && (c.op == 2 || c.op == 5))
    let s := if c.op = 2 ∧ code ≠ 2 ∧ s.kpr.noNv = false then s.count (aKpr 0x20) 0 16 mismatches else s
    let s := if c.own then s else { s with mem := writeBytes s.mem (aKprBuf + c.filled) (bs.drop c.filled) }
    let s := ({ s with kpr := { s.kpr with cmd := none } }.kprResult c.op c.id code).tryDoze
    (s, some (c, code, bs))

/-! ### Saves (R383, R422) -/

/-- Profile `n` is held by an activation (R436). -/
def State.profileHeld (s : State) (n : Nat) : Bool :=
  ((s.upd.state == 2 || s.upd.state == 3 || s.upd.state == 4) && s.upd.profile == n) || s.upd.commit.any (·.1 == n)

/-- The save in progress ends (R383, R422); whether it fits is internal to the Keeper, a free value. -/
def State.saveEnd (s : State) (nverr : Bool) : State :=
  match s.kpr.save with
  | none => s
  | some n =>
    let s := { s with kpr := { s.kpr with save := none } }
    let stat (s : State) (x : Nat) : State := { s with agent := { s.agent with savestat := x } }
    let (s, fits) := s.drawBit
    let s :=
      if s.profileHeld n then stat (s.kprResult 7 288 1) 3
      else if s.kpr.noNv || nverr then stat (s.kprResult 7 288 3) 2
      else if !fits then stat (s.kprResult 7 288 6) 2
      else
        let (s, p) := s.picture (tabGet {} s.nv.profiles n)
        let s := { s with nv := { s.nv with formatted := true, profiles := tabSet s.nv.profiles n p } }.setRegFld aKprStat 29 1 0
        let s := s.setLive (4 + ringPages s.nv.rings + s.nv.rawcnt)
        stat ({ s with agent := { s.agent with present := s.presentBits } }.kprResult 7 288 1) 1
    s.tryDoze

/-! ### Registers (Tables 15.7, 16.5) -/

/-- UPD_STAT.GAP (R433): the byte offset of the lowest uncovered word. -/
def gapFrom (cover : List (Nat × Nat)) : Nat → Nat → Nat
  | 0, g => g
  | n + 1, g =>
    match cover.find? fun r => decide (r.1 ≤ g) && decide (g < r.2) with
    | some r => gapFrom cover n r.2
    | none => g

def State.gap (s : State) : Nat :=
  min (hdr s.upd.header 16 4) (gapFrom s.upd.cover s.upd.cover.length 0 / 4 * 4)

/-- A read in the Keeper window. After a reset KPR_STAT.SCAN reads 1, since State.reset stands at 1.0 µs of Table 2.15, where the Recall
scan begins, and Table 15.7's 0 is the value of 0.5 µs (DESIGN CHOICE, log entry 128). -/
def State.kprRead (s : State) (id off : Nat) : State × Word :=
  let shown := s.sys.mode != .recall && !s.kpr.noNv
  if 0x100 ≤ off ∧ off < 0x200 then (s.kprFill, readWord s.kprFill.mem (aKpr off))
  else if 0x400 ≤ off ∧ off < 0x500 then
    (s, match (if shown then tabFind s.nv.rings ((off - 0x400) / 4) else none) with
      | none => 0
      | some r => word (2 ^ 31 + r.current.isNone.toNat * 2 ^ 30 + r.slots * 2 ^ 16 + r.lw))
  else match off with
  | 0x004 =>
    (s, s.reg aKprStat ||| word (s.kprBusy.toNat * 2 ^ 31 + s.kpr.scan.toNat * 2 ^ 30 + s.kpr.queue.length * 2 ^ 16))
  | 0x010 => (s, word (s.npages * 2 ^ 16 + (if shown then s.nv.rawcnt else 0)))
  | 0x014 => (s, word ((if shown then s.nv.live else 0) * 2 ^ 16 + s.nvLimit))
  | 0x204 => (s, s.reg (aKpr 0x204) ||| word (s.gap * 2 ^ 16 + s.upd.state))
  | 0x210 =>
    let t := s.upd.armed.getD 0
    ({ s with upd := { s.upd with timeh := tabSet s.upd.timeh id (word (t.toNat / 2 ^ 32)) } }, word t.toNat)
  | 0x214 => (s, tabGet 0 s.upd.timeh id)
  | _ => (s, s.reg (aKpr off))

end Sys2Proof.Machine
end

