-- ==== Sys2Proof/Machine/Update.lean ====
section
/-! DEFINITION. Firmware update (chapter 16): staging sessions, seals, the schedule of an activation, activations and
their commit. -/

namespace Sys2Proof.Machine

/-- The reason codes of Table 16.3 that have an outcome of their own in this file. -/
inductive Reason where
  | notReady
  | auth
  | header
  | engine
  | noSpace
  | abi
  | layout
  | proto
  | peer
  | owner
  | noSched
  | verify
  | armed
  | nvErr
  deriving DecidableEq, Repr

def Reason.code : Reason → Nat
  | .notReady => 1 | .auth => 2 | .header => 3 | .engine => 4 | .noSpace => 5 | .abi => 6 | .layout => 7
  | .proto => 8 | .peer => 9 | .owner => 10 | .noSched => 11 | .verify => 12 | .armed => 13 | .nvErr => 14

/-- A reason code is recorded in UPD_STAT.REASON. -/
def State.setReasonCode (s : State) (c : Nat) : State := s.setRegFld (aKpr 0x204) 4 4 c

/-- A reason is recorded in UPD_STAT.REASON. -/
def State.setReason (s : State) (r : Reason) : State := s.setReasonCode r.code

/-- The session fails (R432, R434). -/
def State.updFail (s : State) (r : Reason) : State :=
  ({ s with upd := { s.upd with state := 5, extents := [] } }).setReason r

/-- Fields of the recorded header (Table 16.1). -/
def State.updLen (s : State) : Nat := hdr s.upd.header 16 4

/-- The engines of a header's ENGMASK after R430: an odd engine of a pair goes with the even one. -/
def State.hdrEngines (s : State) (h : List Byte) : List Nat :=
  (upTo 16).filter fun k => (hdr h 14 2).testBit (s.lead k)

/-- The header is acceptable (R427). -/
def acceptable (h : List Byte) : Bool :=
  let len := hdr h 16 4
  h.length == 64 && hdr h 0 4 == 0x4A4B3256 && hdr h 4 1 == 1 && hdr h 5 1 == 1 && decide (4 ≤ len)
    && decide (len ≤ 32768) && len % 4 == 0 && hdr h 14 2 != 0 && hdr h 21 1 == 0 && hdr h 24 8 == 0

/-- Engine `k` runs bank B (UPD_BANK.ACTB). -/
def State.bankB (s : State) (k : Nat) : Bool := bit (s.reg (aKpr 0x20C)) k

/-- The local address at which the inactive bank of engine `k` begins (R429). -/
def State.inactive (s : State) (k : Nat) : Nat := if s.bankB k then 0 else 0x8000

/-- Some thread of engine `k` that is not STOPPED has its pc in the inactive bank (R432). -/
def State.runsInactive (s : State) (k : Nat) : Bool :=
  (upTo 16).any fun t =>
    let x := s.thr (16 * s.lead k + t)
    x.st != .stopped && decide (s.inactive k ≤ x.pc.toNat) && decide (x.pc.toNat < s.inactive k + 0x8000)

/-- The session is abandoned (R432, R435): IDLE, its uncommitted extents freed. -/
def State.updIdle (s : State) : State :=
  { s with upd := { s.upd with state := 0, sealReq := false, extents := [] } }

/-- An abort (R435). -/
def State.updAbort (s : State) : State := if s.upd.state = 4 then s else s.updIdle

/-- An open with a session number and a header (R432): the state, and whether it succeeded. -/
def State.updOpen (s : State) (session : Word) (h : List Byte) : State × Bool :=
  if s.upd.state = 4 then (s.setReason .armed, false)
  else
    let s := s.updIdle
    if !acceptable h then (s.updFail .header, false)
    else if (s.hdrEngines h).any fun k => !s.islandOn k || s.runsInactive k then (s.updFail .engine, false)
    else
      let s := s.setReg (aKpr 0x208) session
      ({ s with upd := { s.upd with state := 1, header := h, cover := [] } }, true)

/-- Bytes are written into the inactive bank of engine `k` from offset `off` on as code stores, each word once (R120,
R433). An engine whose island is off or retained is not written, and the access counts (R24). -/
def State.stageIn (s : State) (k off : Nat) (bs : List Byte) : State :=
  if !s.islandOn k then s.gateCount 288
  else
  let a := s.inactive k + off
  let s := s.storeBytes (engKey k a) 288 bs
  (upTo ((a + bs.length + 3) / 4 - a / 4)).foldl (fun s i =>
    let w := 4 * (a / 4 + i)
    s.snoop k w (readWord s.mem (engKey k w))) s

/-- Payload bytes from byte offset `off` on reach the inactive banks and are covered (R433). -/
def State.stage (s : State) (off : Nat) (bs : List Byte) : State :=
  let s := (s.hdrEngines s.upd.header).foldl (fun s k => s.stageIn k off bs) s
  { s with upd := { s.upd with cover := s.upd.cover ++ [(off, off + bs.length)] } }

/-- The profile that a seal writes to (R436): the active one, or the one that 0x2100 sub 2 names. -/
def State.updProfile (s : State) : Nat := if s.agent.active = 0xFF then s.selection else s.agent.active

/-- A seal starts once every word is covered and it has been asked for (R434); its profile is held from then on (R436). -/
def State.sealTry (s : State) : State :=
  if s.upd.state = 1 ∧ s.upd.sealReq = true ∧ s.gap = s.updLen then
    { s with upd := { s.upd with state := 2, profile := s.updProfile } }
  else s

/-- A seal is asked for (R434). -/
def State.sealAsk (s : State) : State := ({ s with upd := { s.upd with sealReq := true } }).sealTry

/-- A seal command (R434). -/
def State.sealCmd (s : State) : State :=
  if s.upd.state ≠ 1 then s
  else if s.gap ≠ s.updLen then s.updFail .notReady
  else s.sealAsk

/-- The remainder of an inactive bank is written with 0 (R434). -/
def State.zeroRest (s : State) (k : Nat) : State := s.stageIn k s.updLen (List.replicate (0x8000 - s.updLen) 0)

/-- The payload of engine `k` read back by the Keeper, identity 289 (R29, R434); nothing where a word is uncorrectable or the island is off. -/
def State.readPayload (s : State) (k : Nat) : State × Option (List Byte) :=
  if !s.islandOn k then (s.gateCount 289, none) else s.loadBytes (engKey k (s.inactive k)) s.updLen 0 289

/-- Every engine reads back the same payload. -/
def State.verify (s : State) (ks : List Nat) : State × Option (List Byte) :=
  match ks with
  | [] => (s, none)
  | k :: rest =>
    let (s, v) := s.readPayload k
    rest.foldl (fun (a : State × Option (List Byte)) j =>
      let (s, w) := a.1.readPayload j
      (s, if w = a.2 then a.2 else none)) (s, v)

/-- The tag of R428 over a header and a payload. -/
def tagOf (key : BitVec 256) (h payload : List Byte) : List Byte := hmac256 (leBytes 32 key.toNat) (h.take 32 ++ payload)

/-- The extent that a seal writes for engine `k` (R436). -/
def State.extent (s : State) (k : Nat) (payload : List Byte) : EngImage :=
  let old := tabGet {} (tabGet {} s.nv.profiles s.upd.profile).images k
  let bank := saveRange (writeBytes [] 0 payload) 0 0x8000
  { old with cells := loadRange old.cells (s.inactive k) 0x8000 bank, bankB := !s.bankB k
             header := some s.upd.header }.sealed

/-- A seal ends (R434). -/
def State.sealEnd (s : State) (nverr : Bool) : State :=
  if s.upd.state ≠ 2 then s
  else
    let ks := s.hdrEngines s.upd.header
    let fail (s : State) (r : Reason) : State := (((s.updFail r).raise 662).raise 663).tryDoze
    let s := ks.foldl State.zeroRest s
    match s.verify ks with
    | (s, none) => fail s .verify
    | (s, some payload) =>
      match s.kpr.key with
      | none => fail s .auth
      | some key =>
        if tagOf key s.upd.header payload ≠ (s.upd.header.drop 32).take 32 then fail s .auth
        else if s.kpr.noNv || nverr then fail s .nvErr
        else
          let (s, fits) := s.drawBit
          if !fits then fail s .noSpace
          else
            let ext := ks.foldl (fun t k => tabSet t k (s.extent k payload)) []
            (({ s with upd := { s.upd with state := 3, extents := ext } }).raise 662).tryDoze

/-! ### Scheduling and activation (R438 to R441) -/

/-- A level of 0x6212. -/
def State.lvl (s : State) (i : Nat) : Nat := tabGet 0 s.agent.lvl i

/-- The check of R440; `tick` at an activation tick. -/
def State.updCheck (s : State) (tick : Bool) : Option Reason :=
  let h := s.upd.header
  let lvlReg := s.reg (aKpr 0x218)
  let proto := hdr h 12 1
  let abi := hdr h 13 1
  let layout := hdr h 10 2
  let far (a b : Nat) : Bool := decide (a + 1 < b) || decide (b + 1 < a)
  let peerMode := fld (s.reg (aShk 0x18)) 29 3
  let partner := bit (s.reg (aShk 0)) 0 && bit (s.reg (aShk 0x14)) 30 && (peerMode == 3 || peerMode == 4)
  if s.upd.state ≠ 3 ∧ s.upd.state ≠ 4 then some .notReady
  else if s.chain.sched.isNone then some .noSched
  else if abi ≠ 1 then some .abi
  else if tick && layout != fld lvlReg 16 16 && s.sys.mode != .preparation then some .layout
  else if s.lvl 7 ≠ 0 ∧ (far proto (s.lvl 5) || far proto (s.lvl 6)) = true then some .proto
  else if s.lvl 7 = 0 ∧ far proto (fld lvlReg 8 8) = true then some .proto
  else if !partner then none
  else if s.lvl 4 = 0 then some .peer
  else if far proto (s.lvl 1) || abi != s.lvl 3 || layout != s.lvl 2 then some .peer
  else if hdr h 20 1 = 1 ∧ bit (s.reg (aShk 0x14)) 31 = true then some .owner
  else none

/-- The identities that an activation names (R439): those of THREADS of each engine, a pair's once. -/
def State.updIds (s : State) : List Nat :=
  ((s.hdrEngines s.upd.header).filter fun k => s.lead k == k).flatMap fun k =>
    ((upTo 16).filter fun t => (hdr s.upd.header 22 2).testBit t).map (16 * k + ·)

/-- An activation under RELOCATE, with a flip of the same tick as one request (R439, R309, R310). -/
def State.updRelocate (s : State) : State :=
  let ids := s.updIds
  let miss := ids.filter fun id => !s.relocatable id
  let here := ids.filter s.relocatable
  let s := here.foldl State.relocate s
  let s := s.setReg (aKpr 0x220) (word (miss.getLastD 0 * 2 ^ 16 + min 255 miss.length))
  s.flip here

/-- An activation under RESTART (R439, R94). -/
def State.updRestart (s : State) (ks : List Nat) : State :=
  let s := s.setReg (aKpr 0x220) 0
  let s := (ks.filter fun k => s.lead k == k).foldl State.engineReset s
  s.flip []

/-- An activation tick has come: its check is that of the tick's cycle, after the ownership decision (R439). -/
def State.judged (s : State) : State :=
  if s.upd.due then { s with upd := { s.upd with verdict := (s.updCheck true).elim 0 Reason.code } } else s

/-- The activation of an activation tick that has come (R439). -/
def State.activate (s : State) : State :=
  if !s.upd.due then s
  else
    let verdict := s.upd.verdict
    let s := { s with upd := { s.upd with due := false, verdict := 0 } }
    if s.upd.state ≠ 4 then s
    else
      let u := { s.upd with armed := none, undecided := false }
      if verdict ≠ 0 then ({ s with upd := { u with state := 3, result := 2 } }).setReasonCode verdict
      else
        let h := u.header
        let ks := s.hdrEngines h
        let s := ks.foldl (fun s k => s.setRegFld (aKpr 0x20C) k 1 (!s.bankB k).toNat) s
        let s := if hdr h 20 1 = 1 then s.updRestart ks else s.updRelocate
        let s := (s.setReg (aKpr 0x218) (lvlOf h)).count (aKpr 0x21C) 0 16
        let version := word (hdr h 6 1 * 2 ^ 24 + hdr h 7 1 * 2 ^ 16 + hdr h 8 2)
        ({ s with upd := { u with state := 0, result := 1, version := version, actTime := s.chain.ti, sealReq := false
                                  extents := [], commit := some (u.profile, h, u.extents) } }).raise 669

/-- A write of 0x6200 (R438): the state, and whether it is answered OK. A write in the cycle of an activation tick acts
after it (R439). -/
def State.updSchedule (s : State) (t : Time64) : State × Bool :=
  let s := s.activate
  if t = 0 then
    (if s.upd.state = 4 then { s with upd := { s.upd with state := 3, armed := none, undecided := false } } else s, true)
  else match s.updCheck false with
  | some r => (s.setReason r, false)
  | none => ({ s with upd := { s.upd with state := 4, armed := some t, undecided := true } }, true)

/-- The Keeper commits the extents of an activation (R436, R439). -/
def State.updCommit (s : State) (nverr : Bool) : State :=
  match s.upd.commit with
  | none => s
  | some (n, _, ext) =>
    let s := { s with upd := { s.upd with commit := none } }
    let s :=
      if nverr then (s.setFlag (aKpr 0x204) 8).raise 663
      else
        let order := s.nv.orders + 1
        let p : Profile := tabGet {} s.nv.profiles n
        let images := ext.foldl (fun t x => tabSet t x.1 { x.2 with order := order }) p.images
        let mask := ext.foldl (fun m x => m ||| BitVec.ofNat 16 (2 ^ x.1)) p.mask
        { s with nv := { s.nv with formatted := true, orders := order
                                   profiles := tabSet s.nv.profiles n { p with images := images, mask := mask } } }.setRegFld aKprStat 29 1 0 |>.setLive (4 + ringPages s.nv.rings + s.nv.rawcnt)
    s.tryDoze

/-! ### UPDATE frames (R433, R435) -/

/-- A frame that the stager ignores counts (R435). -/
def State.updIgnore (s : State) : State := s.count (aKpr 0x21C) 16 16

/-- An UPDATE payload of a KIND below 0x80 reaches the stager (R432, R433, R435). -/
def State.stager (s : State) (pl : List Byte) : State :=
  let session := word (field pl 0 4)
  let off := field pl 4 4
  let data := pl.drop 12
  let mine := session == s.reg (aKpr 0x208) && s.upd.state == 1
  match field pl 8 1 with
  | 1 => (s.updOpen session data).1
  | 2 =>
    if !mine || off % 4 != 0 || data.length % 4 != 0 || decide (s.updLen < off + data.length) then s.updIgnore
    else
      let s := s.stage off data
      if field pl 9 1 % 2 = 1 then s.sealAsk else s.sealTry
  | 3 => if mine then s.updAbort
         else if session == s.reg (aKpr 0x208) && s.upd.state != 0 && s.upd.state != 4 then s.updAbort.updIgnore
         else s.updIgnore
  | _ => s.updIgnore

/-- An UPDATE frame arrives (R351, R435): the stager consumes kinds below 0x80 and clears FULL itself. -/
def State.updateFrame (s : State) (p : Port) (f : Frame) : State :=
  if !s.hears p || f.type != 6 || !s.takes f || s.sys.mode == .recall then s
  else match s.fresh f with
  | (s, false) => s
  | (s, true) =>
    let full := bit (s.reg (aCh 0x54)) 31
    let s := s.upBuf f.payload
    if full || 128 ≤ field f.payload 8 1 then s
    else (s.stager f.payload).setRegFld (aCh 0x54) 31 1 0

/-- A write of UPD_CTL (Table 16.5). -/
def State.updCtl (s : State) (v : Word) : State :=
  let s := if bit v 2 then (s.clearCount (aKpr 0x21C) 0 16).clearCount (aKpr 0x21C) 16 16 else s
  let s := if bit v 0 then s.sealCmd else s
  if bit v 1 then s.updAbort else s

/-- UPDATE_OPEN (R432): the frame acts by its KIND. -/
def execUpdateOpen (p : Port) (f : Frame) (s : State) : Out := .next (s.updateFrame p f)

/-- UPDATE_DATA (R433). -/
def execUpdateData (p : Port) (f : Frame) (s : State) : Out := .next (s.updateFrame p f)

/-- UPDATE_CLOSE (R435). -/
def execUpdateClose (p : Port) (f : Frame) (s : State) : Out := .next (s.updateFrame p f)

/-- UPDATE_FIRMWARE_KIND (R351). -/
def execUpdateFirmwareKind (p : Port) (f : Frame) (s : State) : Out := .next (s.updateFrame p f)

/-- SEAL_DONE (R434). -/
def execSealDone (nverr : Bool) (s : State) : Out := .next (if s.running then s.sealEnd nverr else s)

/-- ACTIVATION (R439). -/
def execActivation (s : State) : Out := .next (if s.running then s.activate else s)

/-- ACTIVATION_COMMIT (R436). -/
def execActivationCommit (nverr : Bool) (s : State) : Out := .next (if s.running then s.updCommit nverr else s)

end Sys2Proof.Machine
end

