-- ==== Sys2Proof/Machine/DictCore.lean ====
section
/-! DEFINITION. The dictionary agent's responses (chapter 13, Tables 12.8 and 13.4), firmware objects (R377, R378), and
when a response has left (R374, R375). -/

namespace Sys2Proof.Machine

/-- The status codes of Table 13.4. -/
inductive Status where
  | ok
  | stale
  | refused
  | busy
  | seqErr
  | noObj
  | noSub
  | rdOnly
  | wrOnly
  | tooLong
  | type
  | mode
  deriving DecidableEq, Repr

def Status.code : Status → Nat
  | .ok => 0 | .stale => 1 | .refused => 0x10 | .busy => 0x11 | .seqErr => 0x12 | .noObj => 0x20 | .noSub => 0x21
  | .rdOnly => 0x22 | .wrOnly => 0x23 | .tooLong => 0x24 | .type => 0x25 | .mode => 0x30

/-- The codes of Table 13.4. -/
def statusCodes : List Nat := [0, 1, 0x10, 0x11, 0x12, 0x20, 0x21, 0x22, 0x23, 0x24, 0x25, 0x30]

def byte (n : Nat) : Byte := BitVec.ofNat 8 n

/-- A payload of Table 12.8. -/
def dictPayload (h : DictHeader) (cmd : Nat) (last : Bool) (status : Nat) (data : List Byte) : List Byte :=
  [byte (cmd + 128 * last.toNat), h.tag] ++ leBytes 2 h.index.toNat ++ [h.sub, byte status] ++ leBytes 2 h.segno.toNat
    ++ data

/-- A response payload goes to the source of its request (R354); a request to DST 255 gets none (R349). -/
def State.sendDr (s : State) (h : DictHeader) (payload : List Byte) : State :=
  if h.src == .chain && h.bcast then s
  else
    let err := decide (16 ≤ (payload.getD 5 0).toNat)
    let up (w : Word) : Word := if w = 0xFFFFFFFF then w else w + 1
    let s := { s with agent := { s.agent with served := up s.agent.served
                                              errors := if err then up s.agent.errors else s.agent.errors } }
    match h.src with
    | .chain => s.queueOwn 2 0 payload (some h.seq)
    | .lrp => { s with lrp := { s.lrp with resp := some payload } }

/-- A response with a status and data; an error ends its transfer (R359). -/
def State.respond (s : State) (h : DictHeader) (cmd : Nat) (last : Bool) (st : Status) (data : List Byte) : State :=
  s.sendDr h (dictPayload h cmd (last || decide (16 ≤ st.code)) st.code data)

/-- What waits for the response to the request being served (R374, R375): it goes behind those that are queued, and a request to DST
255 has none. -/
def State.drWait (s : State) (h : DictHeader) : DrWait :=
  match h.src with
  | .chain => ⟨.chain, (s.chain.own.filter fun f => f.type == 2).length + (!h.bcast).toNat, 0⟩
  | .lrp => ⟨.lrp, 1, 0⟩

/-- The response has left both ports, or the controlling master has read it, and the always-on write has completed. -/
def DrWait.over (w : DrWait) : Bool := w.left == 0 && w.aon == 0

/-! ### Firmware objects (R378) -/

def aDfwCtl : Nat := 0x500F6000
def aDfwStat : Nat := 0x500F6004
def aDfwBuf : Nat := 0x500F6008

/-- Address of the exchange buffer. -/
def State.dfwBuf (s : State) : Nat := 0x40000000 + 8 * fld (s.reg aDfwBuf) 3 16

/-- A request waits for its firmware answer no longer. -/
def State.dfwClear (s : State) : State :=
  let s := (s.setRegFld aDfwStat 15 1 0).setRegFld aDfwStat 0 11 0
  { s with agent := { s.agent with fw := none } }

/-- A request for firmware (R378): the whole payload in whole code words, QLEN, PEND, channel 583 in the cycle after. -/
def State.dfwRequest (s : State) (h : DictHeader) (cmd : Nat) (data : List Byte) : State :=
  let pl := dictPayload h cmd h.last 0 data
  let pad := List.replicate ((8 - pl.length % 8) % 8) (0 : Byte)
  let s := s.storeBytes s.dfwBuf 288 (pl ++ pad)
  let s := (s.setRegFld aDfwStat 15 1 1).setRegFld aDfwStat 0 11 pl.length
  { s with agent := { s.agent with fw := some ⟨h, cmd, s.cycle + 1⟩ } }.raiseLater 1 583

/-- A write of DFW_RSP commits firmware's response (R378). -/
def State.dfwCommit (s : State) (v : Word) : State :=
  let n := fld v 16 11
  let m := min 1024 (max 8 n)
  let s := s.clamp (n != m).toNat
  match s.agent.fw with
  | none => s.setFlag aDfwStat 14
  | some q =>
    let (s, bs) := s.loadBytes s.dfwBuf m 0 288
    let s := s.dfwClear
    match bs with
    | none => s.respond q.hdr q.cmd true .refused []
    | some bs =>
      let st := (bs.getD 5 0).toNat
      let st := if statusCodes.contains st then st else 0x20
      let b0 := byte ((bs.getD 0 0).toNat / 16 * 16 + q.cmd)
      s.sendDr q.hdr (b0 :: (dictPayload q.hdr q.cmd false st (bs.drop 8)).drop 1)

/-- DFW_TIMEOUT (R378): TMO × 100 µs after the raise. -/
def execDfwTimeout (s : State) : Out :=
  .next (match s.agent.fw with
    | none => s
    | some q =>
      let s := (s.atCycle (q.since + 20000 * fld (s.reg aDfwCtl) 8 8)).count aDfwStat 16 16
      s.dfwClear.respond q.hdr q.cmd true .busy [])

end Sys2Proof.Machine
end

