-- ==== Sys2Proof/Machine/Bus.lean ====
section
/-! DEFINITION. Accesses to the address map of Table 1.5: who may write a register, islands that are off (R24), the common
field rules and clamps, what each window does at a read and a write, and the unit reset that an access can ask for. -/

namespace Sys2Proof.Machine

/-- What an access answers: a value, or the trap code with its INFO that replaces it (R143). -/
inductive Answer where
  | val (v : Word)
  | err (c : Trap) (info : Word)
  deriving DecidableEq, Repr

/-- The answer is no error. -/
def Answer.ok : Answer → Bool
  | .val _ => true
  | .err _ _ => false

/-- The value of an answer; an error carries 0. -/
def Answer.value : Answer → Word
  | .val v => v
  | .err _ _ => 0

/-- A Shuttle channel's identity (Table 1.4). -/
def isShuttle (id : Nat) : Bool := decide (256 ≤ id) && decide (id < 288)

/-- The unit master, the dictionary agent and debug. -/
def isUnit (id : Nat) : Bool := id == 0 || id == 288 || id == 290

/-- Master `id` may write the engine block of engine `k` (R81); `ctl` for ENG_CTL. -/
def mayEngine (id k : Nat) (ctl : Bool) : Bool :=
  id == 288 || id == 290 || (if ctl then id == 0 && k != 0 else id == 0 || id == 16 * k)

/-- Master `id` may write offset `off` of the system window (R49, R81, R156, R163, R189, R308, R379, R400). -/
def maySystem (id off : Nat) : Bool :=
  if off = 0x104 ∨ off = 0x10C then id == 0 || id == 290
  else if off < 0x1000 then true
  else if off < 0x2000 then mayEngine id ((off - 0x1000) / 0x100) (off % 0x100 == 0)
  else if off < 0x3000 then mayEngine id ((off - 0x2000) / 0x100) false
  else if off < 0x6000 ∨ 0x7000 ≤ off then isUnit id
  else if off = 0x6000 ∨ off = 0x6008 then isUnit id
  else !isShuttle id

/-- Master `id` may write `v` at a register address (R208, R227, R254, R286, R322, R353, R425, R443). -/
def mayWrite (id a : Nat) (v : Word) : Bool :=
  let off := a % 0x10000
  match a / 0x10000 with
  | 0x5000 => !(off == 0x2010 || off == 0x2020 || off == 0x2024 || off == 0x2028 || off == 0x202C) || isUnit id
  | 0x5001 => (decide (0x40 ≤ off) && decide (off < 0x58)) || isUnit id
  | 0x5002 => !((decide (0x1000 ≤ off) && decide (off < 0x1100)) || off == 0x1110) || isUnit id
  | 0x5003 => !isShuttle id
  | 0x5004 => off != 0 || isUnit id
  | 0x5005 => !(off == 0 || off == 0x18 || off == 0x1C || off == 0x28 || off == 0x30) || isUnit id
  | 0x5006 => !(off == 0 || (off == 8 && fld v 28 4 == 5) || off == 0x200 || off == 0x204) || isUnit id
  | 0x500F => maySystem id off
  | _ => true

/-- The address lies in image memory, in the Ward table, in a register window (Table 1.5). -/
def inImage (a : Nat) : Bool := decide (0x40000000 ≤ a) && decide (a < 0x40060000)
def inWard (a : Nat) : Bool := decide (0x50080000 ≤ a) && decide (a < 0x500A0000)
def inRegs (a : Nat) : Bool :=
  (decide (0x50000000 ≤ a) && decide (a < 0x50070000)) || (decide (0x500F0000 ≤ a) && decide (a < 0x50100000))

/-- A far range of Table 1.5 holds the address. -/
def inFar (a : Nat) : Bool := inImage a || inWard a || inRegs a

/-- The engine whose register block holds an address (R80). -/
def engineOf (a : Nat) : Option Nat :=
  if 0x500F1000 ≤ a ∧ a < 0x500F2000 then some ((a - 0x500F1000) / 0x100) else none

/-- The register lies in an engine island that is off or retained (R24, R80), or in the pad or Keeper island while that is
still off after a wake from Doze (Table 2.16). -/
def State.gated (s : State) (a : Nat) : Bool :=
  ((engineOf a).any fun k => !s.islandOn k)
    || (s.untilUp != 0 && (a / 0x10000 == 0x5002 || a / 0x10000 == 0x5006))

/-- The island that answers an access to an address (Table 1.5, R132), `wr` for a write: image memory, the Ward table, events,
locks, mail and the chain window belong to the fabric island, which also answers reads of always-on registers from a mirror. -/
def isleOf (a : Nat) (wr : Bool := false) : Isle :=
  if !inRegs a then .fabric
  else if isAon a then (if wr then .aon else .fabric)
  else if (engineOf a).isSome then .engine
  else match a / 0x10000 with
  | 0x5002 => .pad
  | 0x5006 => .keeper
  | _ => .fabric

/-- A register address whose write has no effect: a block of the odd engine of a Twin pair, its debug block included (R98,
R156, R163), a Shackle register outside Preparation (R386). -/
def State.writeHeld (s : State) (a : Nat) : Bool :=
  let off := a - 0x500F0000
  if 0x500F1000 ≤ a ∧ a < 0x500F3000 then
    let k := off % 0x1000 / 0x100
    s.twin k && k % 2 == 1
  else if 0x500F3100 ≤ a ∧ a < 0x500F3300 then
    let k := (off - 0x3100) / 0x20
    s.twin k && k % 2 == 1
  else if 0x500F7000 ≤ a ∧ a < 0x500F8000 then shkHeld (off - 0x7000) && s.sys.mode != .preparation
  else false

/-- The common field rules of a write (R13, R14, R40, R41). -/
def State.fieldWrite (s : State) (a : Nat) (v : Word) : State :=
  match regRow a with
  | none => s
  | some r =>
    let (w, n) := s.clampReg a (plainWrite r (s.reg a) (s.maskSets r a v))
    (s.setReg a w).clamp n

/-- The action of a write in the Keeper window beside the common field rules (Tables 15.7, 16.5). -/
def State.kprWrite (s : State) (id off : Nat) (v : Word) : State :=
  if 0x100 ≤ off ∧ off < 0x200 then { s.kprFill with mem := writeWord s.kprFill.mem (aKpr off) v }
  else match off with
  | 0x00 =>
    let s := if bit v 2 then (s.clearCount (aKpr 0x20) 0 16).clearCount (aKpr 0x20) 16 16 else s
    if bit v 1 && !s.setNow aKprStat 28 then
      let s := ((s.ackFlag aKprStat 28).setReg (aKpr 0x18) 0).setReg (aKpr 0x1C) 0
      { s with nv := { s.nv with journal := none } }
    else s
  | 0x08 => s.kprStart id v none
  | 0x200 => s.updCtl v
  | _ => s

/-- The action of a write from offset 0x1000 of the system window on beside the common field rules. -/
def State.sysHighWrite (s : State) (id off : Nat) (old v : Word) : State :=
  if off < 0x2000 then s.engWrite ((off - 0x1000) / 0x100) (off % 0x100) old v
  else if off < 0x3000 then s.trpWrite ((off - 0x2000) / 0x100) (off % 0x100) v
  else if off = 0x3000 then s.dbgCtlWritten old v
  else if off = 0x3008 then (s.ctxData id (some v)).1
  else if off = 0x3010 then (s.mData id (some v)).1
  else if 0x3100 ≤ off ∧ off < 0x3300 then s.dbgWrite ((off - 0x3100) / 0x20) (off % 0x20) v
  else if 0x4000 ≤ off ∧ off < 0x5000 then s.eccWrite off v
  else if 0x5000 ≤ off ∧ off < 0x6000 then s.scnWrite (off - 0x5000) v
  else if off = 0x600C then s.dfwCommit v
  else if 0x7000 ≤ off ∧ off < 0x8000 then s.shkWrite (off - 0x7000) v
  else s

/-- The action of a register write beside the common field rules. -/
def State.regAction (s : State) (id a : Nat) (old v : Word) : State :=
  let off := a % 0x10000
  match a / 0x10000 with
  | 0x5000 => s.tmrWrite off old v
  | 0x5001 => s.hfWrite id off old v
  | 0x5002 => s.padWrite off old v
  | 0x5003 => s.shWrite off old v
  | 0x5004 => s.tumWrite id off v
  | 0x5005 => s.chWrite off old v
  | 0x5006 => s.kprWrite id off v
  | _ => if off < 0x1000 then s.sysWrite id off v else s.sysHighWrite id off old v

/-- The RW bits of a register as they stand, with the other bits of `v`: the write that sets acting bits and changes no
field. -/
def State.keepWith (s : State) (a : Nat) (v : Word) : Word :=
  let rw := word ((regRow a).elim 0 (·.rw))
  (s.reg a &&& rw) ||| (v &&& ~~~rw)

/-- A write of a register by master `id` acts: the common field rules, then the register's own action. -/
def State.writeActs (s : State) (id a : Nat) (v : Word) : State := (s.fieldWrite a v).regAction id a (s.reg a) v

/-- A permitted write of a register that its island can take. Of the writes of one cycle the higher identities act last (R42): one
that a higher identity's has gone ahead of lands in the next cycle (log entry 83), and so does a write of HF_GRPEN that a group task
has gone ahead of (R220). -/
def State.regWrite (s : State) (id a : Nat) (v : Word) : State :=
  if s.writeHeld a then s
  else if isAon a then
    { s with sys := { s.sys with aon := s.sys.aon ++ [⟨a, v, if id < 256 then some id else none⟩] } }
  else
    let s := s.landsAfter id a
    let s := if s.sameNow.tasked && (a == 0x50010020 || a == 0x50010024) then s.pass 1 else s
    let s := if a / 0x10000 = 0x5002 then s.settlePads else s
    (s.noteWrites id [a]).writeActs id a v

/-- An image memory access of `n` cycles by a thread extends a pass that runs (R303). -/
def State.imageUse (s : State) (id a n : Nat) : State :=
  if decide (id < 256) && inImage a then s.imageCycles n else s

/-- A write of an aligned word at a far address by master `id`. -/
def State.busWrite (s : State) (id a : Nat) (v : Word) : State × Answer :=
  if inImage a || inWard a then ((s.imageUse id a 2).storeIn a 4 v.toNat id, .val 0)
  else if !inRegs a then (s, .err .farerr (word a))
  else if s.gated a then (s.gateCount id, .err .farerr (word a))
  else if !mayWrite id a v then (s, .err .priv (word a))
  else (s.regWrite id a v, .val 0)

/-- A read from offset 0x1000 of the system window on. -/
def State.sysHighRead (s : State) (id off : Nat) : State × Word :=
  if off < 0x2000 then (s, s.engRead ((off - 0x1000) / 0x100) (off % 0x100))
  else if off = 0x3008 then s.ctxData id none
  else if off = 0x3010 then s.mData id none
  else if 0x3100 ≤ off ∧ off < 0x3300 ∧ off % 0x20 = 0x0C then
    let k := s.lead ((off - 0x3100) / 0x20)
    (s, word ((upTo 16).foldl (fun n t => n + ((s.thr (16 * k + t)).st == .halted).toNat * 2 ^ t) 0))
  else if 0x4000 ≤ off ∧ off < 0x5000 then (s, s.eccRead off)
  else if 0x5000 ≤ off ∧ off < 0x6000 then (s, s.scnRead (off - 0x5000))
  else (s, s.reg (aSys off))

/-- A read of a register. -/
def State.regRead (s : State) (id a : Nat) : State × Word :=
  let off := a % 0x10000
  match a / 0x10000 with
  | 0x5000 => s.tmrRead id off
  | 0x5001 => s.hfRead id off
  | 0x5002 => s.padRead id off
  | 0x5003 => (s, s.shRead off)
  | 0x5004 => s.tumRead id off
  | 0x5005 => s.chRead id off
  | 0x5006 => s.kprRead id off
  | _ =>
    if off = 0x10 then
      let (s, b) := s.aonBusy
      (s, bitWord b)
    else if off < 0x1000 then (s, s.sysRead id off)
    else s.sysHighRead id off

/-- A read of `n` bytes at an aligned far address by master `id`. -/
def State.busRead (s : State) (id a n : Nat) : State × Answer :=
  if inImage a || inWard a then
    match (s.imageUse id a 1).loadIn a n 0 id with
    | (s, some v) => (s, .val (word v))
    | (s, none) => (s, .err .eccd (word (cwOf a)))
  else if !inRegs a then (s, .err .farerr (word a))
  else if s.gated a then (s.gateCount id, .err .farerr (word a))
  else
    let (s, v) := s.regRead id a
    (s, .val v)

/-! ### Unit resets asked for (Table 2.14) -/

/-- A debug write in flight may or may not take effect before a unit reset (R463). -/
def State.tapLands (s : State) : State :=
  match s.tap.access with
  | some (a, some v) =>
    let (s, b) := s.drawBit
    if b && s.running then (s.busWrite 290 a.toNat v).1 else s
  | _ => s

/-- A unit reset starts (R54, R463). -/
def State.resetNow (s : State) (cause : Nat) : State := s.tapLands.unitReset cause

/-- What an access just made sets off: a keyed write of SYS_RST acts (Table 2.7); an entry to Doze or Dormant goes on
where the access stopped its last channel (R65). -/
def State.settle (s : State) : State := if s.sys.resetReq then s.resetNow 3 else s.tryDoze

/-! ### Accesses that a command makes as a master -/

/-- An access of master `id` ends in an error (R143, R319): a thread takes it as an error reply, a Shuttle channel halts,
the agent and debug have been refused. -/
def State.masterErr (s : State) (id a : Nat) (c : Trap) (info : Word) : State :=
  if id < 256 then s.updThr id fun t => { t with outst := t.outst ++ [⟨t.pc, .done, [], some (c, info), isleOf a, t.nextOrd⟩] }
  else if isShuttle id then s.chanHalt (id - 256) 2 (word a)
  else s

/-- The identity is one of the odd engine of a Twin pair, which issues nothing (R30). -/
def State.oddTwin (s : State) (id : Nat) : Bool := decide (id < 256) && s.twin (id / 16) && id / 16 % 2 == 1

/-- A bus access of thread `id` meets its island behind the thread's earlier requests to it (R27). -/
def State.inTurn (s : State) (id a : Nat) : State := if isleOf a = .pad then s.padCatch id else s

/-- An access of a thread is one of its engine's far requests: its consume notes land, the store that waits in the merge entry
leaves, and the thread's requests to the same island land first (R27, R180, R213). -/
def State.masterTurn (s : State) (id a : Nat) : State :=
  if id < 256 then (((s.landNotes id).flushFar (id / 16))).inTurn id a else s

/-- A register write that lands as the command of master `id` (R42). -/
def State.masterWrite (s : State) (id a : Nat) (v : Word) : State :=
  if !s.running || s.oddTwin id then s
  else match (s.masterTurn id a).busWrite id a v with
  | (s, .val _) => s.settle
  | (s, .err c info) => s.masterErr id a c info

/-- A register read by master `id`: its value is the reply. -/
def State.masterRead (s : State) (id a : Nat) : State :=
  if !s.running || s.oddTwin id then s
  else match (s.masterTurn id a).busRead id a 4 with
  | (s, .val v) => { s with reply := v }
  | (s, .err c info) => { s.masterErr id a c info with reply := 0 }

/-- A write command of master `id`. -/
def writeCmd (id : Id) (a : Nat) (v : Word) (s : State) : Out := .next (s.masterWrite id.toNat a v)

/-- A read command of master `id`. -/
def readCmd (id : Id) (a : Nat) (s : State) : Out := .next (s.masterRead id.toNat a)

end Sys2Proof.Machine
end

