-- ==== Sys2Proof/Machine/ShuttleRun.lean ====
section
/-! DEFINITION. What a running Shuttle channel does (R312 to R319, R322): it fetches a descriptor, moves elements, and
completes the descriptor. -/

namespace Sys2Proof.Machine

/-- The engine and local address of a Shuttle address in engine memory (Table 11.10). -/
def engAddr (a : Nat) : Option (Nat × Nat) :=
  if 0x10000000 ≤ a ∧ a < 0x20000000 ∧ a % 0x1000000 < 0x14000 then
    some ((a - 0x10000000) / 0x1000000, a % 0x1000000)
  else none

/-- A read of `n` bytes in engine memory: the merge entry of its word is flushed before (R177). -/
def State.engLoad (s : State) (k a n id : Nat) : State × Option Nat :=
  (upTo (n / 4)).foldl (fun (acc : State × Option Nat) i =>
    let s := acc.1.flushLocalAt k (a + 4 * i)
    let (s, v) := s.readCode (engKey k (a + 4 * i)) 0 id
    (s, match acc.2, v with
      | some x, some v => some (x + v * 2 ^ (32 * i))
      | _, _ => none)) (s, some 0)

/-- A write of `n` bytes in engine memory; into an instruction bank it acts as a code store for the snoop (R313). -/
def State.engStore (s : State) (k a n v : Nat) : State :=
  (upTo (n / 4)).foldl (fun s i =>
    let w := word (v / 2 ^ (32 * i))
    let s := (s.flushLocalAt k (a + 4 * i)).writeCode (engKey k (a + 4 * i)) w.toNat
    if a < 0x10000 then s.snoop k (a + 4 * i) w else s) s

/-- A read by channel `c` of `n` bytes (R312, R313): the value, or a halt status of Table 11.12. -/
def State.shLoad (s : State) (c a n : Nat) : State × Except Nat Nat :=
  let ecc (r : State × Option Nat) : State × Except Nat Nat :=
    (r.1, match r.2 with
      | some v => .ok v
      | none => .error 1)
  match engAddr a with
  | some (k, l) => if s.islandOn k then ecc (s.engLoad k l n (256 + c)) else (s.gateCount (256 + c), .error 2)
  | none =>
    if inImage a || inWard a then ecc (s.loadIn a n 0 (256 + c))
    else if n = 8 then (s, .error 2)
    else match s.busRead (256 + c) a 4 with
      | (s, .val v) => (s, .ok v.toNat)
      | (s, .err _ _) => (s, .error 2)

/-- A write by channel `c` of `n` bytes (R312, R313, R181): the state, and whether it was accepted. -/
def State.shStore (s : State) (c a n v : Nat) : State × Bool :=
  match engAddr a with
  | some (k, l) => if s.islandOn k then (s.engStore k l n v, true) else (s.gateCount (256 + c), false)
  | none =>
    if inImage a || inWard a then (s.storeIn a n v (256 + c), true)
    else if n = 8 then (s, false)
    else match s.busWrite (256 + c) a (word v) with
      | (s, .val _) => (s, true)
      | (s, .err _ _) => (s, false)

/-- The four words of a descriptor (Table 11.11). -/
def descOf (w0 w1 w2 w3 : Word) : Desc :=
  { src := w0, dst := w1, count := fld w2 16 16, w64 := bit w2 15, sfix := bit w2 14, dfix := bit w2 13
    sblk := fld w2 8 5, acq := bit w2 6, rel := bit w2 7, dev := bit w2 5, last := bit w2 4, next := w3 }

/-- Bytes of an element. -/
def Desc.size (d : Desc) : Nat := if d.w64 then 8 else 4

/-- The descriptor is well formed (R314). -/
def Desc.ok (d : Desc) (ctl : Word) : Bool :=
  d.count != 0 && fld ctl 0 4 == 0 && d.src.toNat % d.size == 0 && d.dst.toNat % d.size == 0

/-- A descriptor may lie at the address: engine data SRAM or image memory (R314). -/
def descAt (a : Nat) : Bool := inImage a || (engAddr a).any fun x => decide (0x10000 ≤ x.2)

/-- The four words at the descriptor address, or the status and address of the failing access. -/
def State.descWords (s : State) (c a : Nat) : State × Except (Nat × Nat) (List Word) :=
  (upTo 4).foldl (fun (acc : State × Except (Nat × Nat) (List Word)) i =>
    match acc.2 with
    | .error e => (acc.1, .error e)
    | .ok l => match acc.1.shLoad c (a + 4 * i) 4 with
      | (s, .ok v) => (s, .ok (l ++ [word v]))
      | (s, .error e) => (s, .error (e, a + 4 * i))) (s, .ok [])

/-- Channel `c` fetches the descriptor at SH_DPTR and acquires its lock where it asks (R314 to R316). -/
def State.chanFetch (s : State) (c : Nat) : State :=
  let x := s.chan c
  if !x.run || x.lockw || x.desc.isSome then s
  else
    let a := (s.reg (aSh c 8)).toNat
    if !descAt a then s.chanHalt c 3 (word a)
    else match s.descWords c a with
    | (s, .error (e, at_)) => s.chanHalt c e (word at_)
    | (s, .ok l) =>
      let d := descOf (l.getD 0 0) (l.getD 1 0) (l.getD 2 0) (l.getD 3 0)
      if !d.ok (l.getD 2 0) then s.chanHalt c 3 (word a)
      else
        let s := s.updChan c ({ · with desc := some d, done := 0, rem := d.count })
        if d.acq then s.chanAcquire c else s

/-- The source and destination address of element `i` (R315). -/
def Desc.srcAt (d : Desc) (i : Nat) : Nat :=
  (d.src + word (d.size * (if d.sfix then 0 else if d.sblk = 0 then i else i % d.sblk))).toNat
def Desc.dstAt (d : Desc) (i : Nat) : Nat := (d.dst + word (d.size * (if d.dfix then 0 else i))).toNat

/-- Channel `c` moves one element (R313, R315, R319). -/
def State.chanElement (s : State) (c : Nat) : State :=
  let x := s.chan c
  match x.desc with
  | none => s
  | some d =>
    if !x.run || x.lockw || d.count ≤ x.done then s
    else match s.shLoad c (d.srcAt x.done) d.size with
    | (s, .error e) => s.chanHalt c e (word (d.srcAt x.done))
    | (s, .ok v) => match s.shStore c (d.dstAt x.done) d.size v with
      | (s, false) => s.chanHalt c 2 (word (d.dstAt x.done))
      | (s, true) => (s.updChan c fun x => { x with done := x.done + 1, rem := x.rem - 1 }).chanBoundary c

/-- The release that ends a descriptor (R315, R316). -/
def State.chanRelease (s : State) (c : Nat) : State :=
  let a := s.shLock c
  let s := s.chanUnlock c a
  s.updChan c fun x => { x with lock := if x.lock = some a then none else x.lock }

/-- The last write of the descriptor has been acknowledged (R315): release, done event, the next descriptor. -/
def State.chanDone (s : State) (c : Nat) : State :=
  let x := s.chan c
  match x.desc with
  | none => s
  | some d =>
    if !x.run || x.lockw || x.done < d.count then s
    else
      let s := if d.rel then s.chanRelease c else s
      let s := if d.dev || d.last then s.raise (512 + 2 * c) else s
      let s := s.setRegFld (aSh c 0x14) 0 16 (fld (s.reg (aSh c 0x14)) 0 16 + 1)
      let s := s.setReg (aSh c 8) (d.next &&& 0xFFFFFFF0)
      let s := s.updChan c fun x => { x with desc := none, done := 0, run := !d.last, stopReq := x.stopReq && !d.last }
      if s.entering then s.updChan c Chan.halted else s.chanBoundary c

/-- SHUTTLE_DESCRIPTOR (R315). -/
def execShuttleDescriptor (c : Fin 32) (s : State) : Out :=
  .next (if s.running then (s.chanFetch c.val).tryDoze else s)

/-- Channel `c` has an element to move. -/
def State.shReady (s : State) (c : Nat) : Bool :=
  let x := s.chan c
  x.run && !x.lockw && x.desc.any fun d => decide (x.done < d.count)

/-- The channel whose turn it is (R320): the next one in ascending order, from the one after the latest, with an element to
move. -/
def State.shNext (s : State) : Option Nat := ((upTo 32).map fun i => (s.shTurn + i) % 32).find? s.shReady

/-- SHUTTLE_ELEMENT (R315, R320): the channel's turn. -/
def execShuttleElement (c : Fin 32) (s : State) : Out :=
  .next (if s.running && s.shNext == some c.val then
      ({ s with shTurn := (c.val + 1) % 32 }.chanElement c.val).tryDoze
    else s)

/-- SHUTTLE_DESCRIPTOR_DONE (R315). -/
def execShuttleDescriptorDone (c : Fin 32) (s : State) : Out :=
  .next (if s.running then (s.chanDone c.val).tryDoze else s)

end Sys2Proof.Machine
end

