-- ==== Sys2Proof/Machine/DictObjects.lean ====
section
/-! DEFINITION. The objects of the dictionary (R356 to R358, R368 to R376, R400, R426, R444): which index and subindex
exists, with its access code, its type and what it reaches. -/

namespace Sys2Proof.Machine

/-- The access codes of Table 13.2. -/
inductive Access where
  | ro | wo | rw | rwp | wop | const
  deriving DecidableEq, Repr

/-- What R363 needs of a type (Table 13.1): a fixed size, a string, a DOMAIN with its maximum, or the item of a ring that
is not defined. -/
inductive Typ where
  | fixed (n : Nat)
  | text
  | domain (max : Nat)
  | undefined
  deriving DecidableEq, Repr

/-- What a subindex reaches. `val`: the value it reads as, and whether R365 makes it STALE. -/
inductive Target where
  | val (bs : List Byte) (stale : Bool)
  | reg (a : Nat)
  | buf (a len : Nat)
  | shtx
  | eng (k base len : Nat)
  | image (base : Nat)
  | payload
  | ctx (id sel : Nat)
  | route (r : Nat)
  | ward (i : Nat)
  | stamps (p : Nat)
  | samples (p : Nat)
  | request
  | reset
  | select
  | reload
  | save
  | kprBuf
  | page
  | rawPage
  | ring (i : Nat)
  | session
  | updCmd
  | header
  | activate
  | level (i n : Nat)
  deriving DecidableEq, Repr

/-- A subindex. -/
structure Obj where
  access : Access
  typ : Typ
  target : Target
  deriving DecidableEq, Repr

/-- Offsets in a window whose registers act on a write and hold no RW or W1C bit (WO and W1S fields of the register
tables). -/
def acts (a : Nat) : Bool :=
  let off := a % 0x10000
  match a / 0x10000 with
  | 0x5000 =>
    if off < 0x2000 then
      let o := off % 0x100
      [0x04, 0x10, 0x14, 0x18, 0x1C, 0x44, 0x64, 0x84, 0xA4].contains o
    else [0x2000, 0x2004, 0x2020, 0x2024, 0x2028].contains off
  | 0x5001 => off == 0 || off == 0xC || (decide (0x40 ≤ off) && decide (off < 0x58))
  | 0x5002 => (decide (off < 0x1000) && off % 0x20 == 8)
      || (decide (0x2000 ≤ off) && decide (off < 0x2200) && off % 0x40 == 0xC)
  | 0x5003 => decide (off < 0x400) && off % 0x20 == 0
  | 0x5004 => off == 0x10 || off == 0x18
      || (decide (0x400 ≤ off) && decide (off < 0x800) && (off % 16 == 4 || off % 16 == 8))
  | 0x5005 => off == 0x54
  | 0x5006 => off == 0 || off == 8
  | 0x500F => off == 0x118 || (decide (0x1000 ≤ off) && decide (off < 0x2000) && (off % 0x100 == 0 || off % 0x100 == 8))
      || (decide (0x2000 ≤ off) && decide (off < 0x3000) && off % 0x100 == 4) || off == 0x3008 || off == 0x3010
      || (decide (0x3100 ≤ off) && decide (off < 0x3300) && decide (off % 0x20 < 0xC))
  | _ => false

/-- A register object is RO when every field of its register is RO (R368). -/
def writable (a : Nat) : Bool := acts a || (regRow a).any fun r => r.rw != 0 || r.w1c != 0

/-- The object of a register (R368). -/
def regObj (a : Nat) : Obj := ⟨if writable a then .rw else .ro, .fixed 4, .reg a⟩

/-- A read-only value of `n` bytes. -/
def roVal (n v : Nat) : Obj := ⟨.ro, .fixed n, .val (leBytes n v) false⟩

/-- A constant of `n` bytes. -/
def constVal (n v : Nat) : Obj := ⟨.const, .fixed n, .val (leBytes n v) false⟩

/-- A constant string. -/
def constText (t : List Nat) : Obj := ⟨.const, .text, .val (t.map byte) false⟩

/-- "Cyane Mercor" and "Krovnisen KX256" (Table 13.8). -/
def vendorText : List Nat := [0x43, 0x79, 0x61, 0x6E, 0x65, 0x20, 0x4D, 0x65, 0x72, 0x63, 0x6F, 0x72]
def productText : List Nat :=
  [0x4B, 0x72, 0x6F, 0x76, 0x6E, 0x69, 0x73, 0x65, 0x6E, 0x20, 0x4B, 0x58, 0x32, 0x35, 0x36]

/-- An object: a single value, or a record with its highest subindex (R356). -/
inductive ObjShape where
  | one (o : Obj)
  | recd (top : Nat) (f : Nat → Option Obj)

/-- A record of registers 4 bytes apart (Table 13.6). -/
def regsAt (top base : Nat) : ObjShape := .recd top fun n => some (regObj (base + 4 * (n - 1)))

/-- A record of registers at listed addresses. -/
def regList (l : List Nat) : ObjShape := .recd l.length fun n => (l[n - 1]?).map regObj

/-- The registers of 0x7000 (R400). -/
def shkObj (n : Nat) : Obj :=
  ⟨if n = 7 then .ro else if 2 ≤ n ∧ n ≤ 5 then .rwp else .rw, .fixed 4, .reg (aShk (4 * (n - 1)))⟩

/-- Objects of engine `k` (Tables 13.6, 13.7). -/
def engObject (k r : Nat) : Option ObjShape :=
  match r with
  | 0 => some (regsAt 32 (aEng k 0))
  | 1 => some (regsAt 6 (aTrp k 0))
  | 2 => some (regsAt 8 (0x500F3100 + 0x20 * k))
  | 3 => some (.one ⟨.rwp, .domain 65536, .eng k 0 65536⟩)
  | 4 => some (.one ⟨.rw, .domain 16384, .eng k 0x10000 16384⟩)
  | _ =>
    if 0x10 ≤ r ∧ r < 0x20 then
      some (.recd 23 fun n => some ⟨if n ≤ 20 then .rw else .ro, .fixed 4, .ctx (16 * k + (r - 0x10)) (n - 1)⟩)
    else none

/-- The objects of 0x1000 to 0x1FFF. -/
def State.chainObject (s : State) (ix : Nat) : Option ObjShape :=
  match ix with
  | 0x1000 => some (regsAt 32 0x50050000)
  | 0x1010 => some (.one ⟨.ro, .domain 1000, .buf (aCh 0x1000) (fld (s.reg (aCh 0x58)) 0 11)⟩)
  | 0x1011 => some (.recd 48 fun n => some ⟨.ro, .fixed 8, .val (readBytes s.mem (aCh (0x2000 + 8 * (n - 1))) 8) false⟩)
  | 0x1012 => some (.one ⟨.ro, .domain 1024, .buf (aCh 0x4000) (fld (s.reg (aCh 0x54)) 16 11)⟩)
  | 0x1013 => some (.one ⟨.ro, .domain 16384, .buf aShRx 16384⟩)
  | 0x1014 => some (.one ⟨.rw, .domain 16384, .shtx⟩)
  | _ => none

/-- The objects of 0x2000 to 0x2FFF (Tables 13.6, 13.8). -/
def State.deviceObject (s : State) (ix : Nat) : Option ObjShape :=
  let g := s.agent
  match ix with
  | 0x2000 => some (.recd 4 fun n => match n with
    | 1 => some (roVal 1 s.sys.mode.code)
    | 2 => some ⟨.rw, .fixed 1, .request⟩
    | 3 => some (roVal 1 (fld (s.reg aMode) 4 3))
    | _ => some (regObj aSafeCause))
  | 0x2010 => some (.one ⟨.wo, .fixed 4, .reset⟩)
  | 0x2020 => some (.recd 5 fun n => match n with
    | 1 => some (constVal 4 0x02560100)
    | 2 => some (constText vendorText)
    | 3 => some (constText productText)
    | 4 => some (constVal 2 1)
    | _ => some (roVal 1 s.sys.straps.dictsrc.toNat))
  | 0x2030 => some (.recd 13 fun n => if n = 2 ∨ n = 4 then none else some (regObj (0x500F0100 + 4 * (n - 1))))
  | 0x2040 => some (regsAt 9 0x500F0000)
  | 0x2050 => some (regsAt 2 aTwin)
  | 0x2100 => some (.recd 8 fun n => match n with
    | 1 => some (roVal 1 g.active)
    | 2 => some ⟨.rw, .fixed 1, .select⟩
    | 3 => some ⟨.wop, .fixed 1, .reload⟩
    | 4 => some ⟨.wop, .fixed 1, .save⟩
    | 5 => some ⟨.ro, .fixed 1, .val [byte g.savestat] s.kpr.save.isSome⟩
    | 6 => some (roVal 1 g.loadstat)
    | 7 => some (roVal 1 s.sys.profsel)
    | _ => some (roVal 1 g.present))
  | 0x2F10 => some (.recd 3 fun n => match n with
    | 1 => some (roVal 4 (s.reg 0x500F0014).toNat)
    | 2 => some (roVal 2 g.lastIndex)
    | _ => some (roVal 1 g.lastSub))
  | 0x2F11 => some (.recd 4 fun n => match n with
    | 1 => some (roVal 4 g.served.toNat)
    | 2 => some (roVal 4 g.errors.toNat)
    | 3 => some (roVal 1 g.transfers.length)
    | _ => some (roVal 2 g.timeouts.toNat))
  | 0x2F20 => some (regList [0x500F400C, 0x500F4010, 0x500F4000, 0x500F4004, 0x500F4008, 0x500F4014])
  | 0x2F30 => some (regsAt 10 0x50040000)
  | _ =>
    if 0x2F40 ≤ ix ∧ ix < 0x2F63 then some (regsAt 7 (0x500F4100 + 0x20 * (ix - 0x2F40)))
    else if 0x2F80 ≤ ix ∧ ix < 0x2FC0 then some (regsAt 3 (0x50040400 + 16 * (ix - 0x2F80)))
    else none

/-- The objects of 0x4000 to 0x5FFF (Tables 13.6, 13.7). -/
def State.fabricObject (s : State) (ix : Nat) : Option ObjShape :=
  if ix < 0x4020 then some (regsAt 48 (aTmr (ix - 0x4000) 0))
  else if ix = 0x4020 then some (regsAt 12 0x50002000)
  else if ix < 0x4100 then none
  else if ix < 0x4180 then some (regsAt 6 (0x50020000 + 0x20 * (ix - 0x4100)))
  else if ix = 0x4180 then some (regsAt 64 0x50021000)
  else if ix = 0x4181 then some (regsAt 12 0x50021100)
  else if 0x4200 ≤ ix ∧ ix < 0x4208 then some (regsAt 10 (aCvt (ix - 0x4200) 0))
  else if ix = 0x4300 then some (regsAt 22 0x50010000)
  else if ix = 0x4310 then some (regsAt 40 0x50010400)
  else if ix = 0x4311 then some (regsAt 40 0x50010500)
  else if 0x4400 ≤ ix ∧ ix < 0x4408 then some (regsAt 128 (aHfCh (128 * (ix - 0x4400))))
  else if 0x4500 ≤ ix ∧ ix < 0x4580 then some (.one ⟨.ro, .fixed 8, .stamps (ix - 0x4500)⟩)
  else if 0x4580 ≤ ix ∧ ix < 0x4588 then some (.one ⟨.ro, .fixed 4, .samples (ix - 0x4580)⟩)
  else if 0x4C00 ≤ ix ∧ ix < 0x4C20 then
    some (.recd 128 fun n => some ⟨.rw, .fixed 16, .route (128 * (ix - 0x4C00) + n - 1)⟩)
  else if ix = 0x4E10 then
    let d := s.reg (aHf 0x38)
    some (.recd 3 fun n => match n with
      | 1 => some (roVal 1 (fld d 24 8))
      | 2 => some (roVal 1 (fld d 16 8))
      | _ => some (roVal 2 (fld d 0 12)))
  else if ix = 0x5000 then some (regsAt 28 0x500F5000)
  else if 0x5100 ≤ ix ∧ ix < 0x5106 then
    some (.one ⟨.rw, .domain 65536, .image (0x40000000 + 0x10000 * (ix - 0x5100))⟩)
  else if 0x5200 ≤ ix ∧ ix < 0x5220 then some (regsAt 6 (aSh (ix - 0x5200) 0))
  else if ix = 0x5220 then some (regsAt 1 0x50030400)
  else if 0x5800 ≤ ix ∧ ix < 0x5880 then
    some (.recd 128 fun n => some ⟨.rwp, .fixed 8, .ward (128 * (ix - 0x5800) + n - 1)⟩)
  else none

/-- The levels of 0x6212: their sizes. -/
def levelSize (n : Nat) : Nat := if n = 2 then 2 else 1

/-- The objects of 0x6000 to 0x7FFF (Tables 15.8, 16.6; R400). -/
def State.keeperObject (s : State) (ix : Nat) : Option ObjShape :=
  let u := s.upd
  match ix with
  | 0x6000 => some (regsAt 9 0x50060000)
  | 0x6001 => some (regsAt 64 0x50060400)
  | 0x6002 => some (.one ⟨.rw, .fixed 256, .kprBuf⟩)
  | 0x6010 => some (.recd 2 fun n =>
      if n = 1 then some ⟨.rw, .fixed 2, .page⟩ else some ⟨.rw, .fixed 256, .rawPage⟩)
  | 0x6100 => some (.recd 4 fun n => match n with
    | 1 => some ⟨.rw, .fixed 4, .session⟩
    | 2 => some (roVal 1 u.state)
    | 3 => some (roVal 2 s.gap)
    | _ => some ⟨.wo, .fixed 1, .updCmd⟩)
  | 0x6101 => some (.one ⟨.rw, .fixed 64, .header⟩)
  | 0x6102 => some (.one ⟨.rw, .domain 65536, .payload⟩)
  | 0x6200 => some (.one ⟨.rw, .fixed 8, .activate⟩)
  | 0x6210 =>
    let l := s.reg (aKpr 0x218)
    some (.recd 10 fun n => match n with
      | 1 => some ⟨.ro, .fixed 1, .val [byte u.result] u.undecided⟩
      | 2 => some (roVal 1 (fld (s.reg (aKpr 0x204)) 4 4))
      | 3 => some (roVal 1 (fld l 8 8))
      | 4 => some (roVal 2 (fld l 16 16))
      | 5 => some (roVal 1 (fld l 0 8))
      | 6 | 7 => some (constVal 1 1)
      | 8 => some (roVal 1 (fld (s.reg (aKpr 0x220)) 0 8))
      | 9 => some (roVal 4 u.version.toNat)
      | _ => some (roVal 8 u.actTime.toNat))
  | 0x6212 => some (.recd 7 fun n => some ⟨.rw, .fixed (levelSize n), .level n (levelSize n)⟩)
  | 0x7000 => some (.recd 7 fun n => some (shkObj n))
  | _ =>
    if 0x6040 ≤ ix ∧ ix < 0x6080 then
      let i := ix - 0x6040
      some (.one ⟨.rw, (s.ringItem i).elim .undefined fun r => .fixed r.bytes, .ring i⟩)
    else none

/-- The object at an index (R369 to R376). -/
def State.object (s : State) (ix : Nat) : Option ObjShape :=
  if ix < 0x2000 then s.chainObject ix
  else if ix < 0x3000 then s.deviceObject ix
  else if ix < 0x3400 then engObject ((ix - 0x3000) / 0x40) (ix % 0x40)
  else if ix = 0x3800 then some (regsAt 5 0x500F3000)
  else if ix < 0x4000 then none
  else if ix < 0x6000 then s.fabricObject ix
  else if ix < 0x8000 then s.keeperObject ix
  else none

/-- The subindex of an object, or the status that says which of the two is absent (R356, R363). -/
def State.lookup (s : State) (ix sub : Nat) : Except Status Obj :=
  match s.object ix with
  | none => .error .noObj
  | some (.one o) => if sub = 0 then .ok o else .error .noSub
  | some (.recd top f) =>
    if sub = 0 then .ok (constVal 1 top)
    else if top < sub then .error .noSub
    else match f sub with
      | some o => .ok o
      | none => .error .noSub

end Sys2Proof.Machine
end

