-- ==== Sys2Proof/Machine/DictAccess.lean ====
section
/-! DEFINITION. Reading and writing what a dictionary subindex reaches (R364 to R366, R368, R370 to R375, R381 to R384,
R426, R432 to R438). -/

namespace Sys2Proof.Machine

/-- The identity of the agent (R31). -/
def agentId : Nat := 288

/-! ### Bytes of memories -/

/-- Bytes of engine memory, each word checked once. -/
def State.engBytes (s : State) (k a n : Nat) : State × Option (List Byte) :=
  let (s, r) := (upTo ((a + n + 3) / 4 - a / 4)).foldl (fun (acc : State × Option (List Byte)) i =>
    let (s, v) := acc.1.engLoad k (4 * (a / 4 + i)) 4 agentId
    (s, match acc.2, v with
      | some l, some v => some (l ++ leBytes 4 v)
      | _, _ => none)) (s, some [])
  (s, r.map fun l => (l.drop (a % 4)).take n)

/-- Bytes stored into engine memory word by word: a part of a word is merged with the stored word, and the merged word is
written whole (Table 13.7). False where a word under a merge is uncorrectable; later words are then not written. -/
def State.engPut (s : State) (k a : Nat) (bs : List Byte) : State × Bool :=
  (upTo ((a + bs.length + 3) / 4 - a / 4)).foldl (fun (acc : State × Bool) i =>
    if !acc.2 then acc
    else
      let s := acc.1
      let w := 4 * (a / 4 + i)
      let byteAt (old : Nat) (j : Nat) : Nat :=
        if a ≤ w + j ∧ w + j < a + bs.length then (bs.getD (w + j - a) 0).toNat else old / 256 ^ j % 256
      let merged (old : Nat) : Nat := (upTo 4).foldr (fun j n => byteAt old j + 256 * n) 0
      if a ≤ w ∧ w + 4 ≤ a + bs.length then (s.engStore k w 4 (merged 0), true)
      else match s.engLoad k w 4 agentId with
        | (s, some v) => (s.engStore k w 4 (merged v), true)
        | (s, none) => (s, false)) (s, true)

/-- The lowest engine of the recorded header (Table 16.6). -/
def State.payloadEng (s : State) : Option Nat := (s.hdrEngines s.upd.header).head?

/-- `n` bytes of a DOMAIN from offset `off` on; nothing where it is refused (R370). -/
def State.domainRead (s : State) (t : Target) (off n : Nat) : State × Option (List Byte) :=
  match t with
  | .buf a _ => (s, some (readBytes s.mem (a + off) n))
  | .shtx => (s, some (readBytes s.mem (aShTx + off) n))
  | .eng k base _ => if s.islandOn k then s.engBytes k (base + off) n else (s.gateCount agentId, none)
  | .image base => s.loadBytes (base + off) n 0 agentId
  | .payload =>
    match s.payloadEng with
    | some k => if s.islandOn k then s.engBytes k (s.inactive k + off) n else (s.gateCount agentId, none)
    | none => (s, none)
  | _ => (s, none)

/-- The bytes of a segment reach a DOMAIN (R360, R370, R433); false where that is refused. -/
def State.domainWrite (s : State) (t : Target) (off : Nat) (bs : List Byte) : State × Bool :=
  match t with
  | .shtx => ({ s with mem := writeBytes s.mem (aShTx + off) bs }, true)
  | .eng k base _ => if s.islandOn k then s.engPut k (base + off) bs else (s.gateCount agentId, false)
  | .image base => (s.storeBytes (base + off) agentId bs, true)
  | .payload =>
    if s.upd.state = 1 then (s.stage off bs, (s.hdrEngines s.upd.header).all s.islandOn) else (s, false)
  | _ => (s, false)

/-! ### Reads -/

/-- A read of what a subindex other than a DOMAIN reaches: its bytes, or nothing where it is refused. -/
def State.targetRead (s : State) (t : Target) : State × Option (List Byte) :=
  match t with
  | .val bs _ => (s, some bs)
  | .reg a =>
    match s.busRead agentId a 4 with
    | (s, .val v) => (s, some (leBytes 4 v.toNat))
    | (s, .err _ _) => (s, none)
  | .ctx id sel =>
    let id := 16 * s.lead (id / 16) + id % 16
    if s.islandOn (id / 16) then (s, some (leBytes 4 (s.ctxRead id sel).1.toNat)) else (s.gateCount agentId, none)
  | .route r =>
    let (s, v) := s.readRoute r 0 agentId
    (s, v.map (leBytes 16))
  | .ward i =>
    let (s, v) := s.readCode (wardKey i) 0 agentId
    (s, v.map (leBytes 8))
  | .stamps p =>
    if s.gated (aPadCfg p) then (s.gateCount agentId, none)
    else
      let (s, v) := s.stampOut p
      (s, some (v.elim [] fun v => leBytes 8 v.toNat))
  | .samples p =>
    if (s.cvt p).fifo.isEmpty && !s.gated (aCvt p 0x1C) then (s, some [])
    else
      let (s, a) := s.busRead agentId (aCvt p 0x1C) 4
      (s, if a.ok then some (leBytes 4 a.value.toNat) else none)
  | .request => (s, some [byte s.agent.request])
  | .select => (s, some [byte s.selection])
  | .kprBuf => (s.kprFill, some (readBytes s.kprFill.mem aKprBuf 256))
  | .page => (s, some (leBytes 2 s.agent.page))
  | .session => (s, some (leBytes 4 s.agent.session.toNat))
  | .header => (s, some ((s.upd.header ++ List.replicate 64 0).take 64))
  | .activate => (s, some (leBytes 8 (s.upd.armed.getD 0).toNat))
  | .level i n => (s, some (leBytes n (s.lvl i)))
  | _ => (s, none)

/-- The target removes an entry at a read (R366). -/
def Target.consumes : Target → Bool
  | .stamps _ | .samples _ => true
  | .reg a => (decide (0x50020000 ≤ a) && decide (a < 0x50021000) && a % 0x20 == 0x10)
      || (decide (0x50022000 ≤ a) && decide (a < 0x50022200) && a % 0x40 == 0x1C)
  | _ => false

/-- The length of an object's value now. -/
def State.objLen (s : State) (o : Obj) : Nat :=
  match o.target with
  | .val bs _ => bs.length
  | .buf _ n => n
  | .shtx => 16384
  | .eng _ _ n => n
  | .image _ => 65536
  | .payload => s.updLen
  | _ => match o.typ with
    | .fixed n => n
    | _ => 0

/-! ### Writes -/

/-- The clamps of R372 on a Ward entry. -/
def clampWard (e : Nat) : Nat :=
  let e := if wKind e = 3 then e - 3 * 2 ^ 62 else e
  let e := if wType e = 3 then e - 3 * 2 ^ 58 else e
  let e := if wSafem e = 3 then e - 2 * 2 ^ 52 else e
  let w := wf e 16 17
  let e := if 0x17FFF < w then e - w * 2 ^ 16 + 0x17FFF * 2 ^ 16 else e
  if (wKind e = 1 ∨ wKind e = 2) ∧ wType e = 0 then e - e % 2 ^ 11 else e

/-- A written number with its clamp counted once (R364). -/
def State.clampTo (s : State) (v target : Nat) : State := s.clamp (v != target).toNat

/-- A write of the mode request (R374). -/
def State.modeWrite (s : State) (r : DictHeader) (v : Nat) : State × Status :=
  let c := if v ≤ 7 then v else s.sys.mode.code
  let s := s.clampTo v c
  let s := { s with agent := { s.agent with request := c } }
  if c < 2 then (s, if c = 1 ∧ s.sys.mode = .unaddressed then .ok else .mode)
  else
    match s.requestMode 288 (modeOf c) (r.src == .lrp) (some (s.cycle + 2000000)) with
    | (s, false) => (s, .mode)
    | (s, true) =>
      if (modeOf c == .doze || modeOf c == .dormant) && s.sys.entry.isSome then
        ({ s with agent := { s.agent with dozeDue := some (s.drWait r) } }, .ok)
      else (s, .ok)

/-- A write of the retained selection (R28, R381). -/
def State.keepSelection (s : State) (v : Nat) : State :=
  { s with sys := { s.sys with aon := s.sys.aon ++ [⟨0, word v, none⟩] } }

/-- The profile that a written byte names (Table 13.8): other values take the selection, and clamp. -/
def State.profileOf (s : State) (v : Nat) : State × Nat :=
  let n := if v ≤ 3 then v else s.selection
  (s.clampTo v n, n)

/-- A level written at 0x6212 (Table 16.6). -/
def levelClamp (i v : Nat) : Nat := if i = 4 ∨ i = 7 then min 1 v else if i = 5 ∨ i = 6 then max 1 v else v

/-- A write of what a subindex other than a DOMAIN reaches. -/
def State.targetWrite (s : State) (r : DictHeader) (t : Target) (bs : List Byte) : State × Status :=
  let v := leNat bs
  let done (b : Bool) : Status := if b then .ok else .refused
  match t with
  | .reg a =>
    let (s, a) := s.busWrite agentId a (word v)
    (s, done a.ok)
  | .ctx id sel =>
    let id := 16 * s.lead (id / 16) + id % 16
    if s.islandOn (id / 16) then
      let (s, ok) := s.ctxWrite id sel (word v)
      (s, done ok)
    else (s.gateCount agentId, .refused)
  | .route i =>
    let (w, n) := clampRoute v
    ((s.clamp (min 1 n)).writeRoute 288 i w, .ok)
  | .ward i =>
    let w := if s.isExt i then v else clampWard v
    ((s.clampTo v w).landLanes (wardKey i) agentId (lanesOfBytes 0 (leBytes 8 w)), .ok)
  | .request => s.modeWrite r v
  | .reset => (if v = 0xC1A5 then { s with agent := { s.agent with resetDue := s.agent.resetDue ++ [s.drWait r] } } else s, .ok)
  | .select =>
    let (s, n) := s.profileOf v
    (if v ≤ 3 then s.keepSelection n else s, .ok)
  | .reload =>
    let (s, n) := s.profileOf v
    let s := s.keepSelection n
    let w := { s.drWait r with aon := s.sys.aon.length }
    ({ s with agent := { s.agent with resetDue := s.agent.resetDue ++ [w] } }, .ok)
  | .save =>
    let (s, n) := s.profileOf v
    ({ s with kpr := { s.kpr with save := some n } }, .ok)
  | .kprBuf => ({ s.kprFill with mem := writeBytes s.kprFill.mem aKprBuf bs }, .ok)
  | .page =>
    let n := min 4095 v
    let s := s.clampTo v n
    ({ s with agent := { s.agent with page := n } }, .ok)
  | .session => ({ s with agent := { s.agent with session := word v } }, .ok)
  | .updCmd =>
    let s := s.clampTo v (if v ≤ 2 then v else 0)
    (if v = 1 then s.sealCmd else if v = 2 then s.updAbort else s, .ok)
  | .header =>
    let (s, ok) := s.updOpen s.agent.session bs
    (s, done ok)
  | .activate =>
    let (s, ok) := s.updSchedule (BitVec.ofNat 64 v)
    (s, done ok)
  | .level i _ =>
    let n := levelClamp i v
    let s := s.clampTo v n
    ({ s with agent := { s.agent with lvl := tabSet s.agent.lvl i n } }, .ok)
  | _ => (s, .refused)

/-! ### What a save holds back (R382 to R384) -/

/-- A register that reaches an item of Table 13.12: a stored value, a route, a group enable, a thread configuration, an
engine's SRAM. -/
def storedReg (a : Nat) : Bool :=
  stored.any (fun x => x.1 == a) || isThcfg a || a == 0x5001000C || a == 0x50010020 || a == 0x50010024
    || a == 0x500F3010

/-- A write of `bs` to the target is answered BUSY now (R382 to R384); a save waits for the Keeper (R410). -/
def State.writeHeldBack (s : State) (t : Target) (bs : List Byte) : Bool :=
  match t with
  | .save => s.kprBusy || s.kpr.scan || s.entering
  | .reload => s.kpr.save.isSome
  | .reg a => s.kpr.save.isSome && storedReg a
  | .route _ | .ward _ | .eng _ _ _ | .payload => s.kpr.save.isSome
  | .request => s.kpr.save.isSome && s.sys.mode == .preparation && decide (3 ≤ leNat bs) && decide (leNat bs ≤ 7)
  | _ => false

end Sys2Proof.Machine
end

