-- ==== Sys2Proof/Machine/FabricEvents.lean ====
section
/-! DEFINITION. Events of the Hinge fabric, of threads and wheels, and lock retries of the Shuttle (R147, R148, R161,
R206, R211 to R225, R316). -/

namespace Sys2Proof.Machine

/-- The timestamp of a raise (Table 8.3): the producer's for pad and EVENT channels, a free value where the command names
none; else chain time. -/
def State.stampFor (s : State) (ch : Nat) (stamp : Option Time64) : State × Time64 :=
  if 128 ≤ ch ∧ !(decide (592 ≤ ch) && decide (ch < 640)) then (s, periods s.now)
  else
    let (s, t) := match stamp with
      | some t => (s, t)
      | none =>
        let (s, hi) := s.drawWord
        let (s, lo) := s.drawWord
        (s, hi ++ lo)
    (s, if ch < 128 then stampOf t else t)

/-- The channel has a producer that can raise it now (R209, R210, Tables 8.1, 8.2): reserved channels have none. -/
def State.producer (s : State) (ch : Nat) : Bool :=
  if ch < 128 then bit (s.reg (aPadCfg ch)) 23 && fld (s.reg (aPadCfg ch)) 21 2 != 0
  else if ch < 256 then s.smode ((ch - 128) / 4) (ch % 4) != 0
  else if ch < 512 then s.islandOn ((ch - 256) / 16)
  else if ch < 640 then !(decide (586 ≤ ch) && decide (ch < 592))
  else if ch < 656 then s.cvtOn (ch % 8)
  else ch != 671 && !(decide (688 ≤ ch) && decide (ch < 704))

/-- RAISE (R209, R211). -/
def execRaiseEvent (ch : Fin 1024) (stamp : Option Time64) (s : State) : Out :=
  .next (if s.producer ch.val then
      let (s, t) := s.stampFor ch.val stamp
      s.raiseIn s.cycle ch.val t
    else s)

/-- ROUTE_DISPATCH (R218). -/
def execRouteDispatch (s : State) : Out := .next s.dispatch

/-- ROUTE_FIRE (R218). -/
def execRouteFire (s : State) : Out := .next (s.fire shTask)

/-- LOOP_WINDOW (R224): the next window begins. -/
def execLoopWindow (s : State) : Out :=
  .next (if s.running then (s.atCycle (s.hinge.window + 200)).rollWindow else s)

/-- LATCH_COMMIT_DONE (R222). -/
def execLatchCommitDone (s : State) : Out := .next (if s.running && s.hinge.commit then s.commitDone else s)

/-- EVENT_DELIVERY (R213). -/
def execEventDelivery (eng thr : Fin 16) (k : Fin 4) (s : State) : Out :=
  .next (if s.running then s.deliverEvent (16 * eng.val + thr.val) k.val else s)

/-- CONSUME_NOTE (R213). -/
def execConsumeNote (eng thr : Fin 16) (s : State) : Out :=
  .next (if s.running then s.landNote (16 * eng.val + thr.val) else s)

/-- WHEEL_SWITCH (R85). -/
def execWheelSwitch (eng : Fin 16) (s : State) : Out := .next (if s.running then s.wheelSwitch eng.val else s)

/-- SHUTTLE_LOCK_RETRY (R316). -/
def execShuttleLockRetry (c : Fin 32) (s : State) : Out := .next (if s.running then (s.chanRetry c.val).tryDoze else s)

/-- DEADLK (R206). -/
def execDeadlk (s : State) : Out := .next (if s.running then s.deadlock else s)

/-- The watchdog of thread `id` expires (R161): an engine beat is 2 fabric cycles. -/
def State.wdExpire (s : State) (id : Nat) : State :=
  let t := s.thr id
  match t.wdFrom with
  | none => s
  | some c =>
    if s.wdt id = 0 || t.wdDue || !t.st.counting || !s.islandOn (id / 16) then s
    else (s.atCycle (c + 2 * (wdPeriod (s.wdt id) - t.wdAcc))).updThr id ({ · with wdDue := true })

/-- WDOG (R161). -/
def execWdog (eng thr : Fin 16) (s : State) : Out :=
  .next (if s.running then s.wdExpire (16 * eng.val + thr.val) else s)

/-- A boundary of thread `t` of engine `k` at which R147 takes something other than the instruction: of a thread whose
beat it is, or of one that leaves a wait or a far stall (R144, R148): a timed thread is RUNNING from the fetch state of its
position on (Table 3.13), a slack thread then competes for the pool. -/
def State.entryTurn (s : State) (k t : Nat) : State :=
  let id := 16 * k + t
  if !s.engRuns k || (s.twin k && k % 2 == 1) then s
  else
    let b := s.boundary id
    match (s.thr id).st with
    | .ready | .running =>
      match (upTo 16).find? fun p => s.atPosition k p == some t with
      | none => s
      | some p =>
        match b with
        | .execute => s
        | _ => (s.takePosition k p t).takeBoundary id b
    | .waiting =>
      match b with
      | .farError _ | .wdog | .deadlk | .interrupt _ _ =>
        match (upTo 16).find? fun p => s.owns k p t with
        | some p => ((s.leaveWait id).takePosition k p t).takeBoundary id b
        | none => s.leaveWait id
      | _ => s
    | _ => s

/-- INTERRUPT_ENTRY (R149). -/
def execInterruptEntry (eng thr : Fin 16) (s : State) : Out := .next (s.entryTurn eng.val thr.val)

/-- The tasks of live latch slot `i` (R222), where it is live. -/
def State.slotTasks (s : State) (i : Nat) : Option (List Nat) :=
  (tabFind s.hinge.slots i).map fun v => rTasks v.toNat

/-- A task of a latch route acts (R221, R247): SFORCE and HOLD in the pad cells; LFCAP three fabric cycles later (Table
1.2) or, in Doze, at the next LFCLK edge. -/
def State.latchTask (s : State) (n : Nat) : State :=
  if 0x500 ≤ n ∧ n < 0x700 then
    if n % 4 = 0 then s.padForce ((n - 0x500) / 4) else if n % 4 = 1 then s.padHold ((n - 0x500) / 4) else s
  else if 0x8E0 ≤ n ∧ n < 0x900 then
    if s.dozing then { s with hinge := { s.hinge with lfcaps := s.hinge.lfcaps ++ [n - 0x8E0] } }
    else if s.running then
      { s with hinge := { s.hinge with lfdue := s.hinge.lfdue ++ [(n - 0x8E0, s.cycle + 3)] } }
    else s
  else s

/-- Live latch slot `i` fires (R221): its tasks, its HF_LFIRE bit while the fabric runs, a wake where it names WAKE. -/
def State.fireSlot (s : State) (i : Fin 32) : State :=
  match s.slotTasks i.val with
  | none => s
  | some ns =>
    let s := ns.foldl State.latchTask s
    let s := if s.running then s.setFlag (aHf 0x3C) i.val else s
    if ns.contains 0x8C0 then s.wake (.latch i) else s

/-- The capture polarity of the slot's source pad selects an edge (R221): in Recall, where PAD_CFG is not loaded yet, the
slots that have survived stay live (R55). -/
def State.slotLive (s : State) (i : Nat) : Bool :=
  s.sys.mode == .recall || (tabFind s.hinge.slots i).any fun v => fld (s.reg (aPadCfg (rSrc v.toNat))) 21 2 != 0

/-- LATCH_ROUTE_FIRE (R221): a selected edge at the source pad of the slot. -/
def execLatchRouteFire (slot : Fin 32) (s : State) : Out := .next (if s.slotLive slot.val then s.fireSlot slot else s)

end Sys2Proof.Machine
end

