-- ==== Sys2Proof/Machine/Dict.lean ====
section
/-! DEFINITION. The dictionary agent's service (R44, R349, R354 to R363, R378): the checks, expedited requests, segmented
transfers, firmware objects, and requests that wait for the Keeper. -/

namespace Sys2Proof.Machine

/-! ### Which requests the agent takes -/

/-- The strap accepts requests from the source (R43). -/
def State.accepts (s : State) (src : Source) : Bool :=
  match src with
  | .chain => s.sys.straps.dictsrc != 1
  | .lrp => s.sys.straps.dictsrc != 0

/-- The agent can serve a request now (R44, R355): one at a time; one answer at a time in the port (R354). -/
def State.agentReady (s : State) (src : Source) : Bool :=
  s.running && s.accepts src && s.agent.fw.isNone && s.agent.kprReq.isNone
    && (src == .chain || (s.lrp.resp.isNone && !s.lrp.done))

/-- The index lies in the range that firmware serves (R377). -/
def isFirmware (ix : Nat) : Bool := decide (0xA000 ≤ ix) && decide (ix < 0xC000)

/-- What tells one waiting request from another: SEQ, broadcast, the header without its reserved and status bits, and the
data where the command takes any. -/
def requestKey (q : Byte × Bool × List Byte) : Byte × Bool × List Byte :=
  let p := q.2.2
  let b0 := p.getD 0 0 &&& 0x8F
  let cmd := b0.toNat % 16
  let body := if cmd = 2 ∨ cmd = 4 ∨ cmd = 5 ∨ isFirmware (field p 2 2) then p.drop 8 else []
  (q.1, q.2.1, b0 :: (p.drop 1).take 4 ++ (p.drop 6).take 2 ++ body)

/-- The request waits (R44): in the agent's queue, or in the port, as GO took it (R461). -/
def State.waits (s : State) (q : Byte × Bool × List Byte) (src : Source) : Bool :=
  match src with
  | .chain => s.agent.queue.any fun x => requestKey x == requestKey q
  | .lrp => s.lrp.busy && !s.lrp.req.isEmpty && requestKey (q.1, q.2.1, s.lrp.req) == requestKey q

/-- It is the request's turn (R44): no request that arrived earlier still waits. A request of the chain may arrive now; one of the
port arrives with GO (R461). -/
def State.firstIn (s : State) (q : Byte × Bool × List Byte) (src : Source) : Bool :=
  let port := s.lrp.busy && !s.lrp.req.isEmpty
  match src with
  | .chain => if s.waits q src then (s.agent.queue.head?.map requestKey) == some (requestKey q) && (!port || decide (0 < s.lrp.ahead))
    else s.agent.queue.isEmpty && !port
  | .lrp => s.waits q src && s.lrp.ahead == 0

/-- A request of the chain joins those that wait (R44). -/
def State.joinQueue (s : State) (q : Byte × Bool × List Byte) (src : Source) : State :=
  if src == .lrp || s.waits q src then s else { s with agent := { s.agent with queue := s.agent.queue ++ [q] } }

/-- The request leaves the place where it waited: the agent's queue, or the port's request buffer. -/
def State.takeRequest (s : State) (r : DictHeader) (cmd : Nat) (data : List Byte) : State :=
  match r.src with
  | .chain =>
    let q := requestKey (r.seq, r.bcast, dictPayload r cmd r.last 0 data)
    { s with agent := { s.agent with queue := s.agent.queue.eraseP fun x => requestKey x == q }
             lrp := { s.lrp with ahead := s.lrp.ahead - 1 } }
  | .lrp => { s with lrp := { s.lrp with busy := true, req := [] } }

/-! ### The checks of R363 -/

/-- The access row of R363. -/
def State.accessFails (s : State) (a : Access) (write : Bool) : Option Status :=
  match a, write with
  | .ro, true | .const, true => some .rdOnly
  | .wo, false | .wop, false => some .wrOnly
  | .rwp, true | .wop, true => if s.sys.mode == .preparation then none else some .mode
  | _, _ => none

/-- The rows of R363 down to the mode check. -/
def State.check (s : State) (r : DictHeader) (write : Bool) : Except Status Obj :=
  if s.sys.mode == .recall then .error .refused
  else match s.lookup r.index.toNat r.sub.toNat with
  | .error e => .error e
  | .ok o => match s.accessFails o.access write with
    | some e => .error e
    | none => .ok o

/-- A fixed-size type fits only its size (R363). -/
def Typ.fits (t : Typ) (n : Nat) : Bool :=
  match t with
  | .fixed m => n == m
  | _ => true

def Typ.isDomain : Typ → Bool
  | .domain _ => true
  | _ => false

/-- The length is above the object's maximum or above 65,536 (R363); a payload must have the header's length (R433). -/
def State.tooLong (s : State) (o : Obj) (n : Nat) : Bool :=
  decide (65536 < n) || (match o.typ with
    | .domain m => decide (m < n)
    | _ => false) || (o.target == .payload && n != s.updLen)

/-- The status of a served read (R365). -/
def readStatus (o : Obj) : Status :=
  match o.target with
  | .val _ true => .stale
  | _ => .ok

/-! ### Transfers (R360, R361) -/

def State.transfer (s : State) (src : Source) (tag : Byte) : Option Transfer :=
  s.agent.transfers.find? fun t => t.src == src && t.tag == tag

/-- A transfer closes. -/
def State.closeTransfer (s : State) (src : Source) (tag : Byte) : State :=
  { s with agent := { s.agent with transfers := s.agent.transfers.filter fun t => !(t.src == src && t.tag == tag) } }

/-- A transfer opens or changes. -/
def State.putTransfer (s : State) (t : Transfer) : State :=
  let s := s.closeTransfer t.src t.tag
  { s with agent := { s.agent with transfers := s.agent.transfers ++ [t] } }

/-- Four transfers are open, or the object has an open one (R361). -/
def State.transferBusy (s : State) (r : DictHeader) : Bool :=
  decide (4 ≤ s.agent.transfers.length) || s.agent.transfers.any fun t => t.index == r.index.toNat

/-! ### Requests that use the Keeper's command path (R410, R426) -/

/-- The Keeper command of a ring item or of a raw page: operation and argument. -/
def State.kprFor (s : State) (t : Target) (write : Bool) : Option (Nat × Nat) :=
  match t with
  | .rawPage => some (if write then 2 else 1, s.agent.page)
  | .ring i => some (if write then 4 else 3, i)
  | _ => none

/-- A request goes to the Keeper and is answered when its command ends; BUSY where the path is busy. -/
def State.kprAsk (s : State) (q : KprReq) (op arg : Nat) (bs : List Byte) : State :=
  if s.kprFree op then
    { s.kprStart agentId (word (op * 2 ^ 28 + arg * 2 ^ 16 + 255)) (some bs) with
      agent := { s.agent with kprReq := some q } }
  else (s.respond q.hdr q.cmd true .busy []).closeTransfer q.hdr.src q.hdr.tag

/-! ### Expedited requests (R359) -/

/-- CMD 0x1. -/
def State.serveRead (s : State) (r : DictHeader) : State :=
  match s.check r false with
  | .error e => s.respond r 1 true e []
  | .ok o =>
    let n := s.objLen o
    if o.typ.isDomain then s.respond r 1 true .type []
    else if 8 < n then s.respond r 1 true .tooLong (leBytes 4 n)
    else if o.typ = .undefined then s.respond r 1 true .refused []
    else match s.kprFor o.target false with
    | some (op, arg) => s.kprAsk ⟨r, 1, false, 0, n, true⟩ op arg []
    | none => match s.targetRead o.target with
      | (s, some bs) => s.respond r 1 true (readStatus o) bs
      | (s, none) => s.respond r 1 true .refused []

/-- CMD 0x2. -/
def State.serveWrite (s : State) (r : DictHeader) (data : List Byte) : State :=
  match s.check r true with
  | .error e => s.respond r 2 true e []
  | .ok o =>
    if o.typ.isDomain || !o.typ.fits data.length then s.respond r 2 true .type []
    else if 8 < data.length then s.respond r 2 true .tooLong []
    else if s.writeHeldBack o.target data then s.respond r 2 true .busy []
    else if o.typ = .undefined then s.respond r 2 true .refused []
    else match s.kprFor o.target true with
    | some (op, arg) => s.kprAsk ⟨r, 2, true, 0, 0, true⟩ op arg data
    | none =>
      let (s, st) := s.targetWrite r o.target data
      s.respond r 2 true st []

/-! ### Segmented transfers (R360, R361) -/

/-- A transfer of `total` bytes of the request's object opens. -/
def State.openTransfer (s : State) (r : DictHeader) (write : Bool) (total : Nat) (staged : List Byte) : State :=
  s.putTransfer { src := r.src, tag := r.tag, index := r.index.toNat, sub := r.sub.toNat, write := write
                  total := total, pos := 0, seg := 0, segAt := 0, segLen := 0, staged := staged, since := s.cycle }

/-- A segment of an engine's memory or of a payload is refused while the island is off (R370). -/
def State.domainOff (s : State) (t : Target) : Bool :=
  match t with
  | .eng k _ _ => !s.islandOn k
  | _ => false

/-- An initiate of a read is served: length `n`, staged bytes where the read consumes. -/
def State.initRead (s : State) (r : DictHeader) (o : Obj) (n : Nat) (staged : List Byte) : State :=
  let s := s.respond r 3 (n == 0) (readStatus o) (leBytes 4 n)
  if n = 0 then s else s.openTransfer r false n staged

/-- CMD 0x3. An initiate whose TAG is open first aborts that transfer. -/
def State.serveReadInit (s : State) (r : DictHeader) : State :=
  let s := s.closeTransfer r.src r.tag
  match s.check r false with
  | .error e => s.respond r 3 true e []
  | .ok o =>
    if s.transferBusy r then s.respond r 3 true .busy []
    else if o.typ = .undefined || s.domainOff o.target then s.respond r 3 true .refused []
    else if o.target.consumes then
      match s.targetRead o.target with
      | (s, some bs) => s.initRead r o bs.length bs
      | (s, none) => s.respond r 3 true .refused []
    else s.initRead r o (s.objLen o) []

/-- CMD 0x4. -/
def State.serveWriteInit (s : State) (r : DictHeader) (data : List Byte) : State :=
  let s := s.closeTransfer r.src r.tag
  match s.check r true with
  | .error e => s.respond r 4 true e []
  | .ok o =>
    let n := leNat data
    if data.length ≠ 4 ∨ o.typ.fits n = false then s.respond r 4 true .type []
    else if s.tooLong o n then s.respond r 4 true .tooLong []
    else if s.transferBusy r || (o.target != .request && s.writeHeldBack o.target []) then s.respond r 4 true .busy []
    else if o.typ = .undefined || s.domainOff o.target || (o.target == .payload && s.upd.state != 1) then
      s.respond r 4 true .refused []
    else
      let s := s.respond r 4 (n == 0) .ok []
      if n = 0 then s else s.openTransfer r true n []

/-- A segment ends in an error and closes its transfer. -/
def State.segError (s : State) (r : DictHeader) (e : Status) : State :=
  (s.respond r 5 true e []).closeTransfer r.src r.tag

/-- A read segment of `n` bytes from offset `off` on. `t` is the transfer as it then stands. -/
def State.readSegment (s : State) (r : DictHeader) (o : Obj) (t : Transfer) (off n : Nat) : State :=
  let last := decide (t.total ≤ off + n)
  let s := if last then s.closeTransfer t.src t.tag else s.putTransfer { t with since := s.cycle }
  if o.target.consumes then s.respond r 5 last .ok ((t.staged.drop off).take n)
  else match s.kprFor o.target false with
  | some (op, arg) => s.kprAsk ⟨r, 5, false, off, n, last⟩ op arg []
  | none =>
    let (s, bs) := if o.typ.isDomain then s.domainRead o.target off n
      else
        let (s, bs) := s.targetRead o.target
        (s, bs.map fun bs => (bs.drop off).take n)
    match bs with
    | some bs => s.respond r 5 last .ok bs
    | none => s.segError r .refused

/-- The last segment of a staged write: the value is taken whole, unless a save holds it back (R384). -/
def State.takeStaged (s : State) (r : DictHeader) (o : Obj) (bs : List Byte) : State :=
  let s := s.closeTransfer r.src r.tag
  if s.writeHeldBack o.target bs then s.respond r 5 true .busy []
  else match s.kprFor o.target true with
  | some (op, arg) => s.kprAsk ⟨r, 5, true, 0, 0, true⟩ op arg bs
  | none =>
    let (s, st) := s.targetWrite r o.target bs
    s.respond r 5 true st []

/-- The bytes of a write segment at offset `off`; `t` is the transfer as it then stands. -/
def State.writeSegment (s : State) (r : DictHeader) (o : Obj) (t : Transfer) (off : Nat) (data : List Byte) (last : Bool) :
    State :=
  let t := { t with since := s.cycle }
  if o.typ.isDomain then
    if s.writeHeldBack o.target data then s.segError r .busy
    else match s.domainWrite o.target off data with
    | (s, false) => s.segError r .refused
    | (s, true) =>
      let s := if last then s.closeTransfer t.src t.tag else s.putTransfer t
      let s := if o.target == .payload then (if last then s.sealAsk else s.sealTry) else s
      s.respond r 5 last .ok []
  else
    let bs := t.staged.take off ++ data ++ t.staged.drop (off + data.length)
    if last then s.takeStaged r o bs
    else (s.putTransfer { t with staged := bs }).respond r 5 false .ok []

/-- The most data bytes of a DR that the unit's own-frame window holds (R330, R349); the port has no window. -/
def State.drRoom (s : State) (src : Source) : Nat :=
  match src, s.chain.sched with
  | .chain, some x =>
    let p := min x.p s.chain.per
    (p - p / 2 - 200) / 8 - 22
  | _, _ => 1016

/-- CMD 0x5 (R360). -/
def State.serveSegment (s : State) (r : DictHeader) (data : List Byte) (room : Nat) : State :=
  if s.sys.mode == .recall then s.respond r 5 true .refused []
  else match s.transfer r.src r.tag with
  | none => s.respond r 5 true .seqErr []
  | some t =>
    let n := r.segno.toNat
    let rep := n == t.seg && t.seg != 0
    match s.lookup t.index t.sub with
    | .error e => s.segError r e
    | .ok o =>
      if t.write then
        match s.accessFails o.access true with
        | some e => s.segError r e
        | none =>
          if rep then s.writeSegment r o t t.segAt (data.take t.segLen) false
          else if n ≠ t.seg + 1 then s.segError r .seqErr
          else
            let stop := t.pos + data.length
            if t.total < stop || (r.last && decide (stop < t.total)) then s.segError r .tooLong
            else
              let t' := { t with pos := stop, seg := n, segAt := t.pos, segLen := data.length }
              s.writeSegment r o t' t.pos data r.last
      else if rep then s.readSegment r o t t.segAt t.segLen
      else if n ≠ t.seg + 1 then s.segError r .seqErr
      else
        let m := min (t.total - t.pos) (min (min 1016 (s.drRoom r.src)) (max 8 room))
        s.readSegment r o { t with pos := t.pos + m, seg := n, segAt := t.pos, segLen := m } t.pos m

/-- CMD 0x6 (R361). -/
def State.serveAbort (s : State) (r : DictHeader) : State :=
  if s.sys.mode == .recall then s.respond r 6 true .refused []
  else match s.transfer r.src r.tag with
  | none => s.respond r 6 true .seqErr []
  | some _ => (s.respond r 6 true .ok []).closeTransfer r.src r.tag

/-! ### Service -/

/-- A request that the agent takes up (R363, R377, R378). -/
def State.serveTaken (s : State) (r : DictHeader) (cmd : Nat) (data : List Byte) (room : Nat) : State :=
  if isFirmware r.index.toNat then
    if s.sys.mode == .recall then s.respond r cmd true .refused []
    else if bit (s.reg aDfwCtl) 0 then s.dfwRequest r cmd data
    else s.respond r cmd true .noObj []
  else match cmd with
  | 1 => s.serveRead r
  | 2 => s.serveWrite r data
  | 3 => s.serveReadInit r
  | 4 => s.serveWriteInit r data
  | 5 => s.serveSegment r data room
  | 6 => s.serveAbort r
  | _ => s

/-- The place of the latest clamp by the agent (Table 13.8): the service has counted one. -/
def State.noteClamp (s : State) (before : Nat) (r : DictHeader) : State :=
  if s.clamps = before then s
  else { s with agent := { s.agent with lastIndex := r.index.toNat, lastSub := r.sub.toNat } }

/-- A request of the dictionary is served (R44, R354): it acts only while the agent can take it, and waits while an earlier
one does. -/
def State.serve (s : State) (r : DictHeader) (cmd : Nat) (data : List Byte) (room : Nat) : State :=
  let q := (r.seq, r.bcast, dictPayload r cmd r.last 0 data)
  if !s.agentReady r.src then s
  else if !s.firstIn q r.src then s.joinQueue q r.src
  else ((s.takeRequest r cmd data).serveTaken r cmd data room).noteClamp s.clamps r

/-- DICT_READ (R359). -/
def execDictRead (r : DictHeader) (s : State) : Out := .next (s.serve r 1 [] 0)

/-- DICT_WRITE (R359). -/
def execDictWrite (r : DictHeader) (data : List Byte) (s : State) : Out := .next (s.serve r 2 data 0)

/-- SEGMENTED_READ_INITIATE (R360). -/
def execSegmentedReadInitiate (r : DictHeader) (s : State) : Out := .next (s.serve r 3 [] 0)

/-- SEGMENTED_WRITE_INITIATE (R360). -/
def execSegmentedWriteInitiate (r : DictHeader) (data : List Byte) (s : State) : Out := .next (s.serve r 4 data 0)

/-- SEGMENT (R360). -/
def execSegment (r : DictHeader) (data : List Byte) (room : Nat) (s : State) : Out := .next (s.serve r 5 data room)

/-- ABORT (R361). -/
def execAbortTransfer (r : DictHeader) (s : State) : Out := .next (s.serve r 6 [] 0)

/-- FIRMWARE_OBJECT_REQUEST (R378): a request with any listed CMD. -/
def execFirmwareObjectRequest (r : DictHeader) (cmd : BitVec 8) (data : List Byte) (s : State) : Out :=
  .next (s.serve r cmd.toNat data 0)

/-- TRANSFER_TIMEOUT (R361): 100 ms after the transfer's latest segment. -/
def execTransferTimeout (src : Source) (tag : Byte) (s : State) : Out :=
  .next (match s.transfer src tag with
    | none => s
    | some t =>
      if !s.running || s.agent.kprReq.isSome then s
      else
        let s := (s.atCycle (t.since + 20000000)).closeTransfer src tag
        let n := s.agent.timeouts
        { s with agent := { s.agent with timeouts := if n = 0xFFFF then n else n + 1 } })

/-- A command of the agent's own has ended with a code of Table 15.7 (R426): its request is answered. -/
def State.kprAnswer (s : State) (code : Nat) (bs : List Byte) : State :=
  match s.agent.kprReq with
  | none => s
  | some q =>
    let s := { s with agent := { s.agent with kprReq := none } }
    if code = 1 then s.respond q.hdr q.cmd q.last .ok (if q.write then [] else (bs.drop q.off).take q.len)
    else (s.respond q.hdr q.cmd true (if code = 4 then .busy else .refused) []).closeTransfer q.hdr.src q.hdr.tag

/-- KEEPER_COMMAND_DONE (R410). -/
def execKeeperCommandDone (mismatches : Nat) (nverr : Bool) (s : State) : Out :=
  .next (if !s.running then s
    else match s.kprEnd mismatches nverr with
    | (s, some (c, code, bs)) => if c.own then s.kprAnswer code bs else s
    | (s, none) => s)

/-- DQ (R349): a request frame that the unit takes reaches the agent, where the strap accepts the chain. -/
def execDqFrame (p : Port) (f : Frame) (s : State) : Out :=
  .next (if !s.hears p || f.type != 1 || !s.takes f || !s.accepts .chain then s
    else match s.fresh f with
    | (s, false) => s
    | (s, true) =>
      let cmd := field f.payload 0 1 % 16
      if cmd = 0 ∨ 6 < cmd ∨ f.payload.length < 8 then s.chDrop
      else { s with agent := { s.agent with queue := s.agent.queue ++ [(f.seq, f.dst == 255, f.payload)] } })

end Sys2Proof.Machine
end

