-- ==== Sys2Proof/Machine/Far.lean ====
section
/-! DEFINITION. Far instructions (R124 to R140, R179, R180): far loads and stores, far bit operations, locks, mail, pads,
events, and SYNC. A request takes its effect at its target within the issuing step; its reply arrives by FAR_REPLY or
FAR_ERROR_REPLY. -/

namespace Sys2Proof.Machine

/-- Thread `id` has issued a request to `isle` (R126, R128, R129): earlier deliveries to its destinations are
cancelled. -/
def State.request (s : State) (id : Nat) (isle : Isle) (phase : FarPhase) (dests : List (Dest × Word))
    (err : Option (Trap × Word)) : State :=
  s.updThr id fun t =>
    let t := dests.foldl (fun t d => t.cancel d.1) t
    { t with outst := t.outst ++ [⟨t.pc, phase, dests, err, isle, t.nextOrd⟩] }

/-- The thread goes on, unless its request switched its own island off. -/
def farNext (id : Nat) (s : State) : Act := if (s.eng (id / 16)).power = .off then .hold s else .next s

/-- A far instruction (R126, R129): the thread's consume notes land, and the earlier store that waits in the merge entry
leaves, first (R180, R213). -/
def farBeat (b : Beat) (reads : List Dest) (body : Nat → State → Act) (s : State) : State :=
  (beat b { reads := reads, far := true } (fun id s => body id ((s.landNotes id).flushFar (id / 16))) s).settle

/-- A bus access by thread `id` at `a` has been answered. -/
def State.answered (s : State) (id a : Nat) (ans : Answer) (dests : List (Dest × Word)) : State :=
  match ans with
  | .val _ => s.request id (isleOf a) .done dests none
  | .err c info => s.request id (isleOf a) .done dests (some (c, info))

/-- The traps at issue of an access of `n` bytes at `ea` (R34, R117, R125). -/
def farCheck (n : Nat) (ea : Word) (ok : Nat → Bool) (act : Act) : Act :=
  if ea.toNat % n ≠ 0 then .trap .align ea else if !ok ea.toNat then .trap .farerr ea else act

/-- Addresses that an access of `n` bytes may name (R34). -/
def farRange (n a : Nat) : Bool := if n = 4 then inFar a else inImage a

/-- The common form of the far loads (R124 to R126). -/
def farLoad (n : Nat) (signed : Bool) (b : Beat) (rd ra : Reg) (imm : BitVec 14) (s : State) : State :=
  farBeat b [.reg ra] (fun id s =>
    let ea := ea14 (s.thr id) ra imm
    farCheck n ea (farRange n)
      (let (s, ans) := (s.inTurn id ea.toNat).busRead id ea.toNat n
       farNext id (s.answered id ea.toNat ans [(.reg rd, extend n signed ans.value.toNat)]))) s

/-- FLD_W (R126). -/
def execFldW (b : Beat) (rd ra : Reg) (imm : BitVec 14) (s : State) : Out := .next (farLoad 4 false b rd ra imm s)

/-- FLD_H (R126). -/
def execFldH (b : Beat) (rd ra : Reg) (imm : BitVec 14) (s : State) : Out := .next (farLoad 2 true b rd ra imm s)

/-- FLD_HU (R126). -/
def execFldHu (b : Beat) (rd ra : Reg) (imm : BitVec 14) (s : State) : Out := .next (farLoad 2 false b rd ra imm s)

/-- FLD_B (R126). -/
def execFldB (b : Beat) (rd ra : Reg) (imm : BitVec 14) (s : State) : Out := .next (farLoad 1 true b rd ra imm s)

/-- FLD_BU (R126). -/
def execFldBu (b : Beat) (rd ra : Reg) (imm : BitVec 14) (s : State) : Out := .next (farLoad 1 false b rd ra imm s)

/-- A store of thread `id` joins the far merge entry of its engine, which is flushed first where the store cannot join
(R179), and after it where all eight lanes are valid (R180). -/
def State.storeFar (s : State) (id a n v : Nat) : State :=
  let k := id / 16
  let dw := a - a % 8
  let s := if (s.eng k).farMerge.any (fun m => m.owner != id || m.addr != dw) then s.flushFar k else s
  let m := (s.eng k).farMerge.getD ⟨dw, [], id, s.cycle⟩
  let lanes := (lanesOf (a % 8) n v).foldl (fun l x => tabSet l x.1 x.2) m.lanes
  let s := s.updEng k ({ · with farMerge := some ⟨dw, lanes, id, s.cycle⟩ })
  let s := s.request id .fabric .merge [] none
  if lanes.length = 8 then s.flushFar k else s

/-- A word store of thread `id` to the Ward table or a register (R132, R179). -/
def State.storeReg (s : State) (id a : Nat) (v : Word) : State :=
  let s := (s.flushFar (id / 16)).inTurn id a
  match s.busWrite id a v with
  | (s, .val _) => s.request id (isleOf a true) (if isAon a then .aon else .done) [] none
  | (s, .err c info) => s.request id (isleOf a true) .done [] (some (c, info))

/-- The common form of the far stores (R124, R125, R179). -/
def farStore (n : Nat) (b : Beat) (rd ra : Reg) (imm : BitVec 14) (s : State) : State :=
  (beat b { reads := [.reg ra, .reg rd], far := true } (fun id s =>
    let s := s.landNotes id
    let t := s.thr id
    let ea := ea14 t ra imm
    farCheck n ea (farRange n)
      (if inImage ea.toNat then .next (s.storeFar id ea.toNat n (t.rd rd).toNat)
       else farNext id (s.storeReg id ea.toNat (t.rd rd)))) s).settle

/-- FST_W (R179). -/
def execFstW (b : Beat) (rd ra : Reg) (imm : BitVec 14) (s : State) : Out := .next (farStore 4 b rd ra imm s)

/-- FST_H (R179). -/
def execFstH (b : Beat) (rd ra : Reg) (imm : BitVec 14) (s : State) : Out := .next (farStore 2 b rd ra imm s)

/-- FST_B (R179). -/
def execFstB (b : Beat) (rd ra : Reg) (imm : BitVec 14) (s : State) : Out := .next (farStore 1 b rd ra imm s)

/-! ### Far bit operations (R133) -/

/-- The common form of FBT, FBS, FBC and FBW: `new` gives the bit to write, if any. -/
def farBit (new : Thread → Option Bool) (b : Beat) (reads : List Dest) (rd ra : Reg) (off : BitVec 9) (i : BitVec 5)
    (s : State) : State :=
  farBeat b (.reg ra :: reads) (fun id s =>
    let t := s.thr id
    let ea := eaBit t ra off
    farCheck 4 ea inImage
      (let s := (s.landsAfter id ea.toNat).imageCycles 2
       let cw := cwOf ea.toNat
       let pos := 8 * (ea.toNat - cw) + i.toNat
       match s.readCode cw 0 id with
       | (s, none) => .next (s.request id .fabric .done [(.reg rd, 0), (.flagT, 0)] (some (.eccd, word cw)))
       | (s, some v) =>
         let old := v.testBit pos
         let s := match new t with
           | some x => (s.noteWrites id [ea.toNat, ea.toNat + 1, ea.toNat + 2, ea.toNat + 3]).writeCode cw
               (v - old.toNat * 2 ^ pos + x.toNat * 2 ^ pos)
           | none => s
         .next (s.request id .fabric .done [(.reg rd, bitWord old), (.flagT, bitWord old)] none))) s

/-- FBT (R133). -/
def execFbt (b : Beat) (rd ra : Reg) (off : BitVec 9) (bit : BitVec 5) (s : State) : Out :=
  .next (farBit (fun _ => none) b [] rd ra off bit s)

/-- FBS (R133). -/
def execFbs (b : Beat) (rd ra : Reg) (off : BitVec 9) (bit : BitVec 5) (s : State) : Out :=
  .next (farBit (fun _ => some true) b [] rd ra off bit s)

/-- FBC (R133). -/
def execFbc (b : Beat) (rd ra : Reg) (off : BitVec 9) (bit : BitVec 5) (s : State) : Out :=
  .next (farBit (fun _ => some false) b [] rd ra off bit s)

/-- FBW (R133). -/
def execFbw (b : Beat) (rd rb ra : Reg) (off : BitVec 9) (bit : BitVec 5) (s : State) : Out :=
  .next (farBit (fun t => some ((t.rd rb).getLsbD 0)) b [.reg rb] rd ra off bit s)

/-! ### Events, locks and mail (R136, R139, R140, R192 to R203) -/

/-- SIG (R136): its channel is raised 2 fabric cycles after the launch (R219). -/
def execSig (b : Beat) (n : BitVec 4) (s : State) : Out :=
  .next (farBeat b [] (fun id s =>
    .next ((s.raiseLater 2 (256 + id / 16 * 16 + n.toNat)).request id .fabric .done [] none)) s)

/-- LOCK (R139). -/
def execLock (b : Beat) (rd ra : Reg) (imm : BitVec 14) (s : State) : Out :=
  .next (farBeat b [.reg ra] (fun id s =>
    let ea := ea14 (s.thr id) ra imm
    farCheck 4 ea inImage
      (let (s, c) := s.acquire id ea.toNat
       let got := c == .taken || c == .broken
       .next (s.request id .fabric .done [(.reg rd, word c.code), (.flagT, bitWord got)] none))) s)

/-- ULOCK (R193). -/
def execUlock (b : Beat) (ra : Reg) (imm : BitVec 14) (s : State) : Out :=
  .next (farBeat b [.reg ra] (fun id s =>
    let ea := ea14 (s.thr id) ra imm
    farCheck 4 ea inImage (.next ((s.release id ea.toNat).1.request id .fabric .done [] none))) s)

/-- WAITL (R140, R194): the thread suspends; where the lock is free the wait completes at once, else the thread
registers and its registration is acknowledged. -/
def execWaitl (b : Beat) (ra : Reg) (imm : BitVec 14) (s : State) : Out :=
  .next (farBeat b [.reg ra] (fun id s =>
    let ea := ea14 (s.thr id) ra imm
    farCheck 4 ea inImage
      (let w := (s.setSt id .waiting).updThr id ({ · with wait := .lock ea })
       let w := w.tumTurn 4 id
       if w.lockHeld ea.toNat then
         .hold ({ w with tum := { w.tum with waiters := tabSet w.tum.waiters id ea.toNat } }.request id .fabric .done [] none)
       else .hold ((w.completeWait id).atOnce id))) s)

/-- MPUT (R199). -/
def execMput (b : Beat) (rd : Reg) (ch : Fin 64) (w : Bool) (s : State) : Out :=
  .next (farBeat b [.reg rd] (fun id s =>
    let v := (s.thr id).rd rd
    .next ((if w then s.mailCommit id ch.val v else s.mailStage id ch.val v).request id .fabric .done [] none)) s)

/-- MGET (R202). -/
def execMget (b : Beat) (rd : Reg) (ch : Fin 64) (w : Bool) (s : State) : Out :=
  .next (farBeat b [] (fun id s =>
    let s := s.tumTurn 8 0
    let valid := (s.mailCh ch.val).valid
    let (s, v) := s.mailRead id ch.val w
    .next (s.request id .fabric .done [(.reg rd, v), (.flagT, bitWord valid)] none)) s)

/-! ### Pads (R137, R259, R270) -/

/-- The ra field and X with the pad number of PSET and PCAP (R137). -/
def padField : PadSelect → Nat
  | .num p => p.toNat
  | .reg ra => ra.val * 2 ^ 18 + 2 ^ 13

/-- The far port (R130): a request of a timed thread goes ahead of those of slack threads, within its class behind the
earlier ones. -/
def portInsert (timed : Nat → Bool) (r : PadReq) : List PadReq → List PadReq
  | [] => [r]
  | x :: xs => if timed r.thr && !timed x.thr then r :: x :: xs else x :: portInsert timed r xs

/-- A request leaves for the pad island (R27, R130). -/
def State.padSend (s : State) (r : PadReq) (dests : List (Dest × Word)) : State :=
  let timed (id : Nat) : Bool := s.timed (id / 16) (id % 16)
  (s.request r.thr .pad .flight dests none).updEng (r.thr / 16) fun e =>
    { e with padReqs := portInsert timed r e.padReqs }

/-- PSET (R136, R137): level 0b11 is ILLOP. -/
def execPset (b : Beat) (pad : PadSelect) (level : BitVec 2) (rb : Reg) (s : State) : Out :=
  .next (
    if level = 3 then
      beat b {} (fun _ _ => .trap .illop (word (0x3A * 2 ^ 26 + rb.val * 2 ^ 14 + 3 * 2 ^ 7 + padField pad))) s
    else farBeat b (.reg rb :: padReads pad) (fun id s =>
      let t := s.thr id
      .next (s.padSend ⟨id, padOf t pad, some (level, t.rd rb), 0, t.pc⟩ [])) s)

/-- PCAP (R137): an odd rd is ILLOP. -/
def execPcap (b : Beat) (rd : Reg) (pad : PadSelect) (s : State) : Out :=
  .next (
    if rd.val % 2 = 1 then
      beat b {} (fun _ _ => .trap .illop (word (0x3B * 2 ^ 26 + rd.val * 2 ^ 22 + padField pad))) s
    else farBeat b (padReads pad) (fun id s =>
      let t := s.thr id
      .next (s.padSend ⟨id, padOf t pad, none, rd, t.pc⟩ [(.reg rd, 0), (.reg (rd + 1), 0), (.flagT, 0)])) s)

/-! ### SYNC (R134) -/

/-- The stores of thread `id` in the merge entries are written (R177, R180). -/
def State.flushOwn (s : State) (id : Nat) : State :=
  let s := (s.both (id / 16)).foldl (fun s j =>
    if (s.eng j).localMerge.any (fun m => m.owners.contains (id % 16)) then s.flushLocal j else s) s
  if (s.eng (id / 16)).farMerge.any (fun m => m.owner == id) then s.flushFar (id / 16) else s

/-- SYNC (R134). -/
def execSync (b : Beat) (s : State) : Out :=
  .next (beat b { sync := true } (fun id s =>
    let s := s.flushOwn id
    if (s.thr id).outst.isEmpty then .next s else .stall s .farSync) s)

end Sys2Proof.Machine
end

