-- ==== Sys2Proof/Machine/MulDiv.lean ====
section
/-! DEFINITION. Multiply and divide (R110 to R113, Tables 4.5 and 4.6). -/

namespace Sys2Proof.Machine

/-- MUL (R110). -/
def execMul (b : Beat) (rd ra rb : Reg) (s : State) : Out :=
  .next (regBeat b [.reg ra, .reg rb] (fun t =>
    let v := t.rd ra * t.rd rb
    t.result rd v (withNZ t.status v)) s)

/-- MULH (R110): bits [63:32] of the signed product. -/
def execMulh (b : Beat) (rd ra rb : Reg) (s : State) : Out :=
  .next (regBeat b [.reg ra, .reg rb] (fun t =>
    let v := BitVec.ofInt 32 ((t.rd ra).toInt * (t.rd rb).toInt / 2 ^ 32)
    t.result rd v (withNZ t.status v)) s)

/-- The most negative number over minus one (Table 4.6). -/
def divWraps (a b : Word) : Bool := a == 0x80000000 && b == 0xFFFFFFFF

/-- DIV: value and V (Table 4.6). -/
def divSigned (a b : Word) : Word × Bool :=
  if b = 0 then (0xFFFFFFFF, true) else if divWraps a b then (0x80000000, true)
  else (BitVec.ofInt 32 (a.toInt.tdiv b.toInt), false)

/-- DIVU: value and V (Table 4.6). -/
def divUnsigned (a b : Word) : Word × Bool :=
  if b = 0 then (0xFFFFFFFF, true) else (word (a.toNat / b.toNat), false)

/-- REM: value and V (Table 4.6). -/
def remSigned (a b : Word) : Word × Bool :=
  if b = 0 then (a, true) else if divWraps a b then (0, true)
  else (BitVec.ofInt 32 (a.toInt.tmod b.toInt), false)

/-- REMU: value and V (Table 4.6). -/
def remUnsigned (a b : Word) : Word × Bool :=
  if b = 0 then (a, true) else (word (a.toNat % b.toNat), false)

/-- A divide (R110, R112, R113): its first beat reads the operands and cancels a pending delivery into rd (R128); `cut`
tells what falls within its beats. Under DIVM = 1 an interrupt that becomes due abandons it, under DIVM = 0 the divide
completes first. -/
def divide (f : Word → Word → Word × Bool) (b : Beat) (rd ra rb : Reg) (cut : DivCut) (s : State) : State :=
  beat b { reads := [.reg ra, .reg rb], divide := true } (fun id s =>
    let t := s.thr id
    let x := t.div.getD (t.rd ra, t.rd rb)
    let s := if t.div.isSome then s else s.setThr id (t.cancel (.reg rd))
    let finish (s : State) : Act := .next (s.updThr id fun t =>
      let r := f x.1 x.2
      { t.result rd r.1 (withV (withNZ t.status r.1) r.2) with div := none })
    match cut with
    | .whole => finish s
    | .part => .within (s.updThr id ({ · with div := some x }))
    | .event k =>
      let s := s.deliverEvent id k.val
      match (if s.divm id then s.intDue id else none) with
      | some (k, e) => .hold ((s.updThr id ({ · with div := none })).takeInt id k e)
      | none => finish s) s

/-- DIV (R111). -/
def execDiv (b : Beat) (rd ra rb : Reg) (cut : DivCut) (s : State) : Out :=
  .next (divide divSigned b rd ra rb cut s)

/-- DIVU (R111). -/
def execDivu (b : Beat) (rd ra rb : Reg) (cut : DivCut) (s : State) : Out :=
  .next (divide divUnsigned b rd ra rb cut s)

/-- REM (R111). -/
def execRem (b : Beat) (rd ra rb : Reg) (cut : DivCut) (s : State) : Out :=
  .next (divide remSigned b rd ra rb cut s)

/-- REMU (R111). -/
def execRemu (b : Beat) (rd ra rb : Reg) (cut : DivCut) (s : State) : Out :=
  .next (divide remUnsigned b rd ra rb cut s)

end Sys2Proof.Machine
end

