-- ==== Sys2Proof/Machine/PadEvents.lean ====
section
/-! DEFINITION. Events of the pads and converter ports (R262, R266, R268, R273, R277 to R284) and the output commit. -/

namespace Sys2Proof.Machine

/-- EDGE_PLACE (R262). -/
def execEdgePlace (pad : Fin 128) (s : State) : Out := .next (if s.islesUp then s.placeHead pad.val else s)

/-- The pads in commit mode are decided for the commit instant `c` (R266). -/
def State.commitPads (s : State) (c : Time64) : State :=
  (upTo 128).foldl (fun s p =>
    if bit (s.reg (aPadCfg p)) 19 then s.place p c (BitVec.ofNat 2 (fld (s.reg (aPadCommit p)) 0 2)) true else s) s

/-- The mode gate at an output commit (R277, Table 10.3); a paired unit owns from the commit at which its gate ends in
Run (R387). -/
def State.commitGate (s : State) : State :=
  match s.sys.mode with
  | .run =>
    if !s.sys.gate then s
    else if s.paired && !s.shk.owner then s.gateOff.ownership true none
    else s.gateOff
  | .tracking => s.gateOff
  | .preparation => if s.sys.gatePend then s.gateOn else s
  | _ => s

/-- The output commit instant of the present tick (R266, R277, R336, R393). -/
def State.outputCommit (s : State) : State :=
  match s.chain.sched with
  | none => s
  | some x =>
    if !s.islesUp || x.commit then s
    else
      let c := x.commitAt
      let s := (s.pass (s.decideIn c)).commitPads c
      let s := (s.atChain c).raise 578
      let s := { s with chain := { s.chain with sched := some { x with commit := true } } }
      ((s.passLate c).ownCommit c).commitGate.ownCommit c

/-- OUTPUT_COMMIT (R266). -/
def execOutputCommit (s : State) : Out := .next s.outputCommit

/-- An edge at a pin: the stamper takes it, and where CAPPOL selects it the live latch slots of the pad fire (R221,
R268). -/
def State.padEdge (s : State) (p : Nat) (level : Bool) (sub : BitVec 6) : State :=
  let hot (i : Fin 32) : Bool :=
    s.selects p level && (s.pad p).pin != level && (tabFind s.hinge.slots i.val).any fun v => rSrc v.toNat == p
  ((List.finRange 32).filter hot).foldl State.fireSlot (s.edge p level sub)

/-- PAD_EDGE (R221, R268). -/
def execPadEdge (pad : Fin 128) (level : Bool) (sub : BitVec 6) (s : State) : Out := .next (s.padEdge pad.val level sub)

/-- CAL_SETTLED (R273). -/
def execCalSettled (s : State) : Out :=
  .next (if s.islesUp && !s.settled then (s.setFlag aCal 31).raise 670 else s)

/-- CAL_LAP (R273): a lap after settling, in µs. -/
def execCalLap (us : Nat) (s : State) : Out :=
  .next (if s.islesUp && s.settled then s.setRegFld aCal 0 16 (min 0xFFFF us) else s)

/-- OWN_OUT_CHANGE (R278). -/
def execOwnOutChange (s : State) : Out := .next (if s.islesUp then s.ownOut else s)

/-- SHACKLE_HOLD_EXPIRY (R279). -/
def execShackleHoldExpiry (s : State) : Out := .next (if s.islesUp then s.holdExpiry else s)

/-- TRIGGER_PLACE (R280). -/
def execTriggerPlace (port : Fin 8) (s : State) : Out := .next (if s.islesUp then s.trigger port.val else s)

/-- TRIGGER_FALL (R280). -/
def execTriggerFall (port : Fin 8) (s : State) : Out := .next (if s.islesUp then s.triggerFall port.val else s)

/-- CVT_BUSY_TIMEOUT (R282). -/
def execCvtBusyTimeout (port : Fin 8) (s : State) : Out := .next (if s.islesUp then s.cvtTimeout port.val else s)

/-- SAMPLE_DELIVERY (R284). -/
def execSampleDelivery (port : Fin 8) (sample : Word) (s : State) : Out :=
  .next (if s.islesUp then s.sampleIn port.val sample else s)

end Sys2Proof.Machine
end

