-- ==== Sys2Proof/Machine/Ports.lean ====
section
/-! DEFINITION. The local register port (R459 to R461) and the test port (R462 to R464). -/

namespace Sys2Proof.Machine

/-! ### The local register port -/

/-- Addresses of LRP_REQ and LRP_RSP in the model's own space (log entry 5). -/
def aLrpReq : Nat := 0x90000000
def aLrpRsp : Nat := 0x90000400

/-- REJ is set. -/
def State.lrpReject (s : State) : State := { s with lrp := { s.lrp with rej := true } }

/-- ACK (R461): clears DONE; it is the reading of a response that waits (R374, R375). -/
def State.ackResponse (s : State) : State :=
  if s.lrp.done then { s.drGone .lrp with lrp := { s.lrp with done := false } } else s

/-- A write of LRP_CTL (R461): ACK, then GO. -/
def State.lrpCtl (s : State) (v : Word) : State :=
  if !s.running then s
  else
    let s := if bit v 1 then s.ackResponse else s
    if bit v 0 then
      let n := fld v 16 11
      let m := min 1024 (max 8 n)
      let s := s.clamp (n != m).toNat
      if s.lrp.busy || s.lrp.done || s.sys.straps.dictsrc == 0 then s.lrpReject
      else
        let cmd := (readByte s.mem aLrpReq).toNat % 16
        if cmd = 0 ∨ 6 < cmd then s.lrpReject
        else { s with lrp := { s.lrp with busy := true, req := readBytes s.mem aLrpReq m, ahead := s.agent.queue.length } }
    else s

/-- LRP_GO (R461). -/
def execLrpGo (value : Word) (s : State) : Out := .next (s.lrpCtl (setBit value 0 true))

/-- LRP_ACK (R461). -/
def execLrpAck (value : Word) (s : State) : Out := .next (s.lrpCtl (setBit value 1 true))

/-- LRP_REQ_WRITE (R460, R461): an aligned word of the request buffer. -/
def execLrpReqWrite (off : BitVec 10) (value : Word) (s : State) : Out :=
  .next (if !s.running || off.toNat % 4 != 0 then s
    else if s.lrp.busy then s.lrpReject
    else { s with mem := writeWord s.mem (aLrpReq + off.toNat) value })

/-- LRP_RESPONSE (R461): bytes beyond RLEN read 0. -/
def execLrpResponse (s : State) : Out :=
  .next (match s.lrp.resp with
    | none => s
    | some pl =>
      let body := pl ++ List.replicate (1024 - pl.length) (0 : Byte)
      { s with mem := writeBytes s.mem aLrpRsp body
               lrp := { s.lrp with busy := false, done := true, rlen := pl.length, req := [], resp := none } })

/-- LRP_STAT (Table 17.9). -/
def State.lrpStat (s : State) : Word :=
  word (s.lrp.busy.toNat * 2 ^ 31 + s.lrp.done.toNat * 2 ^ 30 + s.lrp.rej.toNat * 2 ^ 29
    + (s.sys.straps.dictsrc == 0).toNat * 2 ^ 28 + s.lrp.rlen * 2 ^ 16)

/-- A byte of LRP_RSP: 0 beyond RLEN (R461). -/
def State.rspByte (s : State) (i : Nat) : Byte := if i < s.lrp.rlen then readByte s.mem (aLrpRsp + i) else 0

/-- The word of the port space at an offset (Table 17.8): what is not listed reads 0 (R460), and so do the write-only fields of
LRP_CTL. -/
def State.portWord (s : State) (off : Nat) : Word :=
  let a := off / 4 * 4
  if a < 0x400 then readWord s.mem (aLrpReq + a)
  else if a < 0x800 then BitVec.ofNat 32 (leNat ((upTo 4).map fun j => s.rspByte (a - 0x400 + j)))
  else if a = 0x804 then s.lrpStat
  else 0

/-- What the port's outputs show (R459, R460), LRP_RDATA and LRP_ACK at the edge at which a read of an offset completes. -/
structure PortPins where
  nrdy : Bool
  irq : Bool
  ack : Bool
  rdata : Word
  deriving DecidableEq, Repr

/-- The port's outputs: while the fabric island does not run no access is taken, LRP_NRDY reads 1 and the outputs of the island are
held at 0 (R445, R459); LRP_IRQ follows DONE. -/
def State.portPins (s : State) (off : Nat) : PortPins :=
  if s.running then ⟨false, s.lrp.done, true, s.portWord off⟩ else ⟨true, false, false, 0⟩

/-! ### The test port -/

/-- The codes of Table 17.11. -/
def TapReg.code : TapReg → BitVec 5
  | .idcode => 0b00001
  | .dbga => 0b01000
  | .dbgd => 0b01001
  | .dbgrst => 0b01010
  | .bypass => 0b11111

/-- The instruction that the port acts on (R462): a code that is not listed acts as BYPASS, and while DBGEN is 0 so do DBGA, DBGD and
DBGRST. -/
def Tap.selected (t : Tap) : TapReg :=
  if t.ir = TapReg.idcode.code then .idcode
  else if !t.dbgen then .bypass
  else if t.ir = TapReg.dbga.code then .dbga
  else if t.ir = TapReg.dbgd.code then .dbgd
  else if t.ir = TapReg.dbgrst.code then .dbgrst
  else .bypass

/-- A scan with the code of `i` in the instruction register: it acts where that instruction is selected; where BYPASS is, the 1-bit
register keeps the last bit that passed (PRESUMED, log entry 129). -/
def State.tapScan (s : State) (i : TapReg) (last : Bool) (act : State → State) : State :=
  let s := { s with tap := { s.tap with ir := i.code } }
  if s.tap.selected = i then act s
  else if s.tap.selected = .bypass then { s with tap := { s.tap with bypass := last } }
  else s

/-- A launch of an access (R463): discarded while DONE is 0, refused at once while the fabric is not running. -/
def State.tapLaunch (s : State) (data : Option Word) : State :=
  if !s.tap.done then { s with tap := { s.tap with lost := true } }
  else if !s.running then { s with tap := { s.tap with done := true, err := true, data := none } }
  else { s with tap := { s.tap with access := some (s.tap.addr &&& 0xFFFFFFFC, data)
                                    done := false, err := false, data := none } }

/-- DBGA (R463): WR = 0 launches a read; WR = 1 only stores the address. -/
def execDbga (value : Word) (s : State) : Out :=
  .next (s.tapScan .dbga value.msb fun s =>
    let s := { s with tap := { s.tap with addr := value } }
    if bit value 0 then s else s.tapLaunch none)

/-- DBGD_UPDATE (R463): after a DBGA with WR = 1, launches the write of the shifted data. -/
def execDbgdUpdate (value : Word) (s : State) : Out :=
  .next (s.tapScan .dbgd false fun s => if bit s.tap.addr 0 then s.tapLaunch (some value) else s)

/-- DBGD_CAPTURE (R463): ERR, DONE and the data; data that R463 does not state is free (log entry 3). -/
def execDbgdCapture (s : State) : Out :=
  .next (s.tapScan .dbgd false fun s =>
    let (s, w) := match s.tap.data with
      | some w => (s, w)
      | none => s.drawWord
    let head : BitVec 2 := BitVec.ofBool (s.tap.err || s.tap.lost) ++ BitVec.ofBool s.tap.done
    { s with reply := w, tap := { s.tap with lost := false, capture := head ++ w } })

/-- The access in flight has ended. -/
def State.tapDone (s : State) (err : Bool) (data : Option Word) : State :=
  { s with tap := { s.tap with access := none, done := true, err := err, data := data } }

/-- DEBUG_ACCESS_DONE (R463): an access of identity 290 completes or is refused. -/
def execDebugAccessDone (s : State) : Out :=
  .next (match s.tap.access with
    | none => s
    | some (a, d) =>
      if !s.running then s.tapDone true none
      else match d with
      | none =>
        match s.busRead 290 a.toNat 4 with
        | (s, .val v) => s.tapDone false (some v)
        | (s, .err _ _) => s.tapDone true none
      | some v =>
        match s.busWrite 290 a.toNat v with
        | (s, .val _) => (s.tapDone false none).settle
        | (s, .err _ _) => s.tapDone true none)

/-- DBGRST (R463): 0xC1A5 starts a debug reset under Table 2.14 while the fabric island runs. -/
def execDbgrst (value : BitVec 16) (s : State) : Out :=
  .next (s.tapScan .dbgrst value.msb fun s => if s.running && value == 0xC1A5 then s.resetNow 4 else s)

/-- The identification register (Table 17.11). -/
def idcodeOf (mid : BitVec 11) : Word := (1 : BitVec 4) ++ (0x0256 : BitVec 16) ++ mid ++ (1 : BitVec 1)

/-- IDCODE (R462): in every mode. -/
def execIdcode (s : State) : Out :=
  .next (s.tapScan .idcode false fun s => { s with reply := idcodeOf s.sys.straps.jtagMid })

/-- TRST_N (R464): Test-Logic-Reset selects IDCODE; the unit is not reset. -/
def execTrstN (s : State) : Out := .next { s with tap := { s.tap with ir := TapReg.idcode.code } }

/-- The bits of the selected data register as it stands, bit 0 first: what Shift-DR sends. DBGA's is the address last stored; what
DBGRST's holds no rule states, and none is shown. -/
def State.dataReg (s : State) : List Bool :=
  match s.tap.selected with
  | .idcode => (upTo 32).map (idcodeOf s.sys.straps.jtagMid).getLsbD
  | .dbgd => (upTo 34).map s.tap.capture.getLsbD
  | .dbga => (upTo 32).map s.tap.addr.getLsbD
  | .bypass => [s.tap.bypass]
  | .dbgrst => []

/-- TDO (R464): bit `n` of the data register at the `n`-th bit of Shift-DR, else Z. -/
def State.tdo (s : State) (shift : Option Nat) : Option Bool := shift.bind fun n => s.dataReg[n]?

/-- DBGEN_CHANGE (R452). -/
def execDbgenChange (level : Bool) (s : State) : Out := .next { s with tap := { s.tap with dbgen := level } }

end Sys2Proof.Machine
end

