-- ==== Sys2Proof/Machine/RegCommands.lean ====
section
/-! DEFINITION. The commands that are accesses to registers with behaviour of their own: each is a write or a read by
the master it names (R13, R42), at the address of spec's register tables. -/

namespace Sys2Proof.Machine

/-- A write of acting bits of a register by master `id`, its RW bits kept. -/
def actCmd (id : Id) (a : Nat) (v : Word) (s : State) : Out := writeCmd id a (s.keepWith a v) s

/-! ### The system window and the engine blocks -/

/-- Address of LRP_STAT in the model's own space, written by the dictionary agent's identity (log entry 5). -/
def aLrpStat : Nat := 0x90000804

/-- A write of LRP_STAT (Table 17.9): REJ clears where 1 is written; no access is taken while LRP_NRDY is 1 (R459). -/
def State.lrpStatWrite (s : State) (v : Word) : State :=
  if s.running && bit v 29 then { s with lrp := { s.lrp with rej := false } } else s

/-- REGISTER_WRITE (R42): an aligned word; one of the local register port's own registers for LRP_STAT. -/
def execRegisterWrite (id : Id) (addr value : Word) (s : State) : Out :=
  if id.toNat = 288 ∧ addr.toNat = aLrpStat then .next (s.lrpStatWrite value)
  else if addr.toNat % 4 = 0 then writeCmd id addr.toNat value s else .next s

/-- MODE_REQUEST (R50). -/
def execModeRequest (id : Id) (v : Word) (s : State) : Out := writeCmd id 0x500F0104 v s

/-- SOFT_RESET (R54). -/
def execSoftReset (id : Id) (v : Word) (s : State) : Out := writeCmd id 0x500F010C v s

/-- SYS_ENGPWR_WRITE (R469). -/
def execSysEngpwrWrite (id : Id) (v : Word) (s : State) : Out := writeCmd id 0x500F0114 v s

/-- SYS_ENGSTART_WRITE (R468). -/
def execSysEngstartWrite (id : Id) (v : Word) (s : State) : Out := writeCmd id 0x500F0118 v s

/-- ENGINE_RESET (R94): a write of ENG_CTL. -/
def execEngineReset (id : Id) (eng : Fin 16) (v : Word) (s : State) : Out := writeCmd id (aEng eng 0) v s

/-- ENG_WHCTL_COMMIT (R84): a write of ENG_WHCTL. -/
def execEngWhctlCommit (id : Id) (eng : Fin 16) (v : Word) (s : State) : Out := writeCmd id (aEng eng 8) v s

/-- TRP_REL (R159). -/
def execTrpRel (id : Id) (eng : Fin 16) (v : Word) (s : State) : Out := writeCmd id (aTrp eng 4) v s

/-! ### Debug and the error block (R163 to R166, R186, R188) -/

/-- DBG_FREEZE (R165): a write of DBG_CTL. -/
def execDbgFreeze (id : Id) (v : Word) (s : State) : Out := writeCmd id 0x500F3000 v s

/-- A read, or a write where there is data. -/
def accessCmd (id : Id) (a : Nat) (wr : Option Word) (s : State) : Out :=
  match wr with
  | some v => writeCmd id a v s
  | none => readCmd id a s

/-- DBG_CTXDATA_ACCESS (R163). -/
def execDbgCtxdataAccess (id : Id) (wr : Option Word) (s : State) : Out := accessCmd id 0x500F3008 wr s

/-- DBG_MDATA_ACCESS (R163). -/
def execDbgMdataAccess (id : Id) (wr : Option Word) (s : State) : Out := accessCmd id 0x500F3010 wr s

/-- DBG_HALT (R165). -/
def execDbgHalt (id : Id) (eng : Fin 16) (v : Word) (s : State) : Out := writeCmd id (0x500F3100 + 0x20 * eng) v s

/-- DBG_RUN (R165). -/
def execDbgRun (id : Id) (eng : Fin 16) (v : Word) (s : State) : Out := writeCmd id (0x500F3104 + 0x20 * eng) v s

/-- DBG_STEP (R166). -/
def execDbgStep (id : Id) (eng : Fin 16) (v : Word) (s : State) : Out := writeCmd id (0x500F3108 + 0x20 * eng) v s

/-- CLRCNT (R186): a write of ECC_CTL. -/
def execClrcnt (id : Id) (v : Word) (s : State) : Out := writeCmd id 0x500F4000 v s

/-- ECC_INJ_ARM (R188): a write of ECC_INJ. -/
def execEccInjArm (id : Id) (v : Word) (s : State) : Out := writeCmd id 0x500F4014 v s

/-! ### The Tumbler unit (R192 to R203, R207) -/

/-- A write of TUM_LREQ with an operation of Table 7.6. -/
def lreqCmd (op : Nat) (id : Id) (woff : BitVec 17) (s : State) : Out :=
  writeCmd id 0x50040010 (word (op * 2 ^ 30 + woff.toNat * 4)) s

/-- LREQ_ACQUIRE (R192). -/
def execLreqAcquire (id : Id) (woff : BitVec 17) (s : State) : Out := lreqCmd 0 id woff s

/-- LREQ_RELEASE (R193). -/
def execLreqRelease (id : Id) (woff : BitVec 17) (s : State) : Out := lreqCmd 1 id woff s

/-- LREQ_CLEAR (R198). -/
def execLreqClear (id : Id) (woff : BitVec 17) (s : State) : Out := lreqCmd 2 id woff s

/-- TUM_LQRY (R196). -/
def execTumLqry (id : Id) (woff : BitVec 17) (s : State) : Out := writeCmd id 0x50040018 (word (woff.toNat * 4)) s

/-- BCLRALL (R198). -/
def execBclrall (id : Id) (s : State) : Out := actCmd id 0x50040000 2 s

/-- TUM_CNTCLR (R207). -/
def execTumCntclr (id : Id) (s : State) : Out := actCmd id 0x50040000 4 s

/-- MB_W0_WRITE (R199). -/
def execMbW0Write (id : Id) (ch : Fin 64) (v : Word) (s : State) : Out := writeCmd id (0x50040404 + 16 * ch) v s

/-- MB_W1_WRITE (R200). -/
def execMbW1Write (id : Id) (ch : Fin 64) (v : Word) (s : State) : Out := writeCmd id (0x50040408 + 16 * ch) v s

/-- MB_W0_READ (R202). -/
def execMbW0Read (id : Id) (ch : Fin 64) (s : State) : Out := readCmd id (0x50040404 + 16 * ch) s

/-- MB_W1_READ (R202). -/
def execMbW1Read (id : Id) (ch : Fin 64) (s : State) : Out := readCmd id (0x50040408 + 16 * ch) s

/-! ### The Hinge fabric (R217, R219, R220, R222, R226) -/

/-- HF_RACC_WR (R217). -/
def execHfRaccWr (id : Id) (s : State) : Out := writeCmd id 0x5001000C 1 s

/-- HF_RACC_RD (R217). -/
def execHfRaccRd (id : Id) (s : State) : Out := writeCmd id 0x5001000C 2 s

/-- HF_COMMIT (R222). -/
def execHfCommit (id : Id) (s : State) : Out := actCmd id 0x50010000 1 s

/-- HF_CNTCLR (R226). -/
def execHfCntclr (id : Id) (s : State) : Out := actCmd id 0x50010000 2 s

/-- HF_RAISE (R219). -/
def execHfRaise (id : Id) (j : Fin 6) (v : Word) (s : State) : Out := writeCmd id (0x50010040 + 4 * j) v s

/-- HF_GRPEN_WRITE (R220). -/
def execHfGrpenWrite (id : Id) (j : Fin 2) (v : Word) (s : State) : Out := writeCmd id (0x50010020 + 4 * j) v s

/-! ### Timers and chain time (R232 to R249) -/

/-- TSTART (R241). -/
def execTstart (id : Id) (v : Word) (s : State) : Out := writeCmd id 0x50002000 v s

/-- TMRSTOP (R241). -/
def execTmrstop (id : Id) (v : Word) (s : State) : Out := writeCmd id 0x50002004 v s

/-- TMR_CNTL_WRITE (R248). -/
def execTmrCntlWrite (id : Id) (t : Fin 32) (v : Word) (s : State) : Out := writeCmd id (aTmr t 0x10) v s

/-- TMR_CNTL_READ (R249). -/
def execTmrCntlRead (id : Id) (t : Fin 32) (s : State) : Out := readCmd id (aTmr t 0x10) s

/-- TMR_TOPL_WRITE (R248). -/
def execTmrToplWrite (id : Id) (t : Fin 32) (v : Word) (s : State) : Out := writeCmd id (aTmr t 0x18) v s

/-- COMP_L_WRITE (R244). -/
def execCompLWrite (id : Id) (t : Fin 32) (slot : Fin 4) (v : Word) (s : State) : Out :=
  writeCmd id (aSlot t slot + 4) v s

/-- CAP_L_READ (R246). -/
def execCapLRead (id : Id) (t : Fin 32) (slot : Fin 4) (s : State) : Out := readCmd id (aSlot t slot + 0x14) s

/-- CAP_H_READ (R246). -/
def execCapHRead (id : Id) (t : Fin 32) (slot : Fin 4) (s : State) : Out := readCmd id (aSlot t slot + 0x18) s

/-- TB_RATE_WRITE (R232). -/
def execTbRateWrite (id : Id) (v : Word) (s : State) : Out := writeCmd id 0x50002020 v s

/-- TB_STEPL_WRITE (R233). -/
def execTbSteplWrite (id : Id) (v : Word) (s : State) : Out := writeCmd id 0x50002024 v s

/-- TB_CTL_WRITE (R235). -/
def execTbCtlWrite (id : Id) (v : Word) (s : State) : Out := writeCmd id 0x50002010 v s

/-- TB_NOWL_READ (R236). -/
def execTbNowlRead (id : Id) (s : State) : Out := readCmd id 0x50002018 s

/-! ### Pads and converter ports (R259, R265, R267, R271, R272, R275, R280 to R284) -/

/-- PAD_STL_READ (R271). -/
def execPadStlRead (id : Id) (pad : Fin 128) (s : State) : Out := readCmd id (0x50020010 + 0x20 * pad) s

/-- A write of PAD_CTL (Table 10.3). -/
def padCtlCmd (id : Id) (pad : Fin 128) (v : Word) (s : State) : Out := writeCmd id (0x50020008 + 0x20 * pad) v s

/-- PAD_STAMP (R272). -/
def execPadStamp (id : Id) (pad : Fin 128) (s : State) : Out := padCtlCmd id pad 16 s

/-- QFLUSH (R265). -/
def execQflush (id : Id) (pad : Fin 128) (s : State) : Out := padCtlCmd id pad 8 s

/-- PAD_RELEASE (R275). -/
def execPadRelease (id : Id) (pad : Fin 128) (s : State) : Out := padCtlCmd id pad 4 s

/-- PAD_HOLD (R275). -/
def execPadHold (id : Id) (pad : Fin 128) (s : State) : Out := padCtlCmd id pad 2 s

/-- PAD_SFORCE (R275). -/
def execPadSforce (id : Id) (pad : Fin 128) (s : State) : Out := padCtlCmd id pad 1 s

/-- PAD_CFG_WRITE (R259). -/
def execPadCfgWrite (id : Id) (pad : Fin 128) (v : Word) (s : State) : Out := writeCmd id (aPadCfg pad) v s

/-- PAD_FPU_WRITE (R267). -/
def execPadFpuWrite (id : Id) (u : Fin 64) (v : Word) (s : State) : Out := writeCmd id (aFpu u) v s

/-- CVT_SCHEDL_WRITE (R280). -/
def execCvtSchedlWrite (id : Id) (port : Fin 8) (v : Word) (s : State) : Out := writeCmd id (aCvt port 0xC) v s

/-- CVT_CFG_WRITE (R281). -/
def execCvtCfgWrite (id : Id) (port : Fin 8) (v : Word) (s : State) : Out := writeCmd id (aCvt port 0) v s

/-- CVT_RDATA_READ (R284). -/
def execCvtRdataRead (id : Id) (port : Fin 8) (s : State) : Out := readCmd id (aCvt port 0x1C) s

/-- CVT_LASTL_READ (R283). -/
def execCvtLastlRead (id : Id) (port : Fin 8) (s : State) : Out := readCmd id (aCvt port 0x14) s

/-! ### Point processing and the Shuttle (R307, R309, R310, R317, R318) -/

/-- SCN_FLIPL_WRITE (R309). -/
def execScnFliplWrite (id : Id) (v : Word) (s : State) : Out := writeCmd id 0x500F5044 v s

/-- FLIP_CANCEL (R310). -/
def execFlipCancel (id : Id) (s : State) : Out := actCmd id 0x500F504C 0x20000000 s

/-- SCN_CNTCLR (R307). -/
def execScnCntclr (id : Id) (s : State) : Out := actCmd id 0x500F5000 2 s

/-- SH_GO (R317). -/
def execShGo (id : Id) (c : Fin 32) (s : State) : Out := writeCmd id (aSh c 0) 1 s

/-- SH_STOP (R318). -/
def execShStop (id : Id) (c : Fin 32) (s : State) : Out := writeCmd id (aSh c 0) 2 s

/-- SH_RST (R318). -/
def execShRst (id : Id) (c : Fin 32) (s : State) : Out := writeCmd id (aSh c 0) 4 s

/-! ### The chain and the Shackle unit (R350 to R352, R397, R400) -/

/-- CH_EVSEND (R350). -/
def execChEvsend (id : Id) (v : Word) (s : State) : Out := writeCmd id 0x50050040 v s

/-- CH_UPST_ACK (R351). -/
def execChUpstAck (id : Id) (s : State) : Out := writeCmd id 0x50050054 1 s

/-- CH_CNTCLR (R352). -/
def execChCntclr (id : Id) (s : State) : Out := actCmd id 0x50050000 8 s

/-- CH_TIL_READ (R352). -/
def execChTilRead (id : Id) (s : State) : Out := readCmd id 0x50050010 s

/-- SWREQ (R397). -/
def execSwreq (id : Id) (s : State) : Out := actCmd id 0x500F7000 2 s

/-- SWCAN (R397). -/
def execSwcan (id : Id) (s : State) : Out := actCmd id 0x500F7000 8 s

/-- SHK_CNTCLR (R400). -/
def execShkCntclr (id : Id) (s : State) : Out := actCmd id 0x500F7000 4 s

/-! ### The dictionary agent, the Keeper and updates (R378, R411, R424, R434, R435, R443) -/

/-- DFW_RSP (R378). -/
def execDfwRsp (id : Id) (v : Word) (s : State) : Out := writeCmd id 0x500F600C v s

/-- A write of KPR_CMD (Table 15.7). -/
def kprCmd (id : Id) (op arg start lenm1 : Nat) (s : State) : Out :=
  writeCmd id 0x50060008 (word (op * 2 ^ 28 + arg * 2 ^ 16 + start * 2 ^ 8 + lenm1)) s

/-- RAW_READ (R415). -/
def execRawRead (id : Id) (page : BitVec 12) (start lenm1 : Byte) (s : State) : Out :=
  kprCmd id 1 page.toNat start.toNat lenm1.toNat s

/-- RAW_WRITE (R413). -/
def execRawWrite (id : Id) (page : BitVec 12) (start lenm1 : Byte) (s : State) : Out :=
  kprCmd id 2 page.toNat start.toNat lenm1.toNat s

/-- RING_READ (R418). -/
def execRingRead (id : Id) (item : BitVec 12) (s : State) : Out := kprCmd id 3 item.toNat 0 0 s

/-- RING_WRITE (R418). -/
def execRingWrite (id : Id) (item : BitVec 12) (s : State) : Out := kprCmd id 4 item.toNat 0 0 s

/-- FORMAT (R421). -/
def execFormatNv (id : Id) (s : State) : Out := kprCmd id 5 0 0 0 s

/-- TORNCLR (R414). -/
def execTornclr (id : Id) (s : State) : Out := actCmd id 0x50060000 2 s

/-- KPR_CNTCLR (R424). -/
def execKprCntclr (id : Id) (s : State) : Out := actCmd id 0x50060000 4 s

/-- SEAL (R434). -/
def execSealImage (id : Id) (s : State) : Out := writeCmd id 0x50060200 1 s

/-- UPD_ABORT (R435). -/
def execUpdAbort (id : Id) (s : State) : Out := writeCmd id 0x50060200 2 s

/-- UPD_CNTCLR (R443). -/
def execUpdCntclr (id : Id) (s : State) : Out := writeCmd id 0x50060200 4 s

end Sys2Proof.Machine
end

