-- ==== Sys2Proof/Machine/ScanEvents.lean ====
section
/-! DEFINITION. The instants of a tick, the passes, bank flips and the Shackle's instants (R294 to R310, R336 to R343,
R388, R391). -/

namespace Sys2Proof.Machine

/-- TICK_INSTANT (R336): an activation of the tick before has acted in that tick's cycle (R439). -/
def execTickInstant (s : State) : Out := .next s.activate.tick.judged

/-- HALF_TICK (R339). -/
def execHalfTick (s : State) : Out := .next s.halfTick

/-- LOCAL_INPUT_PASS (R297). -/
def execLocalInputPass (s : State) : Out := .next (if s.running then s.runPass .localIn 0 else s)

/-- EXCHANGE_COMPLETE (R343). -/
def execExchangeComplete (s : State) : Out := .next (if s.running then s.exchangeComplete else s)

/-- CHAIN_INPUT_PASS (R305). -/
def execChainInputPass (s : State) : Out := .next (if s.running then s.runPass .chainIn chainImage else s)

/-- OUTPUT_PASS (R300). -/
def execOutputPass (s : State) : Out := .next (if s.running then s.runPass .output 0 else s)

/-- COMMIT_BUFFER_LAND (R301). -/
def execCommitBufferLand (s : State) : Out := .next (if s.running then s.bufLand else s)

/-- FLIP (R309): an activation of the same tick acts first (R439). -/
def execFlip (s : State) : Out := .next (if s.running && !s.upd.due then s.flip [] else s)

/-- HEARTBEAT_SEND (R388). -/
def execHeartbeatSend (s : State) : Out := .next (if s.running then s.heartbeatSend else s)

/-- MIRROR_APPLY (R391). -/
def execMirrorApply (s : State) : Out := .next (if s.running then s.mirrorApply else s)

/-- APPLY_DEADLINE (R391). -/
def execApplyDeadline (s : State) : Out := .next (if s.running then s.applyDeadline else s)

end Sys2Proof.Machine
end

