-- ==== Sys2Proof/Machine/SysEvents.lean ====
section
/-! DEFINITION. Resets, wakes, the governor, the always-on island and the Keeper's own events (R28, R50, R54, R59 to R68,
R374, R375, R404, R408, R419, R422, R450, R451, R457). -/

namespace Sys2Proof.Machine

/-- POWER_ON_RESET (R56): PORST_N goes low, and high again. -/
def execPowerOnReset (pins : Straps) (s : State) : Out :=
  .next (s.tapLands.porst.unitReset 0 (off := true) (por := some pins))

/-- RST_N_ASSERT (R451). -/
def execRstNAssert (s : State) : Out := .next { s with sys := { s.sys with held := true } }

/-- PIN_RESET (R451): the release of a recognised reset. While REFCLK is absent the pin reset is that of its return (R450). -/
def execPinReset (s : State) : Out :=
  let s := { s with sys := { s.sys with held := false } }
  .next (if s.sys.noRef then s else s.resetNow 1)

/-- REFCLK_LOSS (R450): every force latch is set, every island but the always-on one is held in reset. -/
def execRefclkLoss (s : State) : Out :=
  let s := (upTo 128).foldl (fun s p => s.padForce p) s
  .next { s with sys := { s.sys with noRef := true } }

/-- REFCLK_RETURN (R450). -/
def execRefclkReturn (s : State) : Out := .next (if s.sys.noRef then s.resetNow 1 else s)

/-- RECALL_COMPLETE (R404). -/
def execRecallComplete (key : Option (BitVec 256)) (s : State) : Out := .next (s.recallEnd key)

/-- GOVERNOR_ADMISSION (R59). -/
def execGovernorAdmission (s : State) : Out := .next s.admitHead

/-- ISLAND_LOCK (R61). -/
def execIslandLock (eng : Fin 16) (s : State) : Out := .next (if s.running then s.lock eng.val else s)

/-- WAKE_EVENT (R67): a latch slot wakes where its route names WAKE, the timer where it has reached 0. -/
def execWakeEvent (src : WakeSource) (s : State) : Out :=
  .next (match src with
    | .latch i => if (s.slotTasks i.val).any (·.contains 0x8C0) then s.wake src else s
    | .timer => if s.sys.tmrDue then s.wake src else s)

/-- WAKE_TIMER (R66). -/
def execWakeTimer (s : State) : Out := .next (if s.sys.tmrDue then s.wake .timer else s)

/-- AON_WRITE_DONE (R28). -/
def execAonWriteDone (s : State) : Out := .next s.aonDone

/-- DICT_RESET (R375, R382): the response has left, and the write of a reload to the always-on island has completed. -/
def execDictReset (s : State) : Out :=
  .next (if s.running && s.agent.resetDue.any DrWait.over then s.resetNow 2 else s)

/-- DOZE_ENTRY_START (R374): the response has left, or 10 ms have passed since acceptance for one over the chain. -/
def execDozeEntryStart (s : State) : Out :=
  .next (match s.sys.entry, s.agent.dozeDue with
    | some ⟨m, some c⟩, some w =>
      if w.over then s.startEntry m
      else if w.src == .chain then (s.atCycle c).startEntry m
      else s
    | _, _ => s)

/-- SAVE_COMPLETE (R422). -/
def execSaveComplete (nverr : Bool) (s : State) : Out := .next (if s.running then s.saveEnd nverr else s)

/-- RING_STEP (R419). -/
def execRingStep (failures : Nat) (s : State) : Out := .next (s.ringStep failures)

/-- KEEPER_RESCAN (R408). -/
def execKeeperRescan (key : Option (BitVec 256)) (s : State) : Out := .next (s.rescan key)

/-- KEEPER_RESCAN_END (R408). -/
def execKeeperRescanEnd (s : State) : Out := .next s.rescanEnd

/-- NV_READY (R457). -/
def execNvReady (s : State) : Out := .next s.nvReadyRises

end Sys2Proof.Machine
end

