-- ==== Sys2Proof/Machine/TimerEvents.lean ====
section
/-! DEFINITION. Events of the timers, of LFCLK and of the timebase (R232, R233, R239 to R247, R251). -/

namespace Sys2Proof.Machine

/-- TIMER_STEP (R242). -/
def execTimerStep (t : Fin 32) (s : State) : Out := .next (s.timerCycle t.val)

/-- A step of the next cycle of timer `t` ends on the compare value of its armed slot `i` (R245): the slot, kept from
repeating, is no longer armed. -/
def State.willMatch (s : State) (t i : Nat) : Bool :=
  s.armedAt t i && !((s.setRegFld (aSlot t i) 3 1 0).timerCycle t).armedAt t i

/-- COMPARE_MATCH (R245): the timer's cycle in which the slot matches. -/
def execCompareMatch (t : Fin 32) (slot : Fin 4) (s : State) : Out :=
  .next (if s.willMatch t.val slot.val then s.timerCycle t.val else s)

/-- TIMER_WRAP (R239): the timer's cycle with a wrap step. -/
def execTimerWrap (t : Fin 32) (s : State) : Out :=
  let n := (s.updTmr t.val ({ · with wrap := false })).timerCycle t.val
  .next (if (n.tmr t.val).wrap then n else s)

/-- CAPTURE_PAIR_TIMEOUT (R246): at the end of the 64th fabric cycle after the pair opened. -/
def execCapturePairTimeout (t : Fin 32) (slot : Fin 4) (s : State) : Out :=
  .next (match ((s.tmr t.val).slot slot.val).pair with
    | some c => (s.atCycle (c + 65)).updSlot t.val slot.val Slot.closePair
    | none => s)

/-- LF_TICK (R251). -/
def execLfTick (s : State) : Out := .next s.lfTick

/-- The corrections of the earliest instant take effect (R232, R233); a step moves the schedule (R338). -/
def State.tbCorrection (s : State) : State :=
  match s.corrections with
  | [] => s
  | x :: xs =>
    if !s.running then s else
    let c := xs.foldl (fun n y => min n y.cyc) x.cyc
    let s := s.atCycle c
    let due := s.corrections.filter fun y => y.cyc == c
    let s := { s with corrections := s.corrections.filter fun y => y.cyc != c }
    let s := (due.foldl State.applyCorrection s).restamp
    if due.any (·.step.isSome) then s.stepSched else s

/-- TB_CORRECTION (R232). -/
def execTbCorrection (s : State) : Out := .next s.tbCorrection

end Sys2Proof.Machine
end

