-- ==== Sys2Proof/Machine/Dispatch.lean ====
section
/-! DEFINITION. The dispatch: one arm for each command, each a direct call of its meaning. -/

namespace Sys2Proof.Machine

/-- The effect of a command on everything but the queue of waiting commands. -/
def exec (i : Instr) (s : State) : Host.Outcome State Fault Refusal :=
  match i with
  | .add b rd ra x => Sys2Proof.Machine.execAdd b rd ra x s
  | .sub b rd ra x => Sys2Proof.Machine.execSub b rd ra x s
  | .andOp b rd ra x => Sys2Proof.Machine.execAnd b rd ra x s
  | .orOp b rd ra x => Sys2Proof.Machine.execOr b rd ra x s
  | .xorOp b rd ra x => Sys2Proof.Machine.execXor b rd ra x s
  | .shl b rd ra x => Sys2Proof.Machine.execShl b rd ra x s
  | .shr b rd ra x => Sys2Proof.Machine.execShr b rd ra x s
  | .sar b rd ra x => Sys2Proof.Machine.execSar b rd ra x s
  | .rot b rd ra x => Sys2Proof.Machine.execRot b rd ra x s
  | .cmp b ra x => Sys2Proof.Machine.execCmp b ra x s
  | .mov b rd x => Sys2Proof.Machine.execMov b rd x s
  | .movh b rd imm => Sys2Proof.Machine.execMovh b rd imm s
  | .mul b rd ra rb => Sys2Proof.Machine.execMul b rd ra rb s
  | .mulh b rd ra rb => Sys2Proof.Machine.execMulh b rd ra rb s
  | .divOp b rd ra rb cut => Sys2Proof.Machine.execDiv b rd ra rb cut s
  | .divu b rd ra rb cut => Sys2Proof.Machine.execDivu b rd ra rb cut s
  | .remOp b rd ra rb cut => Sys2Proof.Machine.execRem b rd ra rb cut s
  | .remu b rd ra rb cut => Sys2Proof.Machine.execRemu b rd ra rb cut s
  | .ldw b rd ra imm => Sys2Proof.Machine.execLdw b rd ra imm s
  | .ldh b rd ra imm => Sys2Proof.Machine.execLdh b rd ra imm s
  | .ldhu b rd ra imm => Sys2Proof.Machine.execLdhu b rd ra imm s
  | .ldb b rd ra imm => Sys2Proof.Machine.execLdb b rd ra imm s
  | .ldbu b rd ra imm => Sys2Proof.Machine.execLdbu b rd ra imm s
  | .stw b rd ra imm => Sys2Proof.Machine.execStw b rd ra imm s
  | .sth b rd ra imm => Sys2Proof.Machine.execSth b rd ra imm s
  | .stb b rd ra imm => Sys2Proof.Machine.execStb b rd ra imm s
  | .fldW b rd ra imm => Sys2Proof.Machine.execFldW b rd ra imm s
  | .fldH b rd ra imm => Sys2Proof.Machine.execFldH b rd ra imm s
  | .fldHu b rd ra imm => Sys2Proof.Machine.execFldHu b rd ra imm s
  | .fldB b rd ra imm => Sys2Proof.Machine.execFldB b rd ra imm s
  | .fldBu b rd ra imm => Sys2Proof.Machine.execFldBu b rd ra imm s
  | .fstW b rd ra imm => Sys2Proof.Machine.execFstW b rd ra imm s
  | .fstH b rd ra imm => Sys2Proof.Machine.execFstH b rd ra imm s
  | .fstB b rd ra imm => Sys2Proof.Machine.execFstB b rd ra imm s
  | .fbt b rd ra off bit => Sys2Proof.Machine.execFbt b rd ra off bit s
  | .fbs b rd ra off bit => Sys2Proof.Machine.execFbs b rd ra off bit s
  | .fbc b rd ra off bit => Sys2Proof.Machine.execFbc b rd ra off bit s
  | .fbw b rd rb ra off bit => Sys2Proof.Machine.execFbw b rd rb ra off bit s
  | .bCond b cond off => Sys2Proof.Machine.execBCond b cond off s
  | .br b off => Sys2Proof.Machine.execB b off s
  | .bl b off => Sys2Proof.Machine.execBl b off s
  | .jr b ra => Sys2Proof.Machine.execJr b ra s
  | .jrL b ra => Sys2Proof.Machine.execJrL b ra s
  | .ret b => Sys2Proof.Machine.execRet b s
  | .tset b rd ra sel => Sys2Proof.Machine.execTset b rd ra sel s
  | .tget b rd ra sel => Sys2Proof.Machine.execTget b rd ra sel s
  | .tgo b ra => Sys2Proof.Machine.execTgo b ra s
  | .tstop b => Sys2Proof.Machine.execTstop b s
  | .trst b ra => Sys2Proof.Machine.execTrst b ra s
  | .yield b => Sys2Proof.Machine.execYield b s
  | .prio b n => Sys2Proof.Machine.execPrio b n s
  | .sig b n => Sys2Proof.Machine.execSig b n s
  | .waite b rd => Sys2Proof.Machine.execWaite b rd s
  | .arm b mask => Sys2Proof.Machine.execArm b mask s
  | .lock b rd ra imm => Sys2Proof.Machine.execLock b rd ra imm s
  | .ulock b ra imm => Sys2Proof.Machine.execUlock b ra imm s
  | .waitl b ra imm => Sys2Proof.Machine.execWaitl b ra imm s
  | .mput b rd ch w => Sys2Proof.Machine.execMput b rd ch w s
  | .mget b rd ch w => Sys2Proof.Machine.execMget b rd ch w s
  | .pset b pad level rb => Sys2Proof.Machine.execPset b pad level rb s
  | .pcap b rd pad => Sys2Proof.Machine.execPcap b rd pad s
  | .trapOp b n => Sys2Proof.Machine.execTrap b n s
  | .rfi b => Sys2Proof.Machine.execRfi b s
  | .syncOp b => Sys2Proof.Machine.execSync b s
  | .nop b word => Sys2Proof.Machine.execNop b word s
  | .farReply eng thr n => Sys2Proof.Machine.execFarReply eng thr n s
  | .farErrorReply eng thr n => Sys2Proof.Machine.execFarErrorReply eng thr n s
  | .registerWrite id addr value => Sys2Proof.Machine.execRegisterWrite id addr value s
  | .interruptEntry eng thr => Sys2Proof.Machine.execInterruptEntry eng thr s
  | .wdog eng thr => Sys2Proof.Machine.execWdog eng thr s
  | .eventDelivery eng thr k => Sys2Proof.Machine.execEventDelivery eng thr k s
  | .consumeNote eng thr => Sys2Proof.Machine.execConsumeNote eng thr s
  | .modeRequest id value => Sys2Proof.Machine.execModeRequest id value s
  | .softReset id value => Sys2Proof.Machine.execSoftReset id value s
  | .powerOnReset pins => Sys2Proof.Machine.execPowerOnReset pins s
  | .recallComplete key => Sys2Proof.Machine.execRecallComplete key s
  | .sysEngpwrWrite id value => Sys2Proof.Machine.execSysEngpwrWrite id value s
  | .sysEngstartWrite id value => Sys2Proof.Machine.execSysEngstartWrite id value s
  | .islandLock eng => Sys2Proof.Machine.execIslandLock eng s
  | .wakeEvent src => Sys2Proof.Machine.execWakeEvent src s
  | .engineReset id eng value => Sys2Proof.Machine.execEngineReset id eng value s
  | .engWhctlCommit id eng value => Sys2Proof.Machine.execEngWhctlCommit id eng value s
  | .wheelSwitch eng => Sys2Proof.Machine.execWheelSwitch eng s
  | .trpRel id eng value => Sys2Proof.Machine.execTrpRel id eng value s
  | .dbgFreeze id value => Sys2Proof.Machine.execDbgFreeze id value s
  | .dbgCtxdataAccess id wr => Sys2Proof.Machine.execDbgCtxdataAccess id wr s
  | .dbgMdataAccess id wr => Sys2Proof.Machine.execDbgMdataAccess id wr s
  | .dbgHalt id eng value => Sys2Proof.Machine.execDbgHalt id eng value s
  | .dbgRun id eng value => Sys2Proof.Machine.execDbgRun id eng value s
  | .dbgStep id eng value => Sys2Proof.Machine.execDbgStep id eng value s
  | .scrubStep m => Sys2Proof.Machine.execScrubStep m s
  | .clrcnt id value => Sys2Proof.Machine.execClrcnt id value s
  | .eccInjArm id value => Sys2Proof.Machine.execEccInjArm id value s
  | .localMergeTimeout eng => Sys2Proof.Machine.execLocalMergeTimeout eng s
  | .farMergeTimeout eng => Sys2Proof.Machine.execFarMergeTimeout eng s
  | .lreqAcquire id woff => Sys2Proof.Machine.execLreqAcquire id woff s
  | .lreqRelease id woff => Sys2Proof.Machine.execLreqRelease id woff s
  | .lreqClear id woff => Sys2Proof.Machine.execLreqClear id woff s
  | .tumLqry id woff => Sys2Proof.Machine.execTumLqry id woff s
  | .bclrall id => Sys2Proof.Machine.execBclrall id s
  | .tumCntclr id => Sys2Proof.Machine.execTumCntclr id s
  | .mbW0Write id ch value => Sys2Proof.Machine.execMbW0Write id ch value s
  | .mbW1Write id ch value => Sys2Proof.Machine.execMbW1Write id ch value s
  | .mbW0Read id ch => Sys2Proof.Machine.execMbW0Read id ch s
  | .mbW1Read id ch => Sys2Proof.Machine.execMbW1Read id ch s
  | .raiseEvent ch stamp => Sys2Proof.Machine.execRaiseEvent ch stamp s
  | .hfRaccWr id => Sys2Proof.Machine.execHfRaccWr id s
  | .hfRaccRd id => Sys2Proof.Machine.execHfRaccRd id s
  | .hfCommit id => Sys2Proof.Machine.execHfCommit id s
  | .hfCntclr id => Sys2Proof.Machine.execHfCntclr id s
  | .hfRaise id j value => Sys2Proof.Machine.execHfRaise id j value s
  | .hfGrpenWrite id j value => Sys2Proof.Machine.execHfGrpenWrite id j value s
  | .latchRouteFire slot => Sys2Proof.Machine.execLatchRouteFire slot s
  | .timerStep t => Sys2Proof.Machine.execTimerStep t s
  | .compareMatch t slot => Sys2Proof.Machine.execCompareMatch t slot s
  | .timerWrap t => Sys2Proof.Machine.execTimerWrap t s
  | .tstart id value => Sys2Proof.Machine.execTstart id value s
  | .tmrstop id value => Sys2Proof.Machine.execTmrstop id value s
  | .tmrCntlWrite id t value => Sys2Proof.Machine.execTmrCntlWrite id t value s
  | .tmrCntlRead id t => Sys2Proof.Machine.execTmrCntlRead id t s
  | .tmrToplWrite id t value => Sys2Proof.Machine.execTmrToplWrite id t value s
  | .compLWrite id t slot value => Sys2Proof.Machine.execCompLWrite id t slot value s
  | .capLRead id t slot => Sys2Proof.Machine.execCapLRead id t slot s
  | .capHRead id t slot => Sys2Proof.Machine.execCapHRead id t slot s
  | .capturePairTimeout t slot => Sys2Proof.Machine.execCapturePairTimeout t slot s
  | .tbRateWrite id value => Sys2Proof.Machine.execTbRateWrite id value s
  | .tbSteplWrite id value => Sys2Proof.Machine.execTbSteplWrite id value s
  | .tbCtlWrite id value => Sys2Proof.Machine.execTbCtlWrite id value s
  | .tbNowlRead id => Sys2Proof.Machine.execTbNowlRead id s
  | .psetLand eng => Sys2Proof.Machine.execPsetLand eng s
  | .edgePlace pad => Sys2Proof.Machine.execEdgePlace pad s
  | .padEdge pad level sub => Sys2Proof.Machine.execPadEdge pad level sub s
  | .pcapLand eng => Sys2Proof.Machine.execPcapLand eng s
  | .padStlRead id pad => Sys2Proof.Machine.execPadStlRead id pad s
  | .padStamp id pad => Sys2Proof.Machine.execPadStamp id pad s
  | .qflush id pad => Sys2Proof.Machine.execQflush id pad s
  | .padRelease id pad => Sys2Proof.Machine.execPadRelease id pad s
  | .padHold id pad => Sys2Proof.Machine.execPadHold id pad s
  | .padSforce id pad => Sys2Proof.Machine.execPadSforce id pad s
  | .padCfgWrite id pad value => Sys2Proof.Machine.execPadCfgWrite id pad value s
  | .padFpuWrite id u value => Sys2Proof.Machine.execPadFpuWrite id u value s
  | .calLap us => Sys2Proof.Machine.execCalLap us s
  | .cvtSchedlWrite id port value => Sys2Proof.Machine.execCvtSchedlWrite id port value s
  | .cvtCfgWrite id port value => Sys2Proof.Machine.execCvtCfgWrite id port value s
  | .triggerPlace port => Sys2Proof.Machine.execTriggerPlace port s
  | .triggerFall port => Sys2Proof.Machine.execTriggerFall port s
  | .cvtBusyTimeout port => Sys2Proof.Machine.execCvtBusyTimeout port s
  | .sampleDelivery port sample => Sys2Proof.Machine.execSampleDelivery port sample s
  | .cvtRdataRead id port => Sys2Proof.Machine.execCvtRdataRead id port s
  | .cvtLastlRead id port => Sys2Proof.Machine.execCvtLastlRead id port s
  | .scnFliplWrite id value => Sys2Proof.Machine.execScnFliplWrite id value s
  | .flipCancel id => Sys2Proof.Machine.execFlipCancel id s
  | .scnCntclr id => Sys2Proof.Machine.execScnCntclr id s
  | .shGo id c => Sys2Proof.Machine.execShGo id c s
  | .shStop id c => Sys2Proof.Machine.execShStop id c s
  | .shRst id c => Sys2Proof.Machine.execShRst id c s
  | .shuttleDescriptor c => Sys2Proof.Machine.execShuttleDescriptor c s
  | .shuttleElement c => Sys2Proof.Machine.execShuttleElement c s
  | .shuttleDescriptorDone c => Sys2Proof.Machine.execShuttleDescriptorDone c s
  | .shuttleLockRetry c => Sys2Proof.Machine.execShuttleLockRetry c s
  | .portUp p => Sys2Proof.Machine.execPortUp p s
  | .portDown p => Sys2Proof.Machine.execPortDown p s
  | .frameForward p f => Sys2Proof.Machine.execFrameForward p f s
  | .addressFrame p f => Sys2Proof.Machine.execAddressFrame p f s
  | .dqFrame p f => Sys2Proof.Machine.execDqFrame p f s
  | .tickFrame p f => Sys2Proof.Machine.execTickFrame p f s
  | .tickRecord p f => Sys2Proof.Machine.execTickRecord p f s
  | .timeDistribution p f stamp residence => Sys2Proof.Machine.execTimeDistribution p f stamp residence s
  | .probeSend p => Sys2Proof.Machine.execProbeSend p s
  | .probeRequest p f t2 t3 => Sys2Proof.Machine.execProbeRequest p f t2 t3 s
  | .probeEcho p f t4 => Sys2Proof.Machine.execProbeEcho p f t4 s
  | .eventFrame p f => Sys2Proof.Machine.execEventFrame p f s
  | .chEvsend id value => Sys2Proof.Machine.execChEvsend id value s
  | .updateFirmwareKind p f => Sys2Proof.Machine.execUpdateFirmwareKind p f s
  | .chUpstAck id => Sys2Proof.Machine.execChUpstAck id s
  | .chCntclr id => Sys2Proof.Machine.execChCntclr id s
  | .chTilRead id => Sys2Proof.Machine.execChTilRead id s
  | .shackleFrame p f => Sys2Proof.Machine.execShackleFrame p f s
  | .swreq id => Sys2Proof.Machine.execSwreq id s
  | .swcan id => Sys2Proof.Machine.execSwcan id s
  | .shkCntclr id => Sys2Proof.Machine.execShkCntclr id s
  | .dictRead r => Sys2Proof.Machine.execDictRead r s
  | .dictWrite r data => Sys2Proof.Machine.execDictWrite r data s
  | .segmentedReadInitiate r => Sys2Proof.Machine.execSegmentedReadInitiate r s
  | .segmentedWriteInitiate r data => Sys2Proof.Machine.execSegmentedWriteInitiate r data s
  | .segment r data room => Sys2Proof.Machine.execSegment r data room s
  | .abortTransfer r => Sys2Proof.Machine.execAbortTransfer r s
  | .transferTimeout src tag => Sys2Proof.Machine.execTransferTimeout src tag s
  | .saveComplete nverr => Sys2Proof.Machine.execSaveComplete nverr s
  | .firmwareObjectRequest r cmd data => Sys2Proof.Machine.execFirmwareObjectRequest r cmd data s
  | .dfwRsp id value => Sys2Proof.Machine.execDfwRsp id value s
  | .lrpGo value => Sys2Proof.Machine.execLrpGo value s
  | .lrpAck value => Sys2Proof.Machine.execLrpAck value s
  | .lrpReqWrite off value => Sys2Proof.Machine.execLrpReqWrite off value s
  | .rawRead id page start lenm1 => Sys2Proof.Machine.execRawRead id page start lenm1 s
  | .rawWrite id page start lenm1 => Sys2Proof.Machine.execRawWrite id page start lenm1 s
  | .ringRead id item => Sys2Proof.Machine.execRingRead id item s
  | .ringWrite id item => Sys2Proof.Machine.execRingWrite id item s
  | .formatNv id => Sys2Proof.Machine.execFormatNv id s
  | .keeperCommandDone mismatches nverr => Sys2Proof.Machine.execKeeperCommandDone mismatches nverr s
  | .ringStep failures => Sys2Proof.Machine.execRingStep failures s
  | .tornclr id => Sys2Proof.Machine.execTornclr id s
  | .kprCntclr id => Sys2Proof.Machine.execKprCntclr id s
  | .keeperRescan key => Sys2Proof.Machine.execKeeperRescan key s
  | .updateOpen p f => Sys2Proof.Machine.execUpdateOpen p f s
  | .updateData p f => Sys2Proof.Machine.execUpdateData p f s
  | .updateClose p f => Sys2Proof.Machine.execUpdateClose p f s
  | .sealImage id => Sys2Proof.Machine.execSealImage id s
  | .sealDone nverr => Sys2Proof.Machine.execSealDone nverr s
  | .updAbort id => Sys2Proof.Machine.execUpdAbort id s
  | .updCntclr id => Sys2Proof.Machine.execUpdCntclr id s
  | .activationCommit nverr => Sys2Proof.Machine.execActivationCommit nverr s
  | .dbga value => Sys2Proof.Machine.execDbga value s
  | .dbgdUpdate value => Sys2Proof.Machine.execDbgdUpdate value s
  | .dbgrst value => Sys2Proof.Machine.execDbgrst value s
  | .dbgenChange level => Sys2Proof.Machine.execDbgenChange level s
  | .deadlk => Sys2Proof.Machine.execDeadlk s
  | .pinReset => Sys2Proof.Machine.execPinReset s
  | .refclkLoss => Sys2Proof.Machine.execRefclkLoss s
  | .refclkReturn => Sys2Proof.Machine.execRefclkReturn s
  | .governorAdmission => Sys2Proof.Machine.execGovernorAdmission s
  | .wakeTimer => Sys2Proof.Machine.execWakeTimer s
  | .aonWriteDone => Sys2Proof.Machine.execAonWriteDone s
  | .routeDispatch => Sys2Proof.Machine.execRouteDispatch s
  | .routeFire => Sys2Proof.Machine.execRouteFire s
  | .loopWindow => Sys2Proof.Machine.execLoopWindow s
  | .latchCommitDone => Sys2Proof.Machine.execLatchCommitDone s
  | .lfTick => Sys2Proof.Machine.execLfTick s
  | .tbCorrection => Sys2Proof.Machine.execTbCorrection s
  | .outputCommit => Sys2Proof.Machine.execOutputCommit s
  | .calSettled => Sys2Proof.Machine.execCalSettled s
  | .ownOutChange => Sys2Proof.Machine.execOwnOutChange s
  | .shackleHoldExpiry => Sys2Proof.Machine.execShackleHoldExpiry s
  | .tickInstant => Sys2Proof.Machine.execTickInstant s
  | .halfTick => Sys2Proof.Machine.execHalfTick s
  | .localInputPass => Sys2Proof.Machine.execLocalInputPass s
  | .exchangeComplete => Sys2Proof.Machine.execExchangeComplete s
  | .chainInputPass => Sys2Proof.Machine.execChainInputPass s
  | .outputPass => Sys2Proof.Machine.execOutputPass s
  | .commitBufferLand => Sys2Proof.Machine.execCommitBufferLand s
  | .flip => Sys2Proof.Machine.execFlip s
  | .syncTimeout => Sys2Proof.Machine.execSyncTimeout s
  | .ownFrameSend => Sys2Proof.Machine.execOwnFrameSend s
  | .heartbeatSend => Sys2Proof.Machine.execHeartbeatSend s
  | .mirrorApply => Sys2Proof.Machine.execMirrorApply s
  | .applyDeadline => Sys2Proof.Machine.execApplyDeadline s
  | .dictReset => Sys2Proof.Machine.execDictReset s
  | .dfwTimeout => Sys2Proof.Machine.execDfwTimeout s
  | .lrpResponse => Sys2Proof.Machine.execLrpResponse s
  | .activation => Sys2Proof.Machine.execActivation s
  | .dbgdCapture => Sys2Proof.Machine.execDbgdCapture s
  | .debugAccessDone => Sys2Proof.Machine.execDebugAccessDone s
  | .idcode => Sys2Proof.Machine.execIdcode s
  | .trstN => Sys2Proof.Machine.execTrstN s
  | .nvReady => Sys2Proof.Machine.execNvReady s
  | .dozeEntryStart => Sys2Proof.Machine.execDozeEntryStart s
  | .keeperRescanEnd => Sys2Proof.Machine.execKeeperRescanEnd s
  | .rstNAssert => Sys2Proof.Machine.execRstNAssert s

end Sys2Proof.Machine
end

