-- ==== Sys2Proof/Safety.lean ====
section
/-! DEFINITION. What counts as a safe run, and the words in which claims about the block are stated. A run is safe while
every command completes: the block goes on to a next state, and the state keeps the forms below. -/

namespace Sys2Proof

open Sys2Proof.Machine

/-- Command `c` at state `s` answers a next state, and that state satisfies `p`. -/
def After (c : Instr) (s : State) (p : State → Prop) : Prop := ∃ t, exec c s = .next t ∧ p t

/-- The step at `s` completes. -/
def Completes (s : State) : Prop := ∃ t, step s = .next t

/-- The contents of an engine image lie in its SRAM, in canonical form. -/
def imageForm (x : EngImage) : Bool := Memory.wf x.cells

/-- The tables of a stored profile, in canonical form. -/
def profileForm (p : Profile) : Bool :=
  Memory.wf p.ward && Memory.wf p.routes && p.images.all fun x => imageForm x.2

/-- Every memory that the state holds is in canonical form: the addressed memories, and the tables and images that the NV
macro and the stager hold. -/
def memoryForm (s : State) : Bool :=
  Memory.wf s.mem && (s.nv.profiles.all fun x => profileForm x.2)
    && (s.upd.extents.all fun x => imageForm x.2)
    && (s.upd.commit.all fun c => c.2.2.all fun x => imageForm x.2)

/-- The identity of the thread that a beat names (R29). -/
def Beat.id (b : Beat) : Nat := 16 * b.eng.val + b.thr.val

/-- The beat's thread executes an instruction (R73, R76, R118, R127, R129, R147): its engine runs and is in no Twin pair,
the position is the thread's, R147 selects the instruction, no divide is in progress, the fetched word is good, none of
the registers `reads` is pending, a far instruction finds fewer than 8 outstanding requests, and the instruction is not
the last of the code space. A control transfer (`transfers`) may be the last, and a divide (`divides`) may be in
progress. -/
structure Ready (b : Beat) (reads : List Dest) (far : Bool) (s : State) (transfers divides : Bool := false) : Prop where
  runs : s.engRuns b.eng.val = true
  single : s.twin b.eng.val = false
  position : s.atPosition b.eng.val b.pos.val = some b.thr.val
  boundary : (s.takePosition b.eng.val b.pos.val b.thr.val).boundary b.id = .execute
  undivided : divides = false → (s.thr b.id).div = none
  fetched : (s.thr b.id).faBad = false ∧ (s.thr b.id).faBad2 = false
  sources : ∀ d ∈ reads, (s.thr b.id).pendingOn d = false
  room : far = true → (s.thr b.id).outst.length < 8
  space : transfers = false → (s.thr b.id).pc ≠ 0xFFFC

/-- No code word of any memory holds an error, none is armed to be injected, and no write has landed in this cycle (R42). -/
def Clean (s : State) : Prop :=
  s.ecc.bad = [] ∧ bit (s.reg aEccInj) 31 = false ∧ s.sameNow.writes = []

/-- Nothing that master `id`'s engine has sent is on its way (R27, R180, R213): no store waits in the engine's far merge entry, no
consume note of the thread waits, no request of the thread for the pad island. -/
def Unsent (id : Nat) (s : State) : Prop :=
  id < 256 → (s.eng (id / 16)).farMerge = none ∧ (∀ n ∈ s.hinge.notes, n.id ≠ id)
    ∧ ∀ r ∈ (s.eng (id / 16)).padReqs, r.thr ≠ id

/-- The address lies in the pad window. -/
def PadWindow (a : Nat) : Prop := a / 0x10000 = 0x5002

/-- Nothing that R37 to R42, R52, R195 and R206 compare within one cycle has happened yet in this fabric cycle. -/
def Fresh (s : State) : Prop := s.sameNow = { cyc := s.cycle, kpr := s.sameNow.kpr, aon := s.sameNow.aon }

/-- No stamp is on its way into a stamp FIFO (R269, R272). -/
def Still (s : State) : Prop := ∀ p, (s.pad p).entering = []

/-- Memory reads at every address as before. -/
def SameMemory (s t : State) : Prop := ∀ a, readByte t.mem a = readByte s.mem a

/-- Memory reads as before outside the `n` addresses from `lo` on. -/
def MemoryOutside (lo n : Nat) (s t : State) : Prop :=
  ∀ a, a < lo ∨ lo + n ≤ a → readByte t.mem a = readByte s.mem a

/-- Nothing outside the engines, the threads and memory changes: no register, event, timer, pad, converter port, lock,
mail channel, mode, chain, Shuttle, scan, Shackle, NV, dictionary, port or update state. -/
structure SameUnits (s t : State) : Prop where
  regs : t.regs = s.regs
  ecc : t.ecc = s.ecc
  hinge : t.hinge = s.hinge
  timers : t.timers = s.timers
  pads : t.pads = s.pads
  cvts : t.cvts = s.cvts
  tum : t.tum = s.tum
  sys : t.sys = s.sys
  chain : t.chain = s.chain
  chans : t.chans = s.chans
  shTurn : t.shTurn = s.shTurn
  scan : t.scan = s.scan
  shk : t.shk = s.shk
  nv : t.nv = s.nv
  kpr : t.kpr = s.kpr
  agent : t.agent = s.agent
  lrp : t.lrp = s.lrp
  upd : t.upd = s.upd
  tap : t.tap = s.tap
  pending : t.pending = s.pending

/-- The byte at local address `a` of engine `k` as its loads see it (R178): a lane of the merge entry, else memory. -/
def localByte (s : State) (k a : Nat) : Byte :=
  match (s.eng k).localMerge with
  | some m => if m.addr = a - a % 4 then (tabFind m.lanes (a % 4)).getD (readByte s.mem (engKey k a))
    else readByte s.mem (engKey k a)
  | none => readByte s.mem (engKey k a)

/-- The `n` little-endian bytes from local address `a` on as loads of engine `k` see them. -/
def localNat (s : State) (k a : Nat) : Nat → Nat
  | 0 => 0
  | n + 1 => (localByte s k a).toNat + 256 * localNat s k (a + 1) n

/-- The byte at far address `a` of image memory once engine `k` has flushed its far merge entry (R179, R180). -/
def imageByte (s : State) (k a : Nat) : Byte :=
  match (s.eng k).farMerge with
  | some m => if m.addr = a - a % 8 then (tabFind m.lanes (a % 8)).getD (readByte s.mem a) else readByte s.mem a
  | none => readByte s.mem a

/-- The `n` little-endian bytes from far address `a` on, once engine `k` has flushed. -/
def imageNat (s : State) (k a : Nat) : Nat → Nat
  | 0 => 0
  | n + 1 => (imageByte s k a).toNat + 256 * imageNat s k (a + 1) n

/-- A local merge entry as R176 makes it: a word of data SRAM, lanes 0 to 3. -/
def localForm (m : LocalMerge) : Bool :=
  decide (m.addr % 4 = 0) && decide (0x10000 ≤ m.addr) && decide (m.addr < 0x14000) && tabSorted m.lanes
    && m.lanes.all fun l => decide (l.1 < 4)

/-- A far merge entry of engine `k` as R179 makes it: a doubleword of image memory, lanes 0 to 7, a thread of the
engine. -/
def farForm (k : Nat) (m : FarMerge) : Bool :=
  decide (m.addr % 8 = 0) && inImage m.addr && tabSorted m.lanes && (m.lanes.all fun l => decide (l.1 < 8))
    && decide (m.owner / 16 = k)

/-- Both merge entries of every engine have their form. -/
def mergeForm (s : State) : Bool :=
  s.engines.all fun e => e.2.localMerge.all localForm && e.2.farMerge.all (farForm e.1)

/-- Every thread but `id` is unchanged. -/
def OtherThreads (id : Nat) (s t : State) : Prop := ∀ j, j ≠ id → t.thr j = s.thr j

/-- The frame of an instruction that only changes its own thread and stores nothing. -/
structure OnlyThread (id : Nat) (s t : State) : Prop where
  memory : SameMemory s t
  others : OtherThreads id s t
  units : SameUnits s t

/-- The working registers of thread `id` but those of `ws` are unchanged. -/
def OtherRegs (id : Nat) (ws : List Reg) (s t : State) : Prop :=
  ∀ r, r ∉ ws → (t.thr id).rd r = (s.thr id).rd r

/-- Thread `id` goes on with the word after its instruction (R118). -/
def GoesOn (id : Nat) (s t : State) : Prop := (t.thr id).pc = pcOf ((s.thr id).pc + 4)

/-- `st'` is the status `st` with N and Z of the result `r` and C and V given; every other bit stays (R103). -/
def NewFlags (st st' r : Word) (c v : Bool) : Prop :=
  st'.getLsbD 31 = r.getLsbD 31 ∧ st'.getLsbD 30 = (r == 0) ∧ st'.getLsbD 29 = c ∧ st'.getLsbD 28 = v
    ∧ ∀ i, i < 28 → st'.getLsbD i = st.getLsbD i

/-- The signed sum or difference `z` does not fit a word (R109). -/
def overflows (z : Int) : Bool := decide (z < -2 ^ 31) || decide (2 ^ 31 ≤ z)

/-- No unit reset is asked for and no entry to Doze or Dormant is in progress. -/
def Settled (s : State) : Prop := s.sys.resetReq = false ∧ s.sys.entry = none

/-- A far instruction of the beat's thread finds nothing of its engine on the way (R27, R179): no store in the far merge
entry, no consume note of the thread; and no pass of point processing runs that it would extend (R303). -/
def FarIdle (b : Beat) (s : State) : Prop :=
  (s.eng b.eng.val).farMerge = none ∧ (∀ n ∈ s.hinge.notes, n.id ≠ b.id) ∧ s.scan.run = none

/-- The instruction of thread `id` has issued one far request to an island (R126 to R129), with the destinations and
values `dests`: pending deliveries to the same destinations are cancelled, and the request is the latest of the
outstanding ones. -/
def Issued (id : Nat) (isle : Isle) (phase : FarPhase) (dests : List (Dest × Word)) (s s' : State) : Prop :=
  let t := dests.foldl (fun t d => t.cancel d.1) (s.thr id)
  (s'.thr id).outst = t.outst ++ [⟨(s.thr id).pc, phase, dests, none, isle, t.nextOrd⟩]

/-- The instruction of thread `id` has issued one far request that its target has refused with the code and the INFO of an error
reply (R143); the destinations stay pending until that reply. -/
def IssuedErr (id : Nat) (isle : Isle) (dests : List (Dest × Word)) (c : Trap) (info : Word) (s s' : State) : Prop :=
  let t := dests.foldl (fun t d => t.cancel d.1) (s.thr id)
  (s'.thr id).outst = t.outst ++ [⟨(s.thr id).pc, .done, dests, some (c, info), isle, t.nextOrd⟩]

/-- The instruction has written no register and no flag of its thread, which goes on with the next word. -/
def NoResult (id : Nat) (s s' : State) : Prop :=
  OtherRegs id [] s s' ∧ (s'.thr id).status = (s.thr id).status ∧ GoesOn id s s'

/-- Channel `ch` can be raised afresh now: the fabric runs, the channel is not stopped on its loop limit, and this cycle
holds no raise of it (R211, R224). -/
def Raisable (ch : Nat) (s : State) : Prop :=
  s.running = true ∧ bit (s.reg (aHfCh ch)) 31 = false ∧ ∀ r ∈ s.hinge.raised, ¬ (r.cyc = s.cycle ∧ r.ch = ch)

/-- Channel `ch` has been raised with the chain time `ts`, behind the raises of `s`; the rest of the fabric stands. -/
def Raised (ch : Nat) (ts : Time64) (s s' : State) : Prop :=
  s'.hinge = { s.hinge with raised := s.hinge.raised ++ [⟨s.cycle, ch, ts, false, false⟩] }

/-- After an instruction of thread `id` that writes `v` to `rd` and `st` to the status register, and nothing else. -/
structure Writes (id : Nat) (rd : Reg) (v st : Word) (s t : State) : Prop where
  result : (t.thr id).rd rd = v
  status : (t.thr id).status = st
  pc : GoesOn id s t
  regs : OtherRegs id [rd] s t
  frame : OnlyThread id s t

/-! ### The parts of the state, for frames -/

/-- One part for each field of the state but `same` and `clamps`: the model's own records, of what one cycle has seen, which no command
reads in a later cycle (log entry 83), and of the clamps counted, of which only the changes are read (Table 13.8). -/
inductive Part where
  | cycle | tb | corrections | regs | mem | ecc | threads | engines | hinge | timers | pads | cvts | tum | sys
  | nowh | lasth | chain | chans | shTurn | scan | shk | nv | kpr | agent | lrp | upd | tap | pins | reply | free | pending
  deriving DecidableEq, Repr

/-- The part is the same in both states. -/
def Part.same (s t : State) : Part → Prop
  | .cycle => t.cycle = s.cycle
  | .tb => t.tb = s.tb
  | .corrections => t.corrections = s.corrections
  | .regs => t.regs = s.regs
  | .mem => t.mem = s.mem
  | .ecc => t.ecc = s.ecc
  | .threads => t.threads = s.threads
  | .engines => t.engines = s.engines
  | .hinge => t.hinge = s.hinge
  | .timers => t.timers = s.timers
  | .pads => t.pads = s.pads
  | .cvts => t.cvts = s.cvts
  | .tum => t.tum = s.tum
  | .sys => t.sys = s.sys
  | .nowh => t.nowh = s.nowh
  | .lasth => t.lasth = s.lasth
  | .chain => t.chain = s.chain
  | .chans => t.chans = s.chans
  | .shTurn => t.shTurn = s.shTurn
  | .scan => t.scan = s.scan
  | .shk => t.shk = s.shk
  | .nv => t.nv = s.nv
  | .kpr => t.kpr = s.kpr
  | .agent => t.agent = s.agent
  | .lrp => t.lrp = s.lrp
  | .upd => t.upd = s.upd
  | .tap => t.tap = s.tap
  | .pins => t.pins = s.pins
  | .reply => t.reply = s.reply
  | .free => t.free = s.free
  | .pending => t.pending = s.pending

/-- Nothing changes but the parts `ps`. -/
def OnlyIn (ps : List Part) (s t : State) : Prop := ∀ p, p ∉ ps → p.same s t

/-- Every register but those at the addresses `as` holds its word. -/
def RegsBut (as : List Nat) (s t : State) : Prop := ∀ a, a ∉ as → t.reg a = s.reg a

/-- The bits of the register at `a` outside the `n` from `lo` on are unchanged. -/
def BitsBut (a lo n : Nat) (s t : State) : Prop := ∀ i, i < lo ∨ lo + n ≤ i → bit (t.reg a) i = bit (s.reg a) i

/-- The `n`-bit field at `lo` of the register at `a` becomes `v`; its other bits stay. -/
def FieldSet (a lo n v : Nat) (s t : State) : Prop := fld (t.reg a) lo n = v ∧ BitsBut a lo n s t

/-- The counter field counts up by `k` and saturates. -/
def Counted (a lo n k : Nat) (s t : State) : Prop :=
  FieldSet a lo n (min (2 ^ n - 1) (fld (s.reg a) lo n + k)) s t

/-- Bit `i` of the register at `a` is set; its other bits stay. -/
def Flagged (a i : Nat) (s t : State) : Prop := bit (t.reg a) i = true ∧ BitsBut a i 1 s t

/-- Channel `ch` has been raised now with the chain time of this cycle (Table 8.3), behind the raises of `s`. -/
def RaisedNow (ch : Nat) (s t : State) : Prop := Raised ch (periods s.now) s t

/-- A write of `v` to the register at `a` by master `id` reaches it (R13, R24, R28, R30): the fabric runs, no reset or entry
is in progress, the master issues requests and may write it, nothing of its own is on the way, its island is on, and nothing holds the
register. -/
structure Reaches (id : Id) (a : Nat) (v : Word) (s : State) : Prop where
  runs : s.running = true
  issues : s.oddTwin id.toNat = false
  still : PadWindow a → Still s
  alone : Unsent id.toNat s
  settled : Settled s
  window : inRegs a = true
  may : mayWrite id.toNat a v = true
  island : s.gated a = false
  free : s.writeHeld a = false

/-- The write reaches the register as the first access of its cycle (R37 to R42), so that it acts as it stands. -/
structure Lands (id : Id) (a : Nat) (v : Word) (s : State) : Prop extends Reaches id a v s where
  first : Fresh s
  keeper : isKpr a = true → s.sameNow.kpr.sets = [] ∧ s.sameNow.kpr.counts = []

/-- A read of the register at `a` by master `id` is answered (R24, R30). -/
structure Answers (id : Id) (a : Nat) (s : State) : Prop where
  runs : s.running = true
  issues : s.oddTwin id.toNat = false
  still : PadWindow a → Still s
  alone : Unsent id.toNat s
  window : inRegs a = true
  island : s.gated a = false

/-- Every thread but those of `ids` is unchanged. -/
def ThreadsBut (ids : List Nat) (s t : State) : Prop := ∀ j, j ∉ ids → t.thr j = s.thr j

/-- Every engine but those of `ks` is unchanged. -/
def EnginesBut (ks : List Nat) (s t : State) : Prop := ∀ j, j ∉ ks → t.eng j = s.eng j

/-- Every timer, every pad, every converter port but the named one is unchanged. -/
def TimersBut (n : Nat) (s t : State) : Prop := ∀ j, j ≠ n → t.tmr j = s.tmr j
def PadsBut (n : Nat) (s t : State) : Prop := ∀ j, j ≠ n → t.pad j = s.pad j
def PortsBut (n : Nat) (s t : State) : Prop := ∀ j, j ≠ n → t.cvt j = s.cvt j

/-- Registers whose writes do nothing beside the common field rules and no clamp: SYS_XFLAG, SYS_SAFECAUSE, DBG_CTXSEL,
HF_RIDX, HF_RD0 to 3, HF_LFIRE, HF_COINCj, HF_OVRj, TMR_PRESC, TMR_LFINC, TB_STAT, TB_LFINC, PAD_STAT, CVT_STAT,
CVT_TOFF, CVT_SCHEDH, DBG_BP0 to 3. -/
def plainRegs : List Nat :=
  [0x500F0020, 0x500F0110, 0x500F3004, 0x50010008, 0x50010010, 0x50010014, 0x50010018, 0x5001001C, 0x5001003C,
   0x50002014, 0x5000202C]
  ++ (upTo 40).flatMap (fun j => [0x50010400 + 4 * j, 0x50010500 + 4 * j])
  ++ (upTo 32).flatMap (fun t => [aTmr t 8, aTmr t 12]) ++ (upTo 128).map aPadStat
  ++ (upTo 8).flatMap (fun p => [aCvt p 4, aCvt p 8, aCvt p 0x10])
  ++ (upTo 16).flatMap fun k => (upTo 4).map (aBp k)

/-! ### Traps -/

/-- Thread `id` of an engine in no pair has entered the vector of a trap of the index `code` (R149 to R151, Table 5.2): the frame of
`savedPc`, status, w0 to w3 and lk below sp, INTRAP and the index in the status, w0 to w2 as given, and the trap counted as
vectored (R160). -/
structure Vectored (id code : Nat) (info savedPc : Word) (s s' : State) : Prop where
  pc : (s'.thr id).pc = pcOf ((s.thr id).vbase + BitVec.ofNat 32 (4 * code))
  status : (s'.thr id).status = setFld (setBit (s.thr id).status 22 true) 16 6 code
  sp : (s'.thr id).rd 14 = (s.thr id).rd 14 - 32
  told : (s'.thr id).rd 0 = BitVec.ofNat 32 code ∧ (s'.thr id).rd 1 = info ∧ (s'.thr id).rd 2 = (s.thr id).pc
  regs : OtherRegs id [0, 1, 2, 14] s s'
  frame : [savedPc, (s.thr id).status, (s.thr id).rd 0, (s.thr id).rd 1, (s.thr id).rd 2, (s.thr id).rd 3, (s.thr id).rd 15]
    = (upTo 7).map fun i => BitVec.ofNat 32 (localNat s' (id / 16) (((s.thr id).rd 14 - 32).toNat + 4 * i) 4)
  local_ : ∀ x, x < 0x14000 → x < ((s.thr id).rd 14 - 32).toNat ∨ ((s.thr id).rd 14 - 32).toNat + 28 ≤ x →
    localByte s' (id / 16) x = localByte s (id / 16) x
  memory : MemoryOutside (engKey (id / 16) 0x10000) 0x4000 s s'
  others : OtherThreads id s s'
  count : Counted (aTrp (id / 16) 0x14) 16 16 1 s s'
  rest : RegsBut [aTrp (id / 16) 0x14] s s' ∧ OnlyIn [.mem, .regs, .threads, .engines] s s'

/-- A trap that is not vectored is recorded in the block of engine `k` (R160, Table 5.7): where no record is held TRP_RECA to
TRP_RECC take it, else they stand and OVW tells of it; HELD counts. -/
structure Recorded (k id code pol : Nat) (dbl far vecf : Bool) (named info : Word) (s s' : State) : Prop where
  fresh : bit (s.reg (aTrp k 8)) 31 = false →
    bit (s'.reg (aTrp k 8)) 31 = true ∧ bit (s'.reg (aTrp k 8)) 30 = false ∧ bit (s'.reg (aTrp k 8)) 29 = dbl
    ∧ bit (s'.reg (aTrp k 8)) 28 = far ∧ bit (s'.reg (aTrp k 8)) 27 = vecf ∧ fld (s'.reg (aTrp k 8)) 25 2 = pol
    ∧ fld (s'.reg (aTrp k 8)) 16 9 = id ∧ fld (s'.reg (aTrp k 8)) 0 16 = code
    ∧ s'.reg (aTrp k 12) = named ∧ s'.reg (aTrp k 16) = info
  stands : bit (s.reg (aTrp k 8)) 31 = true → Flagged (aTrp k 8) 30 s s' ∧ s'.reg (aTrp k 12) = s.reg (aTrp k 12)
    ∧ s'.reg (aTrp k 16) = s.reg (aTrp k 16)
  count : Counted (aTrp k 0x14) 0 16 1 s s'

/-- Thread `id` is held in a trap under the policy Hold (R157, R158): TRAPPED at `savedPc` with its context as it stands, the trap
recorded, the engine's trap event raised. -/
structure HeldTrap (id code : Nat) (dbl far : Bool) (named info savedPc : Word) (s s' : State) : Prop where
  state : (s'.thr id).st = .trapped ∧ (s'.thr id).pc = savedPc ∧ (s'.thr id).status = (s.thr id).status
  regs : OtherRegs id [] s s'
  others : OtherThreads id s s'
  record : Recorded (id / 16) id code 1 dbl far false named info s s'
  event : Raisable (672 + id / 16) s → RaisedNow (672 + id / 16) s s'
    ∧ RegsBut ([8, 12, 16, 0x14].map (aTrp (id / 16))) s s' ∧ OnlyIn [.regs, .threads, .engines, .hinge] s s'
  holder : ∀ n, (s'.eng (id / 16)).holder = some n → 16 * (id / 16) + n.val ≠ id

/-- The instruction of thread `id` traps at issue with the code of `c` and the INFO `info`, and does nothing else (R142): it is
vectored where its policy is Vector and the frame fits, and held where its policy is Hold or a trap is in progress. -/
structure TrapsAt (id : Nat) (c : Trap) (info : Word) (s s' : State) : Prop where
  vectored : (s.thr id).inTrap = false → fld (s.reg (aTrp (id / 16) 0)) c.polBit 2 = 0 → s.frameFits id = true →
    mergeForm s = true → Vectored id c.code info (s.thr id).pc s s'
  held : fld (s.reg (aTrp (id / 16) 0)) c.polBit 2 = 1 ∨
      (s.thr id).inTrap = true ∧ fld (s.reg (aTrp (id / 16) 0)) c.polBit 2 = 0 →
    HeldTrap id c.code (s.thr id).inTrap false (s.thr id).pc info (s.thr id).pc s s'

/-- Registers outside the pad window whose read gives their word as it stands: those of `plainRegs`. -/
def wordRegs : List Nat := plainRegs.filter fun a => a / 0x10000 != 0x5002

/-! ### Requests of the dictionary -/

/-- The payload of a response (Table 12.8): the command with LAST in bit 7, tag, index, subindex, status, segment number,
data. -/
def drBytes (r : DictHeader) (cmd : Nat) (last : Bool) (status : Nat) (data : List Byte) : List Byte :=
  [BitVec.ofNat 8 (cmd + 128 * last.toNat), r.tag] ++ leBytes 2 r.index.toNat ++ [r.sub, BitVec.ofNat 8 status]
    ++ leBytes 2 r.segno.toNat ++ data

/-- The agent takes up a request of the chain as it arrives (R43, R44, R349, R355): the fabric runs in a mode other than
Recall, the strap accepts the chain, no earlier request is in service or waits, and the request was sent to this unit
alone; nothing else has happened in the cycle. -/
structure Asked (r : DictHeader) (s : State) : Prop where
  runs : s.running = true
  mode : s.sys.mode ≠ .recall
  strap : s.sys.straps.dictsrc ≠ 1
  firmware : s.agent.fw = none
  keeper : s.agent.kprReq = none
  chain : r.src = .chain
  single : r.bcast = false
  queue : s.agent.queue = [] ∧ s.lrp.busy = false ∧ s.lrp.ahead = 0
  first : Fresh s
  still : Still s

/-- The index lies in the range that firmware serves (R377). -/
def FirmwareIndex (r : DictHeader) : Prop := 0xA000 ≤ r.index.toNat ∧ r.index.toNat < 0xC000

/-- The response has joined the frames that wait for their window (R349, R354), and is counted (Table 13.8). -/
structure Answered (r : DictHeader) (cmd : Nat) (last : Bool) (status : Nat) (data : List Byte) (s s' : State) : Prop where
  frame : s'.chain = { s.chain with own := s.chain.own ++ [⟨2, 0, r.seq, drBytes r cmd last status data⟩] }
  served : s'.agent.served.toNat = min 0xFFFFFFFF (s.agent.served.toNat + 1)
  errors : s'.agent.errors.toNat = min 0xFFFFFFFF (s.agent.errors.toNat + (decide (16 ≤ status)).toNat)

/-! ### Modes -/

/-- The unit has gone to mode `m` (R50, R53): SYS_MODE shows the mode before and the change, the event is raised. -/
structure Entered (m : Mode) (s s' : State) : Prop where
  mode : s'.sys.mode = m
  prev : fld (s'.reg aMode) 4 3 = s.sys.mode.code
  changed : bit (s'.reg aMode) 8 = true
  event : ∃ q ∈ s'.hinge.raised, q.ch = 656 ∧ q.cyc = s.cycle

end Sys2Proof
end

