-- ==== Sys2Proof/Certificates/Slice0/Obligations.lean ====
section
/-! DEFINITION. The statements for the provers: what the rules of the spec say the commands and the block do. `After c s p`
says that command `c` completes at `s` and that `p` holds of the next state (Sys2Proof/Safety.lean). -/

open Sys2Proof Sys2Proof.Machine

/-! ### Arithmetic (chapter 4) -/

/-- R108, R109: ADD and SUB write the sum and the difference, and N, Z, C and V. -/
def Obligations.AddSub : Prop :=
  ∀ (b : Beat) (rd ra : Reg) (x : Operand) (s : State), Clean s → Ready b (.reg ra :: opReads x) false s →
    let t := s.thr b.id
    let u := t.rd ra
    let v := opSigned t x
    (After (.add b rd ra x) s fun s' => ∃ st, NewFlags t.status st (u + v) (decide (2 ^ 32 ≤ u.toNat + v.toNat))
      (overflows (u.toInt + v.toInt)) ∧ Writes b.id rd (u + v) st s s')
    ∧ (After (.sub b rd ra x) s fun s' => ∃ st, NewFlags t.status st (u - v) (decide (v.toNat ≤ u.toNat))
      (overflows (u.toInt - v.toInt)) ∧ Writes b.id rd (u - v) st s s')

/-- R108: AND, OR and XOR write the bitwise result and N and Z; C and V stay. -/
def Obligations.Logic : Prop :=
  ∀ (b : Beat) (rd ra : Reg) (x : Operand) (s : State), Clean s → Ready b (.reg ra :: opReads x) false s →
    let t := s.thr b.id
    let u := t.rd ra
    let v := opZero t x
    let gives (r : Word) (s' : State) : Prop :=
      ∃ st, NewFlags t.status st r (flagC t.status) (flagV t.status) ∧ Writes b.id rd r st s s'
    After (.andOp b rd ra x) s (gives (u &&& v)) ∧ After (.orOp b rd ra x) s (gives (u ||| v))
      ∧ After (.xorOp b rd ra x) s (gives (u ^^^ v))

/-- R108, R109: the shifts. An amount of 0 writes ra and leaves C; any other sets C to the last bit shifted out, ROT to
bit 31 of the result. -/
def Obligations.Shifts : Prop :=
  ∀ (b : Beat) (rd ra : Reg) (x : ShiftAmount) (s : State), Clean s → Ready b (.reg ra :: shiftReads x) false s →
    let t := s.thr b.id
    let u := t.rd ra
    let n := shiftAmt t x
    let gives (r : Word) (c : Bool) (s' : State) : Prop :=
      ∃ st, NewFlags t.status st r (if n = 0 then flagC t.status else c) (flagV t.status) ∧ Writes b.id rd r st s s'
    After (.shl b rd ra x) s (gives (BitVec.ofNat 32 (u.toNat * 2 ^ n)) (u.getLsbD (32 - n)))
      ∧ After (.shr b rd ra x) s (gives (BitVec.ofNat 32 (u.toNat / 2 ^ n)) (u.getLsbD (n - 1)))
      ∧ After (.sar b rd ra x) s (gives (BitVec.ofInt 32 (u.toInt / 2 ^ n)) (u.getLsbD (n - 1)))
      ∧ (let r := BitVec.ofNat 32 (u.toNat / 2 ^ n) ||| BitVec.ofNat 32 (u.toNat * 2 ^ (32 - n))
         After (.rot b rd ra x) s (gives r (r.getLsbD 31)))

/-- R108, R109: CMP sets the flags of ra − operand and writes no register. -/
def Obligations.Compare : Prop :=
  ∀ (b : Beat) (ra : Reg) (x : Operand) (s : State), Clean s → Ready b (.reg ra :: opReads x) false s →
    let t := s.thr b.id
    let u := t.rd ra
    let v := opSigned t x
    After (.cmp b ra x) s fun s' =>
      NewFlags t.status (s'.thr b.id).status (u - v) (decide (v.toNat ≤ u.toNat)) (overflows (u.toInt - v.toInt))
      ∧ OtherRegs b.id [] s s' ∧ GoesOn b.id s s' ∧ OnlyThread b.id s s'

/-- R108: MOV copies a register or sext(imm18); MOVH writes rd[31:16] and keeps rd[15:0]. The flags stay. -/
def Obligations.Moves : Prop :=
  ∀ (b : Beat) (rd : Reg) (s : State), Clean s →
    (∀ x, Ready b (movReads x) false s →
      After (.mov b rd x) s (Writes b.id rd (movVal (s.thr b.id) x) (s.thr b.id).status s))
    ∧ ∀ imm, Ready b [.reg rd] false s →
      After (.movh b rd imm) s (Writes b.id rd
        (BitVec.ofNat 32 (imm.toNat * 2 ^ 16 + ((s.thr b.id).rd rd).toNat % 2 ^ 16)) (s.thr b.id).status s)

/-- R110: MUL and MULH write bits [31:0] and [63:32] of the signed product, and N and Z. -/
def Obligations.Multiply : Prop :=
  ∀ (b : Beat) (rd ra rb : Reg) (s : State), Clean s → Ready b [.reg ra, .reg rb] false s →
    let t := s.thr b.id
    let p := (t.rd ra).toInt * (t.rd rb).toInt
    let gives (r : Word) (s' : State) : Prop :=
      ∃ st, NewFlags t.status st r (flagC t.status) (flagV t.status) ∧ Writes b.id rd r st s s'
    After (.mul b rd ra rb) s (gives (BitVec.ofInt 32 p)) ∧ After (.mulh b rd ra rb) s (gives (BitVec.ofInt 32 (p / 2 ^ 32)))

/-- R110 to R113, R149: the four divides with the exceptional cases of Table 4.6, N and Z of the value written, and V, on the operands
that the first beat read. `cut` is the model's own operand (log entry 104): it says what falls within the divide, nothing, an event,
or something that leaves it in progress in the thread and goes on later. It completes unless an event makes an interrupt due under
DIVM 1: that interrupt abandons it, the divide's own address is saved, and rd and the flags keep their values. -/
def Obligations.Divide : Prop :=
  ∀ (b : Beat) (rd ra rb : Reg) (cut : DivCut) (s : State), Clean s →
    Ready b [.reg ra, .reg rb] false s (divides := true) →
    let id := b.id
    let t := s.thr id
    let u := (t.div.getD (t.rd ra, t.rd rb)).1
    let v := (t.div.getD (t.rd ra, t.rd rb)).2
    let divm := bit (s.reg (aThcfg b.eng.val b.thr.val)) 14
    let wraps := u = 0x80000000 ∧ v = 0xFFFFFFFF
    let gives (r : Word) (o : Bool) (s' : State) : Prop :=
      ∃ st, NewFlags t.status st r (flagC t.status) o ∧ Writes id rd r st s s'
    let four (p : State → Prop) : Prop :=
      After (.divOp b rd ra rb cut) s p ∧ After (.divu b rd ra rb cut) s p ∧ After (.remOp b rd ra rb cut) s p
      ∧ After (.remu b rd ra rb cut) s p
    (cut ≠ .part → (∀ k, cut = .event k → divm = false ∨ s.ien id k.val = false) →
      (v = 0 → After (.divOp b rd ra rb cut) s (gives 0xFFFFFFFF true) ∧ After (.divu b rd ra rb cut) s (gives 0xFFFFFFFF true)
        ∧ After (.remOp b rd ra rb cut) s (gives u true) ∧ After (.remu b rd ra rb cut) s (gives u true))
      ∧ (wraps → After (.divOp b rd ra rb cut) s (gives 0x80000000 true) ∧ After (.divu b rd ra rb cut) s (gives 0 false)
        ∧ After (.remOp b rd ra rb cut) s (gives 0 true) ∧ After (.remu b rd ra rb cut) s (gives 0x80000000 false))
      ∧ (v ≠ 0 → ¬ wraps →
        After (.divOp b rd ra rb cut) s (gives (BitVec.ofInt 32 (u.toInt.tdiv v.toInt)) false)
        ∧ After (.divu b rd ra rb cut) s (gives (BitVec.ofNat 32 (u.toNat / v.toNat)) false)
        ∧ After (.remOp b rd ra rb cut) s (gives (BitVec.ofInt 32 (u.toInt.tmod v.toInt)) false)
        ∧ After (.remu b rd ra rb cut) s (gives (BitVec.ofNat 32 (u.toNat % v.toNat)) false)))
    ∧ (cut = .part → four fun s' =>
        (s'.thr id).div = some (u, v) ∧ (s'.thr id).pc = t.pc ∧ (s'.thr id).status = t.status ∧ OtherRegs id [] s s'
        ∧ OnlyThread id s s')
    ∧ (∀ (k : Fin 4) e, tabFind s.hinge.inputs (4 * id + k.val) = some e → cut = .event k → divm = true →
      s.ien id k.val = true → mergeForm s = true → t.stepping = false → t.inInt = false → t.inTrap = false →
      s.frameFits id = true →
      tabFind t.ev k.val = none → (∀ n ∈ s.hinge.notes, n.id ≠ id ∨ n.k ≠ k.val) → (s.eng b.eng.val).twinStop = false →
      four fun s' =>
        (s'.thr id).pc = pcOf (t.vbase + BitVec.ofNat 32 (4 * (32 + k.val))) ∧ (s'.thr id).rd 2 = t.pc
        ∧ (s'.thr id).status = setFld (setBit t.status 23 true) 16 6 (32 + k.val)
        ∧ localNat s' b.eng.val (t.rd 14 - 32).toNat 4 = t.pc.toNat
        ∧ localNat s' b.eng.val ((t.rd 14 - 32).toNat + 4) 4 = t.status.toNat
        ∧ (s'.thr id).div = none ∧ (s'.thr id).pendingOn (.reg rd) = false
        ∧ OtherRegs id [0, 1, 2, 14] s s' ∧ MemoryOutside (engKey b.eng.val 0x10000) 0x4000 s s' ∧ OtherThreads id s s')

/-! ### Local memory (chapters 4 and 6) -/

/-- R114 to R117, R178: a local load at an aligned address of the engine's SRAM writes the bytes, a lane of the merge entry
ahead of memory, zero- or sign-extended. A misaligned one traps with ALIGN, whatever else it breaks, and one outside local memory
with FARERR; INFO is the address. -/
def Obligations.LocalLoads : Prop :=
  ∀ (b : Beat) (rd ra : Reg) (imm : BitVec 18) (s : State), Clean s → Ready b [.reg ra] false s →
    let t := s.thr b.id
    let ea := t.rd ra + imm.signExtend 32
    let a := ea.toNat
    let gives (r : Word) (s' : State) : Prop := Writes b.id rd r t.status s s'
    let traps (c : Trap) (s' : State) : Prop := TrapsAt b.id c ea s s'
    (a < 0x14000 →
      (a % 4 = 0 → After (.ldw b rd ra imm) s (gives (BitVec.ofNat 32 (localNat s b.eng.val a 4))))
      ∧ (a % 2 = 0 → After (.ldh b rd ra imm) s (gives ((BitVec.ofNat 16 (localNat s b.eng.val a 2)).signExtend 32))
        ∧ After (.ldhu b rd ra imm) s (gives (BitVec.ofNat 32 (localNat s b.eng.val a 2))))
      ∧ After (.ldb b rd ra imm) s (gives ((localByte s b.eng.val a).signExtend 32))
      ∧ After (.ldbu b rd ra imm) s (gives ((localByte s b.eng.val a).setWidth 32)))
    ∧ (t.stepping = false →
      (a % 4 ≠ 0 → After (.ldw b rd ra imm) s (traps .align))
      ∧ (a % 2 ≠ 0 → After (.ldh b rd ra imm) s (traps .align) ∧ After (.ldhu b rd ra imm) s (traps .align))
      ∧ (0x14000 ≤ a →
        (a % 4 = 0 → After (.ldw b rd ra imm) s (traps .farerr))
        ∧ (a % 2 = 0 → After (.ldh b rd ra imm) s (traps .farerr) ∧ After (.ldhu b rd ra imm) s (traps .farerr))
        ∧ After (.ldb b rd ra imm) s (traps .farerr) ∧ After (.ldbu b rd ra imm) s (traps .farerr)))

/-- R115 to R117, R120, R176 to R178: a store to data SRAM changes, for the loads of the engine, exactly the bytes at its address;
nothing outside the engine's data SRAM changes, nor any register of a thread. A misaligned store traps with ALIGN, and so does a
narrow one to an instruction bank; one outside local memory traps with FARERR. -/
def Obligations.LocalStores : Prop :=
  ∀ (b : Beat) (rd ra : Reg) (imm : BitVec 18) (s : State), Clean s → mergeForm s = true →
    Ready b [.reg ra, .reg rd] false s →
    let t := s.thr b.id
    let k := b.eng.val
    let ea := t.rd ra + imm.signExtend 32
    let a := ea.toNat
    let v := (t.rd rd).toNat
    let traps (c : Trap) (s' : State) : Prop := TrapsAt b.id c ea s s'
    let gives (n : Nat) (s' : State) : Prop :=
      localNat s' k a n = v % 256 ^ n
      ∧ (∀ x, x < 0x14000 → x < a ∨ a + n ≤ x → localByte s' k x = localByte s k x)
      ∧ MemoryOutside (engKey k 0x10000) 0x4000 s s'
      ∧ OtherRegs b.id [] s s' ∧ (s'.thr b.id).status = t.status ∧ GoesOn b.id s s'
      ∧ OtherThreads b.id s s' ∧ SameUnits s s'
    (0x10000 ≤ a → a < 0x14000 →
      (a % 4 = 0 → After (.stw b rd ra imm) s (gives 4)) ∧ (a % 2 = 0 → After (.sth b rd ra imm) s (gives 2))
      ∧ After (.stb b rd ra imm) s (gives 1))
    ∧ (t.stepping = false →
      (a % 4 ≠ 0 → After (.stw b rd ra imm) s (traps .align))
      ∧ (a % 2 ≠ 0 ∨ a < 0x10000 → After (.sth b rd ra imm) s (traps .align))
      ∧ (a < 0x10000 → After (.stb b rd ra imm) s (traps .align))
      ∧ (0x14000 ≤ a →
        (a % 4 = 0 → After (.stw b rd ra imm) s (traps .farerr)) ∧ (a % 2 = 0 → After (.sth b rd ra imm) s (traps .farerr))
        ∧ After (.stb b rd ra imm) s (traps .farerr)))

/-- R120: a code store by a thread with CODEW writes the instruction word, and every fetch-ahead word of the engine's
threads that holds its address takes it. Without CODEW it traps with PRIV (R117), INFO the address. -/
def Obligations.CodeStore : Prop :=
  ∀ (b : Beat) (rd ra : Reg) (imm : BitVec 18) (s : State), Clean s → Ready b [.reg ra, .reg rd] false s →
    let t := s.thr b.id
    let k := b.eng.val
    let ea := t.rd ra + imm.signExtend 32
    let a := ea.toNat
    a % 4 = 0 → a < 0x10000 →
    (bit (s.reg (aThcfg k b.thr.val)) 15 = false → t.stepping = false →
      After (.stw b rd ra imm) s fun s' => TrapsAt b.id .priv ea s s')
    ∧ (bit (s.reg (aThcfg k b.thr.val)) 15 = true → After (.stw b rd ra imm) s fun s' =>
      readWord s'.mem (engKey k a) = t.rd rd ∧ MemoryOutside (engKey k a) 4 s s'
      ∧ (∀ i : Fin 16, i ≠ b.thr → (s.thr (16 * k + i.val)).st ≠ .stopped → (s.thr (16 * k + i.val)).faAddr.toNat = a →
          (s'.thr (16 * k + i.val)).faWord = t.rd rd ∧ (s'.thr (16 * k + i.val)).faBad = false)
      ∧ OtherRegs b.id [] s s' ∧ (s'.thr b.id).status = t.status ∧ GoesOn b.id s s' ∧ SameUnits s s')

/-! ### Far accesses (chapter 4) -/

/-- R24, R33, R34, R114, R116, R117, R124 to R126: a far load writes no register at once. It issues one request whose reply carries
the value, and marks rd pending: from image memory, and a word load from the Ward table or from a register whose read is its word;
a register of an island that is off answers with FARERR, counted. A misaligned load traps with ALIGN, and one outside the far
ranges, or a narrow one outside image memory, with FARERR. -/
def Obligations.FarLoads : Prop :=
  ∀ (b : Beat) (rd ra : Reg) (imm : BitVec 14) (s : State), Clean s → Settled s → FarIdle b s → Ready b [.reg ra] true s →
    let ea := (s.thr b.id).rd ra + imm.signExtend 32
    let a := ea.toNat
    let m := leNat (readBytes s.mem a 4)
    let narrow (p : State → Prop) : Prop := After (.fldH b rd ra imm) s p ∧ After (.fldHu b rd ra imm) s p
    let bytes (p : State → Prop) : Prop := After (.fldB b rd ra imm) s p ∧ After (.fldBu b rd ra imm) s p
    let traps (c : Trap) (s' : State) : Prop := TrapsAt b.id c ea s s'
    let gives (v : Word) (s' : State) : Prop :=
      Issued b.id .fabric .done [(.reg rd, v)] s s' ∧ (s'.thr b.id).pendingOn (.reg rd) = true
        ∧ NoResult b.id s s' ∧ OnlyThread b.id s s'
    (inImage a = true ∨ inWard a = true → a % 4 = 0 → After (.fldW b rd ra imm) s (gives (BitVec.ofNat 32 m)))
    ∧ (a ∈ wordRegs → s.gated a = false → After (.fldW b rd ra imm) s (gives (s.reg a)))
    ∧ (inRegs a = true → a % 4 = 0 → isleOf a = .engine → s.gated a = true → Raisable 666 s → After (.fldW b rd ra imm) s fun s' =>
      IssuedErr b.id .engine [(.reg rd, 0)] .farerr ea s s' ∧ NoResult b.id s s'
      ∧ bit (s'.reg aXflag) 0 = true ∧ fld (s'.reg aXerr) 0 9 = b.id
      ∧ fld (s'.reg aXerr) 16 16 = min 0xFFFF (fld (s.reg aXerr) 16 16 + 1) ∧ RaisedNow 666 s s'
      ∧ OtherThreads b.id s s' ∧ RegsBut [aXerr, aXflag] s s' ∧ OnlyIn [.threads, .engines, .regs, .hinge] s s')
    ∧ (inImage a = true →
      (a % 2 = 0 → After (.fldH b rd ra imm) s (gives ((BitVec.ofNat 16 m).signExtend 32))
        ∧ After (.fldHu b rd ra imm) s (gives (BitVec.ofNat 32 (m % 2 ^ 16))))
      ∧ After (.fldB b rd ra imm) s (gives ((readByte s.mem a).signExtend 32))
      ∧ After (.fldBu b rd ra imm) s (gives ((readByte s.mem a).setWidth 32)))
    ∧ ((s.thr b.id).stepping = false →
      (a % 4 ≠ 0 → After (.fldW b rd ra imm) s (traps .align)) ∧ (a % 2 ≠ 0 → narrow (traps .align))
      ∧ (a % 4 = 0 → inFar a = false → After (.fldW b rd ra imm) s (traps .farerr))
      ∧ (inImage a = false → (a % 2 = 0 → narrow (traps .farerr)) ∧ bytes (traps .farerr)))

/-- R13, R28, R33, R34, R49, R81, R117, R124, R125, R143, R179: a far store to image memory changes, behind the far merge entry of its
engine, exactly the bytes at its address, and issues one request; nothing outside image memory changes. The entry holds no store of
another thread. With nothing waiting, a word store writes the Ward table, a register by its field classes, or launches a write of an
always-on register; one that the thread may not make is refused with PRIV. A misaligned store traps with ALIGN, one outside the far
ranges, or a narrow one outside image memory, with FARERR. -/
def Obligations.FarStores : Prop :=
  ∀ (b : Beat) (rd ra : Reg) (imm : BitVec 14) (s : State), Clean s → Settled s → mergeForm s = true →
    (∀ m, (s.eng b.eng.val).farMerge = some m → m.owner = b.id) → (∀ n ∈ s.hinge.notes, n.id ≠ b.id) →
    s.scan.run = none →
    Ready b [.reg ra, .reg rd] true s →
    let t := s.thr b.id
    let k := b.eng.val
    let ea := t.rd ra + imm.signExtend 32
    let a := ea.toNat
    let v := (t.rd rd).toNat
    let traps (c : Trap) (s' : State) : Prop := TrapsAt b.id c ea s s'
    let sent (s' : State) : Prop := NoResult b.id s s' ∧ OtherThreads b.id s s'
    let gives (n : Nat) (s' : State) : Prop :=
      imageNat s' k a n = v % 256 ^ n
      ∧ (∀ x, x < a ∨ a + n ≤ x → imageByte s' k x = imageByte s k x)
      ∧ MemoryOutside 0x40000000 0x60000 s s'
      ∧ (s'.thr b.id).outst.length = t.outst.length + 1
      ∧ NoResult b.id s s' ∧ OtherThreads b.id s s' ∧ SameUnits s s'
    (inImage a = true →
      (a % 4 = 0 → After (.fstW b rd ra imm) s (gives 4)) ∧ (a % 2 = 0 → After (.fstH b rd ra imm) s (gives 2))
      ∧ After (.fstB b rd ra imm) s (gives 1))
    ∧ (FarIdle b s → a % 4 = 0 →
      (inWard a = true → After (.fstW b rd ra imm) s fun s' =>
        Issued b.id .fabric .done [] s s' ∧ sent s' ∧ readWord s'.mem a = t.rd rd ∧ MemoryOutside a 4 s s' ∧ SameUnits s s')
      ∧ (∀ r, a ∈ wordRegs → regRow a = some r → mayWrite b.id a (t.rd rd) = true → s.writeHeld a = false → Fresh s →
        After (.fstW b rd ra imm) s fun s' =>
          Issued b.id .fabric .done [] s s' ∧ sent s'
          ∧ (∀ i, i < 32 → bit (s'.reg a) i =
            if r.rw.testBit i then bit (t.rd rd) i else bit (s.reg a) i && !(r.w1c.testBit i && bit (t.rd rd) i))
          ∧ RegsBut [a] s s' ∧ OnlyIn [.threads, .engines, .regs] s s')
      ∧ (a ∈ aonRegs → mayWrite b.id a (t.rd rd) = true → After (.fstW b rd ra imm) s fun s' =>
        Issued b.id .aon .aon [] s s' ∧ sent s'
        ∧ s'.sys = { s.sys with aon := s.sys.aon ++ [⟨a, t.rd rd, some b.id⟩] } ∧ OnlyIn [.threads, .engines, .sys] s s')
      ∧ (inRegs a = true → isAon a = false → isleOf a = .fabric → mayWrite b.id a (t.rd rd) = false →
        After (.fstW b rd ra imm) s fun s' =>
          IssuedErr b.id .fabric [] .priv ea s s' ∧ sent s' ∧ SameMemory s s' ∧ SameUnits s s'))
    ∧ (t.stepping = false →
      (a % 4 ≠ 0 → After (.fstW b rd ra imm) s (traps .align)) ∧ (a % 2 ≠ 0 → After (.fstH b rd ra imm) s (traps .align))
      ∧ (a % 4 = 0 → inFar a = false → After (.fstW b rd ra imm) s (traps .farerr))
      ∧ (inImage a = false → (a % 2 = 0 → After (.fstH b rd ra imm) s (traps .farerr))
        ∧ After (.fstB b rd ra imm) s (traps .farerr)))

/-- R116, R117, R125, R133: FBT, FBS, FBC and FBW read one image bit, whose old value the reply brings into rd and T; FBS sets it, FBC
clears it, FBW writes rb[0], and no other bit of memory changes. At a misaligned address they trap with ALIGN, outside image memory
with FARERR. -/
def Obligations.FarBits : Prop :=
  ∀ (b : Beat) (rd rb ra : Reg) (off : BitVec 9) (i : BitVec 5) (s : State), Clean s → Settled s → FarIdle b s →
    Ready b [.reg ra, .reg rb] true s →
    let t := s.thr b.id
    let ea := t.rd ra + 4 * off.signExtend 32
    let a := ea.toNat
    let old := (readWord s.mem a).getLsbD i.toNat
    let four (p : State → Prop) : Prop :=
      After (.fbt b rd ra off i) s p ∧ After (.fbs b rd ra off i) s p ∧ After (.fbc b rd ra off i) s p
      ∧ After (.fbw b rd rb ra off i) s p
    let gives (new : Bool) (s' : State) : Prop :=
      Issued b.id .fabric .done [(.reg rd, bitWord old), (.flagT, bitWord old)] s s'
      ∧ (readWord s'.mem a).getLsbD i.toNat = new
      ∧ (∀ j, j ≠ i.toNat → (readWord s'.mem a).getLsbD j = (readWord s.mem a).getLsbD j)
      ∧ MemoryOutside a 4 s s' ∧ NoResult b.id s s' ∧ OtherThreads b.id s s' ∧ SameUnits s s'
    (inImage a = true → a % 4 = 0 →
      After (.fbt b rd ra off i) s (gives old) ∧ After (.fbs b rd ra off i) s (gives true)
      ∧ After (.fbc b rd ra off i) s (gives false) ∧ After (.fbw b rd rb ra off i) s (gives ((t.rd rb).getLsbD 0)))
    ∧ (t.stepping = false →
      (a % 4 ≠ 0 → four fun s' => TrapsAt b.id .align ea s s')
      ∧ (a % 4 = 0 → inImage a = false → four fun s' => TrapsAt b.id .farerr ea s s'))

/-- R27, R126, R128, R143, R154: a far reply, the next of its crossing to a thread whose island runs and whose pair has not
stopped, writes every destination that its request still has and ends the request: registers and T, and after an entry the
words of the frame. An error reply writes 0 there, ends the request and any wait, and makes the trap due. -/
def Obligations.FarReplies : Prop :=
  ∀ (eng thr : Fin 16) (n : Nat) (q : FarReq) (s : State),
    let id := 16 * eng.val + thr.val
    let t := s.thr id
    let k := eng.val
    let value (e : Bool) (v : Word) : Word := if e then 0 else v
    let ends (e : Bool) (s' : State) : Prop :=
      (s'.thr id).outst = t.outst.eraseIdx n ∧ (s'.thr id).pc = t.pc ∧ OtherThreads id s s' ∧ s'.regs = s.regs
      ∧ (s'.thr id).errs = (match q.err with
          | some (c, info) => errInsert ⟨c, info, q.pc, q.ord, s.cycle⟩ t.errs
          | none => t.errs)
      ∧ (e = true → t.st = .waiting → (s'.thr id).st = .ready)
    let takes (e : Bool) (s' : State) : Prop :=
      ((∀ d ∈ q.dests, d.1 = .flagT ∨ ∃ r, d.1 = .reg r) →
        ends e s' ∧ SameMemory s s'
        ∧ (∀ r v, (.reg r, v) ∈ q.dests → (∀ w, (.reg r, w) ∈ q.dests → w = v) → (s'.thr id).rd r = value e v)
        ∧ (∀ r, (∀ d ∈ q.dests, d.1 ≠ .reg r) → (s'.thr id).rd r = t.rd r)
        ∧ (∀ v, (.flagT, v) ∈ q.dests → (∀ w, (.flagT, w) ∈ q.dests → w = v) →
          (s'.thr id).status.getLsbD 27 = (value e v != 0))
        ∧ (∀ i, i < 32 → i ≠ 27 ∨ (∀ d ∈ q.dests, d.1 ≠ .flagT) → (s'.thr id).status.getLsbD i = t.status.getLsbD i))
      ∧ (∀ base r v, q.dests = [(.frame base r, v)] → Clean s → mergeForm s = true → s.twin k = false →
        base.toNat % 4 = 0 → 0x10000 ≤ base.toNat → base.toNat + 32 ≤ 0x14000 →
        ends e s' ∧ localNat s' k (base.toNat + frameOff r) 4 = (value e v).toNat
        ∧ MemoryOutside (engKey k 0x10000) 0x4000 s s' ∧ OtherRegs id [] s s' ∧ (s'.thr id).status = t.status)
      ∧ (∀ base v, q.dests = [(.frameT base, v)] → Clean s → mergeForm s = true → s.twin k = false →
        base.toNat % 4 = 0 → 0x10000 ≤ base.toNat → base.toNat + 32 ≤ 0x14000 →
        ends e s' ∧ (∀ i, i < 32 → (BitVec.ofNat 32 (localNat s' k (base.toNat + 4) 4)).getLsbD i =
          if i = 27 then value e v != 0 else (BitVec.ofNat 32 (localNat s k (base.toNat + 4) 4)).getLsbD i)
        ∧ MemoryOutside (engKey k 0x10000) 0x4000 s s' ∧ OtherRegs id [] s s' ∧ (s'.thr id).status = t.status)
    t.outst[n]? = some q → q.phase = .done → s.replyOpen id n = true →
    (q.err = none → After (.farReply eng thr n) s (takes false))
    ∧ (q.err.isSome = true → After (.farErrorReply eng thr n) s (takes true))

/-! ### Control transfers (chapter 4) -/

/-- R121 to R123: B.cond goes to its target where the condition holds and on where it does not; B, BL, JR, JR.L and RET go
to their targets; BL and JR.L write the return address to lk (w15), JR.L after reading ra. A target that is not word-aligned traps
with ALIGN, one outside the code space with FARERR (R116, R117; INFO the target, log entry 88), and pc and lk stay; a B.cond not taken
at the last word of the code space traps with FARERR too. -/
def Obligations.Transfers : Prop :=
  ∀ (b : Beat) (ra : Reg) (cond : BitVec 4) (off : BitVec 22) (s : State), Clean s →
    Ready b [.reg ra, .reg 15, .flagT] false s (transfers := true) →
    let t := s.thr b.id
    let gives (target : Word) (ws : List Reg) (s' : State) : Prop :=
      (s'.thr b.id).pc = target ∧ (s'.thr b.id).status = t.status ∧ OtherRegs b.id ws s s' ∧ OnlyThread b.id s s'
    let linked (target : Word) (s' : State) : Prop := (s'.thr b.id).rd 15 = t.pc + 4 ∧ gives target [15] s'
    let rel := t.pc + 4 * off.signExtend 32
    (condHolds cond t.status = false → t.pc ≠ 0xFFFC → After (.bCond b cond off) s fun s' => NoResult b.id s s' ∧ OnlyThread b.id s s')
    ∧ (rel.toNat % 4 = 0 → rel.toNat < 0x10000 →
      (condHolds cond t.status = true → After (.bCond b cond off) s (gives rel [])) ∧ After (.br b off) s (gives rel [])
      ∧ After (.bl b off) s (linked rel))
    ∧ (condHolds cond t.status = false → t.pc = 0xFFFC → t.stepping = false →
      After (.bCond b cond off) s fun s' => TrapsAt b.id .farerr 0x10000 s s')
    ∧ (t.stepping = false → ∀ c,
      (c = if rel.toNat % 4 = 0 then .farerr else .align) → rel.toNat % 4 ≠ 0 ∨ 0x10000 ≤ rel.toNat →
      (condHolds cond t.status = true → After (.bCond b cond off) s fun s' => TrapsAt b.id c rel s s')
      ∧ (After (.br b off) s fun s' => TrapsAt b.id c rel s s') ∧ (After (.bl b off) s fun s' => TrapsAt b.id c rel s s'))
    ∧ (t.stepping = false → ∀ c,
      (c = if (t.rd ra).toNat % 4 = 0 then .farerr else .align) → (t.rd ra).toNat % 4 ≠ 0 ∨ 0x10000 ≤ (t.rd ra).toNat →
      (After (.jr b ra) s fun s' => TrapsAt b.id c (t.rd ra) s s')
      ∧ (After (.jrL b ra) s fun s' => TrapsAt b.id c (t.rd ra) s s'))
    ∧ ((t.rd ra).toNat % 4 = 0 → (t.rd ra).toNat < 0x10000 →
      After (.jr b ra) s (gives (t.rd ra) []) ∧ After (.jrL b ra) s (linked (t.rd ra)))
    ∧ ((t.rd 15).toNat % 4 = 0 → (t.rd 15).toNat < 0x10000 → After (.ret b) s (gives (t.rd 15) []))

/-- R122: B.cond with each code of Table 4.9 is taken exactly as the table says, on the flags that the status holds when the
instruction reads it. -/
def Obligations.Conditions : Prop :=
  (∀ st : Word,
    let n := st.getLsbD 31
    let z := st.getLsbD 30
    let c := st.getLsbD 29
    let v := st.getLsbD 28
    let t := st.getLsbD 27
    [z, !z, c, !c, n, !n, v, !v, c && !z, !c || z, n == v, n != v, !z && n == v, z || n != v, t, !t]
      = (upTo 16).map fun i => condHolds (BitVec.ofNat 4 i) st)
  ∧ ∀ (b : Beat) (cond : BitVec 4) (off : BitVec 22) (s : State), Clean s → Ready b [.flagT] false s (transfers := true) →
    let t := s.thr b.id
    let rel := t.pc + 4 * off.signExtend 32
    rel.toNat % 4 = 0 → rel.toNat < 0x10000 → t.pc ≠ 0xFFFC ∨ condHolds cond t.status = true →
    After (.bCond b cond off) s fun s' =>
      (s'.thr b.id).pc = if condHolds cond t.status = true then rel else pcOf (t.pc + 4)

/-! ### Traps and returns (chapter 5) -/

/-- R141 to R143, R149 to R151, R156 to R158, R160: TRAP n with a vectored policy writes the frame of Table 5.2 below sp, with the
address of the following word as its pc, sets INTRAP and the entry index, and goes to the vector with the code in w0, the INFO in
w1 and its own address in w2. Under Hold, and within a trap, its thread is held and recorded; Engine reset then resets the engine,
Safe takes the unit to Safe. A frame that does not fit is a trap STKOV with the sp as INFO (log entry 91). A far error that is due is taken in place
of the instruction, named by its own address, with FAR. -/
def Obligations.TrapEntry : Prop :=
  ∀ (b : Beat) (n : BitVec 4) (s : State), Clean s → mergeForm s = true →
    let t := s.thr b.id
    let k := b.eng.val
    let pol := fld (s.reg (aTrp k 0)) 22 2
    let code := 16 + n.toNat
    let next := pcOf (t.pc + 4)
    let recorded (s' : State) : Prop := Recorded k b.id code pol t.inTrap false false t.pc 0 s s'
    (Ready b [] false s → t.stepping = false →
      (t.inTrap = false → pol = 0 → s.frameFits b.id = true → After (.trapOp b n) s (Vectored b.id code 0 next s))
      ∧ (pol = 1 ∨ t.inTrap = true ∧ pol = 0 →
        After (.trapOp b n) s (HeldTrap b.id code t.inTrap false t.pc 0 next s))
      ∧ (pol = 2 → s.tum.waiters = [] → After (.trapOp b n) s fun s' =>
        recorded s' ∧ (∀ i, i < 16 → s'.thr (16 * k + i) = {}) ∧ (s'.eng k).holder = none
        ∧ (∃ q ∈ s'.sys.gov, q.eng = k ∧ q.start = true) ∧ bit (s'.reg aEngStart) k = true ∧ s'.sys.mode = s.sys.mode)
      ∧ (pol = 3 → s.sameNow.req = none → After (.trapOp b n) s fun s' =>
        recorded s' ∧ (s'.thr b.id).st = .trapped ∧ (s'.thr b.id).pc = next ∧ (s'.thr b.id).status = t.status
        ∧ OtherRegs b.id [] s s' ∧ OtherThreads b.id s s' ∧ s'.sys.mode = .safe ∧ bit (s'.reg aSafeCause) 3 = true)
      ∧ (t.inTrap = false → pol = 0 → s.frameFits b.id = false → fld (s.reg (aTrp k 0)) 20 2 ≤ 1 →
        After (.trapOp b n) s (HeldTrap b.id 10 false false t.pc (t.rd 14) next s)))
    ∧ (∀ e, s.engRuns k = true → s.twin k = false → s.atPosition k b.pos.val = some b.thr.val →
      (s.takePosition k b.pos.val b.thr.val).boundary b.id = .farError e → t.stepping = false →
      fld (s.reg (aTrp k 0)) e.code.polBit 2 = 1 → After (.trapOp b n) s fun s' =>
        HeldTrap b.id e.code.code t.inTrap true e.pc e.info t.pc s s' ∧ (s'.thr b.id).errs = t.errs.tail)

/-- R155: RFI restores pc, the writable status bits, w0 to w3 and lk from the frame at sp and frees the frame. -/
def Obligations.ReturnFromInterrupt : Prop :=
  ∀ (b : Beat) (s : State), Clean s → Ready b [.reg 14] false s (transfers := true) →
    let t := s.thr b.id
    let k := b.eng.val
    let sp := (t.rd 14).toNat
    let w (i : Nat) : Word := BitVec.ofNat 32 (localNat s k (sp + 4 * i) 4)
    t.frameAwaits (t.rd 14) = false → sp % 4 = 0 → 0x10000 ≤ sp → sp + 32 ≤ 0x14000 → (w 0).toNat % 4 = 0 →
    (w 0).toNat < 0x10000 →
    After (.rfi b) s fun s' =>
      (s'.thr b.id).pc = w 0 ∧ (s'.thr b.id).status = w 1 &&& 0xF8FF0000 ∧ (s'.thr b.id).rd 0 = w 2
      ∧ (s'.thr b.id).rd 1 = w 3 ∧ (s'.thr b.id).rd 2 = w 4 ∧ (s'.thr b.id).rd 3 = w 5 ∧ (s'.thr b.id).rd 15 = w 6
      ∧ (s'.thr b.id).rd 14 = t.rd 14 + 32 ∧ OtherRegs b.id [0, 1, 2, 3, 14, 15] s s' ∧ OnlyThread b.id s s'

/-! ### Thread control (chapter 3) -/

/-- R41, R88 to R91, R93, R102: the engine master reads and writes selectors of another thread, releases a STOPPED one to READY at
its context pc, and resets one to the reset context; each reports success in T. A pc, a status, a VBASE or a SLIM that it writes
keeps its implemented bits only, and bits cleared from the addresses count as one clamp. A target in the wrong state, a reserved
selector and the master itself as target change nothing and clear T. Any other thread traps with PRIV, INFO the instruction word. -/
def Obligations.MasterControl : Prop :=
  ∀ (b : Beat) (rd ra r : Reg) (sel : BitVec 8) (s : State), Clean s → Ready b [.reg ra, .reg rd] false s →
    let me := s.thr b.id
    let n := (me.rd ra).toNat % 16
    let target := 16 * b.eng.val + n
    let other (s' : State) : Prop := ∀ j, j ≠ b.id → j ≠ target → s'.thr j = s.thr j
    let done (s' : State) : Prop := ∀ i, i < 32 → (s'.thr b.id).status.getLsbD i = (i == 27 || me.status.getLsbD i)
    let open_ := (s.thr target).st = .stopped ∨ (s.thr target).st = .trapped ∨ (s.thr target).st = .halted
    let set (v : Nat) (p : State → Prop) : Prop := After (.tset b rd ra (BitVec.ofNat 8 v)) s fun s' =>
      p s' ∧ done s' ∧ OtherRegs b.id [] s s' ∧ GoesOn b.id s s' ∧ other s' ∧ SameMemory s s' ∧ OtherRegs target [] s s'
    let get (v : Nat) (x : Word) : Prop := After (.tget b rd ra (BitVec.ofNat 8 v)) s fun s' =>
      (s'.thr b.id).rd rd = x ∧ done s' ∧ OtherRegs b.id [rd] s s' ∧ GoesOn b.id s s' ∧ OnlyThread b.id s s'
    let no (s' : State) : Prop :=
      (∀ i, i < 32 → (s'.thr b.id).status.getLsbD i = (i != 27 && me.status.getLsbD i)) ∧ GoesOn b.id s s' ∧ OnlyThread b.id s s'
    let kept (v m : Word) (s' : State) : Prop := v &&& m ≠ v → Counted 0x500F0014 0 32 1 s s' ∧ (Raisable 668 s → RaisedNow 668 s s')
    let clean (v m : Word) (s' : State) : Prop := v &&& m = v → SameUnits s s'
    (b.thr ≠ 0 → me.stepping = false →
      (After (.tset b rd ra sel) s fun s' =>
        TrapsAt b.id .priv (BitVec.ofNat 32 (0x28 * 2 ^ 26 + rd.val * 2 ^ 22 + ra.val * 2 ^ 18 + sel.toNat)) s s')
      ∧ (After (.tget b rd ra sel) s fun s' =>
        TrapsAt b.id .priv (BitVec.ofNat 32 (0x29 * 2 ^ 26 + rd.val * 2 ^ 22 + ra.val * 2 ^ 18 + sel.toNat)) s s')
      ∧ (After (.tgo b ra) s fun s' => TrapsAt b.id .priv (BitVec.ofNat 32 (0x2A * 2 ^ 26 + ra.val * 2 ^ 18)) s s')
      ∧ (After (.trst b ra) s fun s' => TrapsAt b.id .priv (BitVec.ofNat 32 (0x2C * 2 ^ 26 + ra.val * 2 ^ 18)) s s'))
    ∧ (b.thr = 0 → n = 0 →
      let none_ (s' : State) : Prop := no s' ∧ OtherRegs b.id [] s s'
      After (.tset b rd ra sel) s none_ ∧ After (.tget b rd ra sel) s none_ ∧ After (.tgo b ra) s none_
      ∧ After (.trst b ra) s none_)
    ∧ (b.thr = 0 → n ≠ 0 →
      (open_ →
        (set 0x10 fun s' => (s'.thr target).pc = me.rd rd &&& 0xFFFC ∧ (s'.thr target).status = (s.thr target).status
          ∧ kept (me.rd rd) 0xFFFC s' ∧ clean (me.rd rd) 0xFFFC s')
        ∧ (set 0x11 fun s' => (s'.thr target).status = me.rd rd &&& 0xF8FF0000 ∧ (s'.thr target).pc = (s.thr target).pc
          ∧ (s'.thr target).pendingOn .flagT = false ∧ SameUnits s s')
        ∧ (set 0x12 fun s' => (s'.thr target).vbase = me.rd rd &&& 0xFF00 ∧ (s'.thr target).pc = (s.thr target).pc
          ∧ kept (me.rd rd) 0xFF00 s' ∧ clean (me.rd rd) 0xFF00 s')
        ∧ (set 0x13 fun s' => (s'.thr target).slim = me.rd rd &&& 0x1FFFC ∧ (s'.thr target).pc = (s.thr target).pc
          ∧ kept (me.rd rd) 0x1FFFC s' ∧ clean (me.rd rd) 0x1FFFC s'))
      ∧ (¬ open_ ∨ 0x14 ≤ sel.toNat → After (.tset b rd ra sel) s fun s' => no s' ∧ OtherRegs b.id [] s s')
      ∧ get 0x10 (s.thr target).pc ∧ get 0x11 (s.thr target).status ∧ get 0x12 (s.thr target).vbase
      ∧ get 0x13 (s.thr target).slim
      ∧ (0x17 ≤ sel.toNat → After (.tget b rd ra sel) s fun s' => no s' ∧ (s'.thr b.id).rd rd = 0 ∧ OtherRegs b.id [rd] s s')
      ∧ ((s.thr target).st ≠ .stopped → After (.tgo b ra) s fun s' => no s' ∧ OtherRegs b.id [] s s'))
    ∧ (b.thr = 0 → n ≠ 0 →
    ((s.thr target).st = .stopped ∨ (s.thr target).st = .trapped ∨ (s.thr target).st = .halted →
      After (.tset b rd ra (BitVec.ofNat 8 r.val)) s fun s' =>
        (s'.thr target).rd r = me.rd rd ∧ OtherRegs target [r] s s' ∧ (s'.thr target).pc = (s.thr target).pc
        ∧ done s' ∧ OtherRegs b.id [] s s' ∧ GoesOn b.id s s' ∧ other s'
        ∧ SameMemory s s' ∧ SameUnits s s')
    ∧ (After (.tget b rd ra (BitVec.ofNat 8 r.val)) s fun s' =>
        (s'.thr b.id).rd rd = (s.thr target).rd r ∧ done s'
        ∧ OtherRegs b.id [rd] s s' ∧ GoesOn b.id s s' ∧ OnlyThread b.id s s')
    ∧ ((s.thr target).st = .stopped → After (.tgo b ra) s fun s' =>
        (s'.thr target).st = .ready ∧ (s'.thr target).pc = (s.thr target).pc
        ∧ (s'.thr target).faAddr = (s.thr target).pc
        ∧ (s'.thr target).faWord = readWord s.mem (engKey b.eng.val (s.thr target).pc.toNat)
        ∧ OtherRegs target [] s s' ∧ done s' ∧ OtherRegs b.id [] s s'
        ∧ GoesOn b.id s s' ∧ other s' ∧ SameMemory s s' ∧ SameUnits s s')
    ∧ ((s.eng b.eng.val).localMerge = none → (s.eng b.eng.val).farMerge = none → After (.trst b ra) s fun s' =>
        (s'.thr target) = {} ∧ (∀ k, k < 4 → tabFind s'.hinge.inputs (4 * target + k) = none)
        ∧ (∀ m ∈ s'.tum.mail, m.2.half = true → m.2.writer ≠ target)
        ∧ (∀ a, tabFind s.tum.locks a = some (.held target) → tabFind s'.tum.locks a = some .marked)
        ∧ (∀ a, (∀ l ∈ s.tum.locks, l.1 = a → l.2 ≠ .held target) → tabFind s'.tum.locks a = tabFind s.tum.locks a)
        ∧ done s' ∧ OtherRegs b.id [] s s' ∧ GoesOn b.id s s'
        ∧ (s.tum.waiters = [] → other s') ∧ SameMemory s s'))

/-- R76, R78, R92, R96, R106, R117, R123, R135, R136: TSTOP stops its thread, PRIO sets THCFG.PRIO, YIELD gives up the pool and is left out
of the next selection, ARM sets the armed mask; NOP and a SYNC with nothing outstanding only go on. The NOP command carries a word
(log entry 12): one whose opcode Table 4.3 does not list, or a NOP with a bit that must be zero, traps with ILLOP, INFO the word, also
at the last word of the code space, where a NOP traps with FARERR. -/
def Obligations.OwnControl : Prop :=
  ∀ (b : Beat) (n : BitVec 3) (mask : BitVec 4) (s : State), Clean s →
    let t := s.thr b.id
    let k := b.eng.val
    let on (s' : State) : Prop := NoResult b.id s s' ∧ SameMemory s s' ∧ OtherThreads b.id s s'
    (Ready b [] false s (transfers := true) → t.pc = 0xFFFC → t.stepping = false →
      (After (.nop b 0xFC000000) s fun s' => TrapsAt b.id .farerr 0x10000 s s')
      ∧ After (.nop b 0) s fun s' => TrapsAt b.id .illop 0 s s')
    ∧ (Ready b [] false s → (t.stepping = false → After (.tstop b) s fun s' =>
      on s' ∧ (s'.thr b.id).st = .stopped ∧ (s'.eng k).holder ≠ some b.thr ∧ SameUnits s s')
    ∧ (t.stepping = false → s.timed k b.thr.val = false → After (.yield b) s fun s' =>
      on s' ∧ (s'.thr b.id).st = .ready ∧ (s'.eng k).holder ≠ some b.thr ∧ (s'.eng k).yielded = some b.thr
      ∧ SameUnits s s')
    ∧ (After (.prio b n) s fun s' =>
      on s' ∧ fld (s'.reg (aThcfg k b.thr.val)) 8 3 = n.toNat
      ∧ (∀ i, i < 8 ∨ 11 ≤ i → bit (s'.reg (aThcfg k b.thr.val)) i = bit (s.reg (aThcfg k b.thr.val)) i)
      ∧ ∀ a, a ≠ aThcfg k b.thr.val → s'.reg a = s.reg a)
    ∧ (After (.arm b mask) s fun s' => on s' ∧ (s'.thr b.id).armed = mask ∧ SameUnits s s')
    ∧ (After (.nop b 0xFC000000) s fun s' => on s' ∧ SameUnits s s')
    ∧ (t.stepping = false → ∀ w : Word,
      fld w 26 6 ∈ [0, 0x0C, 0x0D, 0x0E, 0x0F, 0x1E, 0x1F, 0x24, 0x25, 0x26, 0x27, 0x2F, 0x33, 0x39]
        ∨ 0xFC000000 < w.toNat → After (.nop b w) s fun s' => TrapsAt b.id .illop w s s')
    ∧ (t.outst = [] → mergeForm s = true → s.scan.run = none → After (.syncOp b) s fun s' =>
      NoResult b.id s s' ∧ SameUnits s s' ∧ (∀ x, x < 0x14000 → localByte s' k x = localByte s k x)
      ∧ (∀ a, imageByte s' k a = imageByte s k a)
      ∧ (∀ m, (s'.eng k).localMerge = some m → b.thr.val ∉ m.owners)
      ∧ (∀ m, (s'.eng k).farMerge = some m → m.owner ≠ b.id)
      ∧ ((s.eng k).localMerge = none → (s.eng k).farMerge = none → on s')))

/-! ### Events, locks, mail and pads as a thread uses them (chapters 4, 7, 8) -/

/-- R136, R138, R213: a WAITE with no event at an armed input waits; one with an event reports the lowest input's (Table
4.17) into rd, consumes it, and goes on: a slack thread READY, a timed one still RUNNING (R78, R86; log entry 79). R219: SIG n raises channel 256 + 16 × engine + n two fabric cycles later, with the chain
time of that cycle. -/
def Obligations.WaitAndSignal : Prop :=
  ∀ (b : Beat) (rd : Reg) (n : BitVec 4) (s : State), Clean s →
    let t := s.thr b.id
    let open_ (k : Nat) : Bool := t.armed.getLsbD k && !s.ien b.id k
    let ch := 256 + 16 * b.eng.val + n.toNat
    (Ready b [] false s → t.stepping = false →
      ((∀ k, k < 4 → open_ k = true → tabFind t.ev k = none) → After (.waite b rd) s fun s' =>
        (s'.thr b.id).st = .waiting ∧ (s'.thr b.id).wait = .event rd ∧ (s'.thr b.id).pc = t.pc
        ∧ (s'.eng b.eng.val).holder ≠ some b.thr ∧ OtherRegs b.id [] s s' ∧ OnlyThread b.id s s')
      ∧ ∀ (k : Fin 4) (e : Ev), open_ k.val = true → tabFind t.ev k.val = some e →
        (∀ j, j < k.val → open_ j = true → tabFind t.ev j = none) →
        After (.waite b rd) s fun s' =>
          (s'.thr b.id).rd rd =
            BitVec.ofNat 32 (e.ovr.toNat * 2 ^ 13 + e.coinc.toNat * 2 ^ 12 + k.val * 2 ^ 10 + e.ch.toNat)
          ∧ (s.timed b.eng.val b.thr.val = false →
            (s'.thr b.id).st = .ready ∧ (s'.eng b.eng.val).holder ≠ some b.thr)
          ∧ (s.timed b.eng.val b.thr.val = true → (s'.thr b.id).st = .running)
          ∧ GoesOn b.id s s' ∧ tabFind (s'.thr b.id).ev k.val = none
          ∧ s'.hinge.notes = s.hinge.notes ++ [⟨b.id, k.val, e.ts⟩] ∧ OtherRegs b.id [rd] s s'
          ∧ SameMemory s s' ∧ OtherThreads b.id s s')
    ∧ (Settled s → FarIdle b s → Ready b [] true s → s.running = true → bit (s.reg (aHfCh ch)) 31 = false →
      (∀ r ∈ s.hinge.raised, ¬ (r.cyc = s.cycle + 2 ∧ r.ch = ch)) → After (.sig b n) s fun s' =>
      s'.hinge = { s.hinge with raised := s.hinge.raised ++ [⟨s.cycle + 2, ch, periods (s.nowIn 2), false, false⟩] }
      ∧ Issued b.id .fabric .done [] s s' ∧ NoResult b.id s s'
      ∧ SameMemory s s' ∧ OtherThreads b.id s s' ∧ s'.regs = s.regs)

/-- R116, R117, R125, R139, R140, R192 to R195: LOCK takes a free lock (code 0) or one marked BROKEN (code 1) and leaves one that another holds
(code 2); ULOCK frees the thread's own lock and leaves it unmarked; WAITL on a held lock waits, registered on its
address, and on a free one goes on, a slack thread READY, a timed one RUNNING (R78, R86; log entry 79). A full table answers 3, a
release by another master is counted and ignored. A misaligned address traps with ALIGN, one outside image memory with FARERR. No
other request has acted at the Tumbler unit in the cycle: the model lets one that comes in its turn act in a later one (log
entry 83). -/
def Obligations.ThreadLocks : Prop :=
  ∀ (b : Beat) (rd ra : Reg) (imm : BitVec 14) (s : State), Clean s → Settled s → FarIdle b s →
    Ready b [.reg ra] true s → s.sameNow.tumRank = 0 →
    let ea := (s.thr b.id).rd ra + imm.signExtend 32
    let a := ea.toNat
    let l := tabFind s.tum.locks a
    let others (s' : State) : Prop := ∀ x, x ≠ a → tabFind s'.tum.locks x = tabFind s.tum.locks x
    let asked (c : Word) (t : Bool) (s' : State) : Prop :=
      Issued b.id .fabric .done [(.reg rd, c), (.flagT, bitWord t)] s s' ∧ NoResult b.id s s' ∧ OtherThreads b.id s s'
      ∧ SameMemory s s' ∧ others s'
    let three (p : State → Prop) : Prop :=
      After (.lock b rd ra imm) s p ∧ After (.ulock b ra imm) s p ∧ After (.waitl b ra imm) s p
    ((s.thr b.id).stepping = false →
      (a % 4 ≠ 0 → three fun s' => TrapsAt b.id .align ea s s')
      ∧ (a % 4 = 0 → inImage a = false → three fun s' => TrapsAt b.id .farerr ea s s'))
    ∧ (inImage a = true → a % 4 = 0 →
    (l = none → s.tum.locks.length < 4096 → After (.lock b rd ra imm) s fun s' =>
      asked 0 true s' ∧ tabFind s'.tum.locks a = some (.held b.id))
    ∧ (l = some .marked → After (.lock b rd ra imm) s fun s' =>
      asked 1 true s' ∧ tabFind s'.tum.locks a = some (.held b.id))
    ∧ (∀ h, l = some (.held h) → After (.lock b rd ra imm) s fun s' =>
      asked (if h = b.id then 0 else 2) (decide (h = b.id)) s' ∧ s'.tum.locks = s.tum.locks)
    ∧ (l = none → 4096 ≤ s.tum.locks.length → After (.lock b rd ra imm) s fun s' =>
      asked 3 false s' ∧ s'.tum.locks = s.tum.locks ∧ Counted (aTum 8) 16 16 1 s s')
    ∧ (l ≠ some (.held b.id) → After (.ulock b ra imm) s fun s' =>
      s'.tum.locks = s.tum.locks ∧ Counted (aTum 8) 0 16 1 s s' ∧ Issued b.id .fabric .done [] s s' ∧ NoResult b.id s s'
      ∧ OtherThreads b.id s s' ∧ SameMemory s s')
    ∧ (l = some (.held b.id) → (∀ w ∈ s.tum.waiters, w.2 ≠ a) → After (.ulock b ra imm) s fun s' =>
      s'.tum.locks = tabErase s.tum.locks a ∧ Issued b.id .fabric .done [] s s' ∧ NoResult b.id s s'
      ∧ OtherThreads b.id s s' ∧ SameMemory s s')
    ∧ (∀ h, l = some (.held h) → (s.thr b.id).stepping = false → After (.waitl b ra imm) s fun s' =>
      (s'.thr b.id).st = .waiting ∧ (s'.thr b.id).wait = .lock ea ∧ tabFind s'.tum.waiters b.id = some a
      ∧ (s'.thr b.id).pc = (s.thr b.id).pc ∧ s'.tum.locks = s.tum.locks ∧ OtherRegs b.id [] s s'
      ∧ OtherThreads b.id s s' ∧ SameMemory s s')
    ∧ ((∀ h, l ≠ some (.held h)) → (s.thr b.id).stepping = false → After (.waitl b ra imm) s fun s' =>
      (s.timed b.eng.val b.thr.val = false → (s'.thr b.id).st = .ready ∧ (s'.eng b.eng.val).holder ≠ some b.thr)
      ∧ (s.timed b.eng.val b.thr.val = true → (s'.thr b.id).st = .running)
      ∧ NoResult b.id s s' ∧ OtherThreads b.id s s' ∧ SameMemory s s' ∧ s'.tum.locks = s.tum.locks))

/-- R199 to R202: MPUT stages word 0 and, by the thread that staged it, commits both words; MGET returns word 0 with word 1
latched for the thread, and then the latched word or, with none latched, word 1, with T the channel's VALID. A word 1 of any
other master is dropped and counted. R195: no other request has acted at the Tumbler unit in the cycle (log entry 83). -/
def Obligations.ThreadMail : Prop :=
  ∀ (b : Beat) (rd : Reg) (ch : Fin 64) (s : State), Clean s → Settled s → FarIdle b s → Ready b [.reg rd] true s →
    s.sameNow.tumRank = 0 →
    let m := s.mailCh ch.val
    let v := (s.thr b.id).rd rd
    let frame (s' : State) : Prop := NoResult b.id s s' ∧ OtherThreads b.id s s' ∧ SameMemory s s'
      ∧ (∀ c, c ≠ ch.val → s'.mailCh c = s.mailCh c) ∧ s'.tum.locks = s.tum.locks
    (After (.mput b rd ch false) s fun s' =>
      frame s' ∧ s'.mailCh ch.val = { m with half := true, stage := v, writer := b.id })
    ∧ (m.half = false ∨ m.writer ≠ b.id → After (.mput b rd ch true) s fun s' =>
      frame s' ∧ s'.mailCh ch.val = m ∧ Counted (aTum 12) 0 16 1 s s')
    ∧ (m.half = true → m.writer = b.id → After (.mput b rd ch true) s fun s' =>
      frame s' ∧ s'.mailCh ch.val = { m with valid := true, w0 := m.stage, w1 := v, half := false, seq := m.seq + 1 })
    ∧ (After (.mget b rd ch false) s fun s' =>
      frame s' ∧ s'.mailCh ch.val = m ∧ Issued b.id .fabric .done [(.reg rd, m.w0), (.flagT, bitWord m.valid)] s s'
      ∧ tabFind s'.tum.latch b.id = some (ch.val, m.w1))
    ∧ (∀ w, tabFind s.tum.latch b.id = some (ch.val, w) → After (.mget b rd ch true) s fun s' =>
      frame s' ∧ s'.mailCh ch.val = m ∧ Issued b.id .fabric .done [(.reg rd, w), (.flagT, bitWord m.valid)] s s'
      ∧ tabFind s'.tum.latch b.id = none)
    ∧ ((∀ w, tabFind s.tum.latch b.id ≠ some (ch.val, w)) → After (.mget b rd ch true) s fun s' =>
      frame s' ∧ s'.mailCh ch.val = m ∧ Issued b.id .fabric .done [(.reg rd, m.w1), (.flagT, bitWord m.valid)] s s'
      ∧ s'.tum.latch = s.tum.latch)

/-- R106, R130, R137, R259, R270: PSET and PCAP send one request to the pad island: a timed thread's ahead of those of slack
threads, behind the other earlier ones of its engine. A PSET with level 0b11 and a PCAP with an odd rd trap with ILLOP, INFO the
instruction word. -/
def Obligations.ThreadPads : Prop :=
  ∀ (b : Beat) (pad : PadSelect) (level : BitVec 2) (rb rd : Reg) (s : State), Clean s → Settled s → FarIdle b s →
    Ready b (.reg rb :: padReads pad) true s →
    let t := s.thr b.id
    let sent (r : PadReq) (dests : List (Dest × Word)) (s' : State) : Prop :=
      (s'.eng b.eng.val).padReqs =
        portInsert (fun i => s.timed (i / 16) (i % 16)) r (s.eng b.eng.val).padReqs ∧ Issued b.id .pad .flight dests s s'
      ∧ NoResult b.id s s' ∧ OnlyThread b.id s s'
    (t.stepping = false → ∀ j : Reg,
      (After (.pset b (.reg j) 3 rb) s fun s' =>
        TrapsAt b.id .illop (BitVec.ofNat 32 (0x3A * 2 ^ 26 + j.val * 2 ^ 18 + rb.val * 2 ^ 14 + 2 ^ 13 + 3 * 2 ^ 7)) s s')
      ∧ (rd.val % 2 = 1 → After (.pcap b rd (.reg j)) s fun s' =>
        TrapsAt b.id .illop (BitVec.ofNat 32 (0x3B * 2 ^ 26 + rd.val * 2 ^ 22 + j.val * 2 ^ 18 + 2 ^ 13)) s s')
      ∧ ∀ p : BitVec 7, (After (.pset b (.num p) 3 rb) s fun s' =>
          TrapsAt b.id .illop (BitVec.ofNat 32 (0x3A * 2 ^ 26 + rb.val * 2 ^ 14 + 3 * 2 ^ 7 + p.toNat)) s s')
        ∧ (rd.val % 2 = 1 → After (.pcap b rd (.num p)) s fun s' =>
          TrapsAt b.id .illop (BitVec.ofNat 32 (0x3B * 2 ^ 26 + rd.val * 2 ^ 22 + p.toNat)) s s'))
    ∧ (level ≠ 3 → After (.pset b pad level rb) s (sent ⟨b.id, padOf t pad, some (level, t.rd rb), 0, t.pc⟩ []))
    ∧ (rd.val % 2 = 0 → After (.pcap b rd pad) s
        (sent ⟨b.id, padOf t pad, none, rd, t.pc⟩ [(.reg rd, 0), (.reg (rd + 1), 0), (.flagT, 0)]))

/-! ### Register accesses (chapter 1) -/

/-- R13, R14: a write of a register without behaviour of its own sets the RW bits, clears the W1C bits written 1, and leaves the
others; one with behaviour of its own also acts. R28: a register of the always-on island takes it over the slow crossing. R37,
R42: a bit that hardware sets in the same cycle stays set; a write that the order of the cycle puts before that of a higher identity,
come first, acts in the next cycle (the model's choice, log entry 83). Image memory and the Ward table take the word. R24, R143: a
write to an address that is not there or to an island that is off, and one that a master may not make, answer a thread with FARERR or
PRIV and the address, and stop a Shuttle channel. That the gate of R24 goes before the privilege check is the model's reading (log
entry 23), and so is the form of a refusal to a thread: an outstanding request of its own, at the thread's present pc, that has ended
in the error (log entry 69). -/
def Obligations.RegisterWrites : Prop :=
  ∀ (id : Id) (addr v : Word) (s : State),
    let a := addr.toNat
    let c := Instr.registerWrite id addr v
    let t := s.thr id.toNat
    let told (e : Trap) (s' : State) : Prop :=
      (s'.thr id.toNat).outst = t.outst ++ [⟨t.pc, .done, [], some (e, addr), isleOf a, t.nextOrd⟩]
      ∧ ThreadsBut [id.toNat] s s'
    (∀ r, a ∈ plainRegs → regRow a = some r → Lands id a v s → After c s fun s' =>
      (∀ i, i < 32 → bit (s'.reg a) i =
        if r.rw.testBit i then bit v i else bit (s.reg a) i && !(r.w1c.testBit i && bit v i))
      ∧ RegsBut [a] s s' ∧ OnlyIn [.regs] s s')
    ∧ (a % 4 = 0 → a ∉ aonRegs → Lands id a v s → After c s fun s' =>
      s' = ((s.noteWrites id.toNat [a]).writeActs id.toNat a v).settle)
    ∧ (a ∈ aonRegs → Reaches id a v s → After c s fun s' =>
      s'.sys = { s.sys with aon := s.sys.aon ++ [⟨a, v, if id.toNat < 256 then some id.toNat else none⟩] }
      ∧ OnlyIn [.sys] s s')
    ∧ (∀ r i, a ∈ plainRegs → regRow a = some r → Reaches id a v s → i < 32 → r.w1c.testBit i = true →
      r.rw.testBit i = false → s.sameNow.writes = [] → s.setNow a i = true → bit (s.reg a) i = true → After c s fun s' => bit (s'.reg a) i = true)
    ∧ (∀ r h, a ∈ wordRegs → regRow a = some r → Reaches id a v s →
      (a, h) ∈ s.sameNow.writes → id.toNat < h → 256 ≤ h → After c s fun s' =>
        s'.cycle = s.cycle + 1 ∧ s' = (((s.pass 1).noteWrites id.toNat [a]).writeActs id.toNat a v).settle
        ∧ ∀ i, i < 32 → r.rw.testBit i = true → bit (s'.reg a) i = bit v i)
    ∧ (inImage a = true ∨ inWard a = true → a % 4 = 0 → s.running = true → s.oddTwin id.toNat = false → Settled s →
      Unsent id.toNat s → Clean s → s.scan.run = none → After c s fun s' =>
        readWord s'.mem a = v ∧ MemoryOutside a 4 s s' ∧ OnlyIn [.mem] s s')
    ∧ (a % 4 = 0 → s.running = true → s.oddTwin id.toNat = false → Unsent id.toNat s → s.sameNow.tumRank = 0 →
      (inRegs a = true → s.gated a = false → mayWrite id.toNat a v = false → ¬ (id = 288 ∧ a = aLrpStat) →
        (id.toNat < 256 → After c s fun s' => told .priv s' ∧ OnlyIn [.threads] s s')
        ∧ (isShuttle id.toNat = true → s.tum.waiters = [] → (s.chan (id.toNat - 256)).run = true → After c s fun s' =>
          (s'.chan (id.toNat - 256)).run = false ∧ s'.mem = s.mem ∧ s'.sys = s.sys)
        ∧ (288 ≤ id.toNat → After c s fun s' => OnlyIn [] s s'))
      ∧ (inFar a = false → id.toNat < 256 → After c s fun s' => told .farerr s' ∧ OnlyIn [.threads] s s')
      ∧ (s.gated a = true → inRegs a = true → id.toNat < 256 → Raisable 666 s → After c s fun s' =>
        told .farerr s' ∧ bit (s'.reg aXflag) 0 = true ∧ fld (s'.reg aXerr) 0 9 = id.toNat
        ∧ fld (s'.reg aXerr) 16 16 = min 0xFFFF (fld (s.reg aXerr) 16 16 + 1) ∧ RaisedNow 666 s s'
        ∧ RegsBut [aXerr, aXflag] s s' ∧ OnlyIn [.threads, .regs, .hinge] s s'))
    ∧ (id = 288 → a = aLrpStat → s.running = true → bit v 29 = true → After c s fun s' =>
      s'.lrp = { s.lrp with rej := false } ∧ OnlyIn [.lrp] s s')

/-! ### Engine power, engine blocks, debug (chapters 2, 3, 5) -/

/-- R59 to R61, R63, R468, R469: a write of SYS_ENGPWR switches islands off, retains them or queues their power-up; a write of
SYS_ENGSTART queues starts; the governor admits the head of its queue; an admitted island runs at its lock. -/
def Obligations.EnginePower : Prop :=
  ∀ (id : Id) (eng : Fin 16) (v : Word) (s : State),
    let k := eng.val
    let code := fld v (2 * k) 2
    (Lands id aEngPwr v s → After (.sysEngpwrWrite id v) s fun s' =>
      (code = 0 → (s'.eng k).power = .off ∧ s'.engPwr k = 0 ∧ (∀ q ∈ s'.sys.gov, q.eng ≠ k)
        ∧ ((s.eng k).power ≠ .off → ∀ t, t < 16 → s'.thr (16 * k + t) = {}))
      ∧ (code = 1 → (s.eng k).power = .on → (s'.eng k).power = .retained)
      ∧ (code = 1 → (s.eng k).power = .powering → (s'.eng k).power = .powering ∧ (s'.eng k).retainAtLock = true)
      ∧ (code = 1 → (s.eng k).power = .off → (s'.eng k).power = .off ∧ s'.engPwr k = 0)
      ∧ (2 ≤ code → s'.engPwr k = 2)
      ∧ (2 ≤ code → (s.eng k).power = .off ∨ (s.eng k).power = .retained →
        (s'.eng k).power = (s.eng k).power ∧ ∃ q ∈ s'.sys.gov, q.eng = k ∧ q.powerUp = true)
      ∧ s'.sys.mode = s.sys.mode ∧ s'.cycle = s.cycle ∧ s'.tb = s.tb)
    ∧ (Lands id aEngStart v s → bit v k = true → s.twin k = false → After (.sysEngstartWrite id v) s fun s' =>
      (∃ q ∈ s'.sys.gov, q.eng = k ∧ q.start = true) ∧ bit (s'.reg aEngStart) k = true ∧ RegsBut [aEngStart] s s'
      ∧ OnlyIn [.regs, .sys] s s')
    ∧ (∀ q qs, s.running = true → s.sys.gov = q :: qs →
      let due := max q.since (s.sys.lastAdm.elim q.since (· + s.govGap))
      let u := s.atCycle due
      After .governorAdmission s fun s' =>
        s'.cycle = u.cycle ∧ s'.sys.gov = qs ∧ s'.sys.lastAdm = some due
        ∧ fld (s'.reg aGovSt) 16 16 = min 0xFFFF (due - q.since)
        ∧ (q.powerUp = true → (s.eng q.eng).power = .off ∨ (s.eng q.eng).power = .retained →
          (s'.eng q.eng).power = .powering ∧ (s'.eng q.eng).admitted = due
          ∧ (q.start = true → (s'.eng q.eng).startAtLock = true))
        ∧ (q.start = true → (s.eng q.eng).power = .on → (s.thr (16 * q.eng)).st = .stopped →
          (s'.thr (16 * q.eng)).st = .ready ∧ (s'.thr (16 * q.eng)).pc = 0)
        ∧ EnginesBut [q.eng] s s' ∧ ThreadsBut [16 * q.eng] s s' ∧ SameMemory s s')
    ∧ (s.running = true → (s.eng k).power = .powering → (s.eng k).lockHeld = false → s.twin k = false →
      (s.eng k).retainAtLock = false → bit (s.reg (aSys 0x3000)) 0 = false → After (.islandLock eng) s fun s' =>
        s'.cycle = max s.cycle ((s.eng k).admitted + 240) ∧ (s'.eng k).power = .on ∧ (s'.eng k).lockedAt = s'.cycle
        ∧ (s'.eng k).startAtLock = false
        ∧ (∀ t, t < 16 → (s.thr (16 * k + t)).heldWake = true →
          (s'.thr (16 * k + t)).st = .ready ∧ (s'.thr (16 * k + t)).heldWake = false)
        ∧ ((s.eng k).startAtLock = true → (s.thr (16 * k)).st = .stopped → (s.thr (16 * k)).heldWake = false →
          (s'.thr (16 * k)).st = .ready ∧ (s'.thr (16 * k)).pc = 0)
        ∧ EnginesBut [k] s s' ∧ SameMemory s s')

/-- R84, R85, R94, R97 to R101, R159: a keyed write of ENG_CTL.RST resets every thread of the engine and queues its start, and a
write without the key does nothing; ENG_WHCTL.COMMIT marks a commit, which takes effect at the next position 0, but not on a stopped
Twin pair; TRP_REL releases trapped threads to READY at their pc, and a halted one that was trapped resumes as READY (R165). A
Twin pair whose outputs agree runs as one engine; where they differ, or one engine alone finds its word uncorrectable, both stop,
SYS_TWINERR records the first of it, and the unit enters Safe; a stopped pair executes nothing. That the stop for a word that one
engine finds bad goes ahead of an entry is the model's choice (log entry 113). -/
def Obligations.EngineBlocks : Prop :=
  ∀ (id : Id) (eng : Fin 16) (v : Word) (s : State), let k := eng.val
    (Lands id (aEng k 0) 0xE5C20001 s → s.twin k = false → s.tum.waiters = [] →
      After (.engineReset id eng 0xE5C20001) s fun s' =>
        (∀ t, t < 16 → s'.thr (16 * k + t) = {}) ∧ (s'.eng k).holder = none ∧ (s'.eng k).twinStop = false
        ∧ (s'.eng k).localMerge = none ∧ (s'.eng k).farMerge = none
        ∧ (∃ q ∈ s'.sys.gov, q.eng = k ∧ q.start = true) ∧ bit (s'.reg aEngStart) k = true
        ∧ (mergeForm s = true → ∀ j, j / 16 ≠ k → s'.thr j = s.thr j))
    ∧ (Lands id (aEng k 0) v s → fld v 16 16 ≠ 0xE5C2 ∨ bit v 0 = false → After (.engineReset id eng v) s (OnlyIn [] s))
    ∧ (Lands id (aEng k 8) v s → bit v 0 = true → After (.engWhctlCommit id eng v) s fun s' =>
      s'.eng k = { s.eng k with commitPend := true } ∧ EnginesBut [k] s s' ∧ OnlyIn [.engines] s s')
    ∧ (s.running = true → (s.eng k).commitPend = true → s.islandOn k = true → (s.eng k).twinStop = true →
      After (.wheelSwitch eng) s (OnlyIn [] s))
    ∧ (s.running = true → (s.eng k).commitPend = true → s.islandOn k = true → (s.eng k).twinStop = false →
      s.setNow (aEng k 8) 1 = false → After (.wheelSwitch eng) s fun s' =>
      (∀ i, i < 4 → s'.reg (aEng k (0x20 + 4 * i)) = s.reg (aEng k (0x10 + 4 * i)))
      ∧ RegsBut ((upTo 4).map fun i => aEng k (0x20 + 4 * i)) s s' ∧ (s'.eng k).commitPend = false
      ∧ EnginesBut [k] s s'
      ∧ (∀ t, t < 16 → s.timed k t = true → s'.timed k t = false → (s.thr (16 * k + t)).st = .running →
        (s'.thr (16 * k + t)).st = .ready)
      ∧ (∀ j, (s.thr j).st ≠ .running → s'.thr j = s.thr j) ∧ OnlyIn [.regs, .engines, .threads] s s')
    ∧ (Lands id (aTrp k 4) v s → Clean s → After (.trpRel id eng v) s fun s' =>
      (∀ t, t < 16 → bit v t = true → (s.thr (16 * k + t)).st = .trapped →
        (s'.thr (16 * k + t)).st = .ready ∧ (s'.thr (16 * k + t)).pc = (s.thr (16 * k + t)).pc
        ∧ OtherRegs (16 * k + t) [] s s')
      ∧ (∀ t, t < 16 → bit v t = true → (s.thr (16 * k + t)).st = .halted → (s.thr (16 * k + t)).hprev = .trapped →
        (s'.thr (16 * k + t)).st = .halted ∧ (s'.thr (16 * k + t)).hprev = .ready
        ∧ (s'.thr (16 * k + t)).pc = (s.thr (16 * k + t)).pc ∧ OtherRegs (16 * k + t) [] s s')
      ∧ (∀ j, (s.thr j).st ≠ .trapped → ¬ ((s.thr j).st = .halted ∧ (s.thr j).hprev = .trapped) → s'.thr j = s.thr j)
      ∧ (∀ j, j / 16 ≠ k ∨ bit v (j % 16) = false → s'.thr j = s.thr j) ∧ OnlyIn [.threads] s s')
    ∧ (∀ b : Beat, b.eng = eng → s.twin k = true → k % 2 = 0 → Clean s → (s.thr b.id).stepping = false →
      let t := s.thr b.id
      let stopped (diff : Nat) (s' : State) : Prop :=
        (s'.eng k).twinStop = true ∧ (s'.eng (k + 1)).twinStop = true ∧ EnginesBut [k, k + 1] s s' ∧ s'.engRuns k = false
        ∧ s'.sys.mode = .safe ∧ bit (s'.reg aSafeCause) 2 = true
        ∧ s'.reg aTwinErr = (if bit (s.reg aTwinErr) 31 then s.reg aTwinErr
          else BitVec.ofNat 32 (2 ^ 31 + k / 2 * 2 ^ 24 + b.pos.val * 2 ^ 20 + b.thr.val * 2 ^ 16 + diff))
      (s.engRuns k = true → s.atPosition k b.pos.val = some b.thr.val →
        (s.takePosition k b.pos.val b.thr.val).boundary b.id = .execute → t.div = none → t.pc ≠ 0xFFFC →
        (t.faBad = false → t.faBad2 = false → b.diff ≠ 0 → After (.nop b 0xFC000000) s fun s' =>
          stopped b.diff.toNat s' ∧ GoesOn b.id s s' ∧ OtherRegs b.id [] s s' ∧ OtherThreads b.id s s' ∧ SameMemory s s')
        ∧ (t.faBad = false → t.faBad2 = false → b.diff = 0 → t.faWord = t.faWord2 → After (.nop b 0xFC000000) s fun s' =>
          GoesOn b.id s s' ∧ OtherRegs b.id [] s s' ∧ OtherThreads b.id s s' ∧ SameMemory s s'
          ∧ (s'.eng k).twinStop = (s.eng k).twinStop ∧ s'.sys = s.sys ∧ s'.regs = s.regs)
        ∧ (t.faBad = false → t.faBad2 = true → b.diff = 0 → t.inTrap = false → fld (s.reg (aTrp k 0)) 8 2 = 1 →
          After (.nop b 0xFC000000) s fun s' =>
            stopped 16 s' ∧ (s'.thr b.id).pc = t.pc ∧ OtherRegs b.id [] s s' ∧ OtherThreads b.id s s' ∧ SameMemory s s'
            ∧ Recorded k b.id 4 1 false false t.faVec t.faAddr t.faAddr s s'))
      ∧ ((s.eng k).twinStop = true → After (.nop b 0xFC000000) s (· = s)))

/-- R163, R165, R166: FREEZE and DBG_HALT halt the threads of running islands (a RUNNING one at its next boundary, any other at
once, with its state in HPREV), FREEZE back at 0 and DBG_RUN return a halted thread to the state in HPREV, DBG_STEP starts
one step of a halted READY one; DBG_CTXDATA reads every selector and writes the working registers, pc and status of a
thread that executes nothing; DBG_MDATA reads and writes SRAM and advances the address; a refused access sets
ERR, and one to an island that is off is counted (R24). The model's own are: that a write for an engine whose island does not run is
lost (log entry 89), that DBG_RUN withdraws a halt not yet taken (log entry 90), that a write of a read-only selector sets ERR (log
entry 92), and that an access to an island that is off sets ERR beside the count (log entry 28). -/
def Obligations.Debug : Prop :=
  ∀ (id : Id) (eng thr : Fin 16) (r : Reg) (v : Word) (s : State),
    let k := eng.val
    let j := 16 * k + thr.val
    let old := s.reg (aSys 0x3000)
    let keeps (s' : State) : Prop := (s'.thr j).pc = (s.thr j).pc ∧ OtherRegs j [] s s'
    let halted (s' : State) : Prop :=
      ((s.thr j).st = .running → (s'.thr j).haltReq = true ∧ (s'.thr j).st = .running)
      ∧ ((s.thr j).st ≠ .running → (s'.thr j).st = .halted ∧ (s'.thr j).hprev = (s.thr j).st)
      ∧ keeps s'
    let back (s' : State) : Prop :=
      ((s.thr j).hprev ≠ .waiting → (s'.thr j).st = (s.thr j).hprev)
      ∧ (∀ rd, (s.thr j).hprev = .waiting → (s.thr j).wait = .event rd → (s.thr j).ev = [] → (s'.thr j).st = .waiting)
    let others (s' : State) : Prop := ∀ t, t / 16 ≠ k ∨ bit v (t % 16) = false → s'.thr t = s.thr t
    let addr := 4 * fld (s.reg (aSys 0x300C)) 2 15
    let me := fld (s.reg (aSys 0x300C)) 17 4
    let next := if addr = 0x13FFC then 0 else addr / 4 + 1
    let gated (a : List Nat) (s' : State) : Prop :=
      s'.reply = 0 ∧ Flagged (aSys 0x3000) 3 s s' ∧ bit (s'.reg aXflag) 0 = true ∧ fld (s'.reg aXerr) 0 9 = id.toNat
      ∧ RaisedNow 666 s s' ∧ RegsBut (a ++ [aSys 0x3000, aXflag, aXerr]) s s' ∧ OnlyIn [.regs, .hinge, .reply] s s'
    (Lands id (aSys 0x3000) v s →
      (bit old 0 = false → bit v 0 = true → After (.dbgFreeze id v) s fun s' =>
        (s.islandOn k = true → s.lead k = k → (s.thr j).st ≠ .halted → halted s' ∧ (s'.thr j).frozen = true)
        ∧ (s.islandOn k = false ∨ s.lead k ≠ k ∨ (s.thr j).st = .halted → s'.thr j = s.thr j)
        ∧ RegsBut [aSys 0x3000] s s' ∧ OnlyIn [.threads, .engines, .regs] s s')
      ∧ (bit old 0 = true → bit v 0 = false → bit old 1 = false → After (.dbgFreeze id v) s fun s' =>
        (s.islandOn k = true → s.lead k = k → (s.thr j).st = .halted → (s.thr j).frozen = true →
          back s' ∧ (s'.thr j).frozen = false ∧ (s'.thr j).pc = (s.thr j).pc)
        ∧ (s.islandOn k = false ∨ s.lead k ≠ k ∨ (s.thr j).frozen = false → s'.thr j = s.thr j) ∧ SameMemory s s')
      ∧ (bit old 0 = bit v 0 → bit old 0 = false ∨ bit old 1 = false ∨ bit v 1 = true → After (.dbgFreeze id v) s fun s' =>
        (∀ i, i < 2 → bit (s'.reg (aSys 0x3000)) i = bit v i) ∧ RegsBut [aSys 0x3000] s s' ∧ OnlyIn [.regs] s s'))
    ∧ (Lands id (0x500F3100 + 0x20 * k) v s → After (.dbgHalt id eng v) s fun s' =>
      (s.islandOn k = true → bit v thr.val = true → (s.thr j).st ≠ .halted → halted s')
      ∧ (s.islandOn k = true → bit v thr.val = true → (s.thr j).st = .halted → s'.thr j = s.thr j)
      ∧ (s.islandOn k = false → OnlyIn [] s s') ∧ others s' ∧ OnlyIn [.threads, .engines] s s')
    ∧ (Lands id (0x500F3104 + 0x20 * k) v s → After (.dbgRun id eng v) s fun s' =>
      (s.islandOn k = true → bit v thr.val = true → (s.thr j).st = .halted →
        back s' ∧ (s'.thr j).pc = (s.thr j).pc ∧ ((s.thr j).hprev ≠ .waiting → OtherRegs j [] s s'))
      ∧ (s.islandOn k = true → bit v thr.val = true → (s.thr j).st ≠ .halted →
        s'.thr j = { s.thr j with haltReq := false, frozen := false })
      ∧ (s.islandOn k = false → OnlyIn [] s s') ∧ others s' ∧ SameMemory s s')
    ∧ (Lands id (0x500F3108 + 0x20 * k) v s → After (.dbgStep id eng v) s fun s' =>
      (s.islandOn k = true → bit v thr.val = true → (s.thr j).st = .halted → (s.thr j).hprev = .ready →
        (s'.thr j).st = .ready ∧ (s'.thr j).stepping = true ∧ keeps s')
      ∧ ((s.thr j).st ≠ .halted ∨ (s.thr j).hprev ≠ .ready → s'.thr j = s.thr j)
      ∧ (s.islandOn k = false → OnlyIn [] s s') ∧ others s' ∧ SameMemory s s')
    ∧ (s.lead k = k → s.islandOn k = true → fld (s.reg (aSys 0x3004)) 8 8 = 0x10 * k + thr.val →
      let sel := fld (s.reg (aSys 0x3004)) 0 8
      let t := s.thr j
      (Answers id (aSys 0x3008) s → After (.dbgCtxdataAccess id none) s fun s' =>
        s'.reply = (if sel < 16 then t.rd (Fin.ofNat 16 sel) else if sel = 0x10 then t.pc else if sel = 0x11 then t.status
          else if sel = 0x12 then t.vbase else if sel = 0x13 then t.slim else if sel = 0x14 then t.rdir
          else if sel = 0x15 then s.wdcnt j else if sel = 0x16 then word t.hprev.code else 0)
        ∧ OnlyIn [.reply] s s')
      ∧ (Lands id (aSys 0x3008) v s → t.st ∈ [.stopped, .trapped, .halted] →
        (sel = r.val → After (.dbgCtxdataAccess id (some v)) s fun s' =>
          (s'.thr j).rd r = v ∧ OtherRegs j [r] s s' ∧ (s'.thr j).pc = t.pc ∧ ThreadsBut [j] s s'
          ∧ OnlyIn [.threads] s s')
        ∧ (sel = 0x10 → v &&& 0xFFFC = v → After (.dbgCtxdataAccess id (some v)) s fun s' =>
          s'.thr j = { t with pc := v } ∧ ThreadsBut [j] s s' ∧ OnlyIn [.threads] s s')
        ∧ (sel = 0x11 → After (.dbgCtxdataAccess id (some v)) s fun s' =>
          (s'.thr j).status = v &&& statusBits ∧ OtherRegs j [] s s' ∧ ThreadsBut [j] s s' ∧ OnlyIn [.threads] s s')
        ∧ (0x14 ≤ sel → After (.dbgCtxdataAccess id (some v)) s fun s' =>
          Flagged (aSys 0x3000) 3 s s' ∧ RegsBut [aSys 0x3000] s s' ∧ OnlyIn [.regs] s s'))
      ∧ (Lands id (aSys 0x3008) v s → t.st ∈ [.ready, .running, .waiting] →
        After (.dbgCtxdataAccess id (some v)) s fun s' =>
          Flagged (aSys 0x3000) 3 s s' ∧ RegsBut [aSys 0x3000] s s' ∧ OnlyIn [.regs] s s'))
    ∧ (s.islandOn (s.lead (fld (s.reg (aSys 0x3004)) 12 4)) = false → Raisable 666 s →
      (Answers id (aSys 0x3008) s → Fresh s → After (.dbgCtxdataAccess id none) s (gated []))
      ∧ (Lands id (aSys 0x3008) v s → After (.dbgCtxdataAccess id (some v)) s fun s' =>
        Flagged (aSys 0x3000) 3 s s' ∧ RaisedNow 666 s s' ∧ RegsBut [aSys 0x3000, aXflag, aXerr] s s'
        ∧ OnlyIn [.regs, .hinge] s s'))
    ∧ (s.islandOn me = false → Raisable 666 s → Answers id (aSys 0x3010) s → Fresh s →
      After (.dbgMdataAccess id none) s fun s' => gated [aSys 0x300C] s' ∧ FieldSet (aSys 0x300C) 2 15 next s s')
    ∧ (s.lead me = me → s.islandOn me = true → (s.eng me).localMerge = none → Clean s → addr < 0x14000 →
      (Answers id (aSys 0x3010) s → After (.dbgMdataAccess id none) s fun s' =>
        s'.reply = readWord s.mem (engKey me addr) ∧ FieldSet (aSys 0x300C) 2 15 next s s'
        ∧ RegsBut [aSys 0x300C] s s' ∧ OnlyIn [.regs, .reply] s s')
      ∧ (Lands id (aSys 0x3010) v s → After (.dbgMdataAccess id (some v)) s fun s' =>
        readWord s'.mem (engKey me addr) = v ∧ MemoryOutside (engKey me addr) 4 s s'
        ∧ FieldSet (aSys 0x300C) 2 15 next s s' ∧ RegsBut [aSys 0x300C] s s'
        ∧ (∀ t, t < 16 → addr < 0x10000 → (s.thr (16 * me + t)).faAddr.toNat = addr →
          (s.thr (16 * me + t)).st ≠ .stopped → (s'.thr (16 * me + t)).faWord = v)
        ∧ OnlyIn [.mem, .regs, .threads] s s'))

/-! ### Memory errors and merge entries (chapter 6) -/

/-- R176 to R180, R182, R183, R185, R186, R188: a scrubber step with room checks the word of the repair slot or moves its position on, and rewrites a code word with one
inverted bit; ECC_CNT counts it and one with two, which stays;
CLRCNT clears the counts; a write of ECC_INJ with ARM arms the injection; a merge entry that no store joins is written
to memory, 16 engine clocks (8 fabric cycles) after its last join. -/
def Obligations.MemoryErrors : Prop :=
  ∀ (id : Id) (m : Fin 35) (eng : Fin 16) (v : Word) (s : State),
    let pos := tabGet 0 s.ecc.pos m.val
    let key := cwKey m.val pos
    let k := eng.val
    let scrubs := s.sys.mode.executes && bit (s.reg (aSys 0x4000)) 0 && s.memRuns m.val && s.scrubRoom m.val
    (scrubs = false → After (.scrubStep m) s (OnlyIn [] s))
    ∧ (∀ x, scrubs = true → tabFind s.ecc.repair m.val = some x → tabGet 0 s.ecc.bad x = 0 →
      After (.scrubStep m) s fun s' =>
        s'.ecc = { s.ecc with repair := tabErase s.ecc.repair m.val } ∧ OnlyIn [.ecc] s s')
    ∧ (scrubs = true → tabFind s.ecc.repair m.val = none → pos < cwCount m.val →
      (tabGet 0 s.ecc.bad key = 0 → After (.scrubStep m) s fun s' =>
        tabGet 0 s'.ecc.pos m.val = (pos + 1) % cwCount m.val ∧ s'.ecc.bad = s.ecc.bad ∧ s'.ecc.repair = s.ecc.repair
        ∧ RegsBut [aEcc m.val 0x14] s s' ∧ OnlyIn [.ecc, .regs] s s')
      ∧ (ones (tabGet 0 s.ecc.bad key) = 1 → After (.scrubStep m) s fun s' =>
        tabFind s'.ecc.bad key = none ∧ (∀ a, a ≠ key → tabFind s'.ecc.bad a = tabFind s.ecc.bad a) ∧ SameMemory s s'
        ∧ Counted (aEcc m.val 0) 0 16 1 s s' ∧ (s'.reg (aEcc m.val 8)).toNat = reported key
        ∧ OnlyIn [.ecc, .regs, .mem, .hinge] s s')
      ∧ (ones (tabGet 0 s.ecc.bad key) = 2 → After (.scrubStep m) s fun s' =>
        tabGet 0 s'.ecc.pos m.val = (pos + 1) % cwCount m.val ∧ s'.ecc.bad = s.ecc.bad
        ∧ Counted (aEcc m.val 0) 16 16 1 s s' ∧ OnlyIn [.ecc, .regs, .hinge] s s'))
    ∧ (Lands id (aSys 0x4000) v s → bit v 2 = true → After (.clrcnt id v) s fun s' =>
      (∀ n, n < 35 → s'.reg (aEcc n 0) = 0) ∧ RegsBut (aSys 0x4000 :: (upTo 35).map (aEcc · 0)) s s'
      ∧ (∀ i, i < 2 → bit (s'.reg (aSys 0x4000)) i = bit v i) ∧ OnlyIn [.regs] s s')
    ∧ (Lands id aEccInj v s → bit v 31 = true → fld v 24 6 ≤ 34 →
      fld v 0 7 ≤ (if fld v 24 6 < 32 then 38 else 71) → fld v 8 7 ≤ (if fld v 24 6 < 32 then 38 else 71) →
      After (.eccInjArm id v) s fun s' =>
        (∀ i, i < 32 → (0xFF007F7F).testBit i = true → bit (s'.reg aEccInj) i = bit v i) ∧ RegsBut [aEccInj] s s'
        ∧ OnlyIn [.regs] s s')
    ∧ (∀ e, (s.eng k).localMerge = some e → s.islandOn k = true → Clean s → localForm e = true →
      let u := s.atCycle (e.last + 8)
      After (.localMergeTimeout eng) s fun s' =>
        s'.eng k = { s.eng k with localMerge := none } ∧ EnginesBut [k] s s'
        ∧ (∀ x, x < 0x14000 → readByte s'.mem (engKey k x) = localByte s k x)
        ∧ MemoryOutside (engKey k e.addr) 4 s s' ∧ OnlyIn [.mem, .engines] u s')
    ∧ (∀ e, (s.eng k).farMerge = some e → s.islandOn k = true → Clean s → farForm k e = true → s.scan.run = none →
      let u := s.atCycle (e.last + 8)
      After (.farMergeTimeout eng) s fun s' =>
        s'.eng k = { s.eng k with farMerge := none } ∧ EnginesBut [k] s s'
        ∧ (∀ a, inImage a = true → readByte s'.mem a = imageByte s k a) ∧ MemoryOutside e.addr 8 s s'
        ∧ (∀ q ∈ (s'.thr e.owner).outst, q.phase ≠ .merge) ∧ ThreadsBut [e.owner] s s'
        ∧ OnlyIn [.mem, .engines, .threads] u s')

/-! ### The Tumbler unit (chapter 7) -/

/-- R192, R193, R196, R198, R206, R207: acquisitions, releases, mark clears and queries through the registers answer in the
writer's TUM_LRES and TUM_LINFO; BCLRALL clears every mark, CNTCLR the counters; the quiet detector signals DEADLK at
4,096 quiet cycles. -/
def Obligations.LockRegisters : Prop :=
  ∀ (id : Id) (woff : BitVec 17) (s : State), woff.toNat < 0x18000 →
    let a := 0x40000000 + 4 * woff.toNat
    let l := tabFind s.tum.locks a
    let lands (op : Nat) : Prop := Lands id 0x50040010 (word (op * 2 ^ 30 + woff.toNat * 4)) s
    let res (c : Nat) (s' : State) : Prop := tabGet 7 s'.tum.lres id.toNat = word c
    let held (s' : State) : Prop := tabFind s'.tum.locks a = some (.held id.toNat)
      ∧ ∀ x, x ≠ a → tabFind s'.tum.locks x = tabFind s.tum.locks x
    (lands 0 → (l = none → s.tum.locks.length < 4096 → After (.lreqAcquire id woff) s fun s' =>
        res 0 s' ∧ held s' ∧ OnlyIn [.tum] s s')
      ∧ (l = some .marked → After (.lreqAcquire id woff) s fun s' => res 1 s' ∧ held s' ∧ OnlyIn [.tum] s s')
      ∧ (∀ h, l = some (.held h) → After (.lreqAcquire id woff) s fun s' =>
        res (if h = id.toNat then 0 else 2) s' ∧ s'.tum.locks = s.tum.locks ∧ OnlyIn [.tum] s s')
      ∧ (l = none → 4096 ≤ s.tum.locks.length → After (.lreqAcquire id woff) s fun s' =>
        res 3 s' ∧ s'.tum.locks = s.tum.locks ∧ Counted (aTum 8) 16 16 1 s s' ∧ OnlyIn [.tum, .regs] s s'))
    ∧ (lands 1 → (l = some (.held id.toNat) → (∀ w ∈ s.tum.waiters, w.2 ≠ a) → After (.lreqRelease id woff) s fun s' =>
        res 4 s' ∧ tabFind s'.tum.locks a = none ∧ (∀ x, x ≠ a → tabFind s'.tum.locks x = tabFind s.tum.locks x)
        ∧ OnlyIn [.tum] s s')
      ∧ (l ≠ some (.held id.toNat) → After (.lreqRelease id woff) s fun s' =>
        res 5 s' ∧ s'.tum.locks = s.tum.locks ∧ Counted (aTum 8) 0 16 1 s s' ∧ RegsBut [aTum 8] s s'
        ∧ OnlyIn [.tum, .regs] s s'))
    ∧ (lands 2 → After (.lreqClear id woff) s fun s' =>
      res 6 s' ∧ tabFind s'.tum.locks a = (if l = some .marked then none else l)
      ∧ (∀ x, x ≠ a → tabFind s'.tum.locks x = tabFind s.tum.locks x) ∧ OnlyIn [.tum] s s')
    ∧ (Lands id 0x50040018 (word (woff.toNat * 4)) s → (∀ h, l = some (.held h) → h < 512) →
      After (.tumLqry id woff) s fun s' =>
        let info := tabGet 0 s'.tum.linfo id.toNat
        (bit info 31 = true ↔ ∃ h, l = some (.held h)) ∧ (∀ h, l = some (.held h) → fld info 0 9 = h)
        ∧ (bit info 30 = true ↔ l = some .marked) ∧ (bit info 29 = true ↔ ∃ w ∈ s.tum.waiters, w.2 = a)
        ∧ s'.tum.locks = s.tum.locks ∧ OnlyIn [.tum] s s')
    ∧ (Lands id (aTum 0) (s.keepWith (aTum 0) 2) s → bit (s.reg (aTum 0)) 0 = true → After (.bclrall id) s fun s' =>
      s'.tum = { s.tum with locks := s.tum.locks.filter (·.2 != .marked) } ∧ RegsBut [] s s' ∧ OnlyIn [.tum, .regs] s s')
    ∧ (Lands id (aTum 0) (s.keepWith (aTum 0) 4) s → bit (s.reg (aTum 0)) 0 = true → After (.tumCntclr id) s fun s' =>
      s'.reg (aTum 8) = 0 ∧ s'.reg (aTum 12) = 0 ∧ s'.reg (aTum 0x24) = 0
      ∧ RegsBut [aTum 8, aTum 12, aTum 0x24] s s' ∧ OnlyIn [.regs] s s')
    ∧ (s.running = true → s.quietHere = true → s.tum.signalled = false → s.tum.qcyc ≤ 4096 →
      let u := s.pass (4096 - s.tum.qcyc)
      Raisable 659 u → After .deadlk s fun s' =>
        s'.tum = { u.tum with due := true, signalled := true } ∧ Counted (aTum 0x24) 0 16 1 u s'
        ∧ RegsBut [aTum 0x24] u s' ∧ RaisedNow 659 u s' ∧ OnlyIn [.tum, .regs, .hinge] u s')

/-- R199 to R202: a write of MB_W0 stages word 0 for its writer; a write of MB_W1 by that writer commits both words and raises
the channel's event, one by any other master is dropped and counted; a read of MB_W0 returns word 0 and latches word 1,
which the same reader's read of MB_W1 returns. -/
def Obligations.MailRegisters : Prop :=
  ∀ (id : Id) (ch : Fin 64) (v : Word) (s : State),
    let m := s.mailCh ch.val
    let others (s' : State) : Prop := ∀ c, c ≠ ch.val → s'.mailCh c = s.mailCh c
    (Lands id (0x50040404 + 16 * ch.val) v s → After (.mbW0Write id ch v) s fun s' =>
      s'.mailCh ch.val = { m with half := true, stage := v, writer := id.toNat } ∧ others s'
      ∧ (m.half = true → m.writer ≠ id.toNat → Counted (aTum 12) 16 16 1 s s')
      ∧ RegsBut [aTum 12] s s' ∧ OnlyIn [.tum, .regs] s s')
    ∧ (Lands id (0x50040408 + 16 * ch.val) v s → m.half = true → m.writer = id.toNat → Raisable (768 + ch.val) s →
      After (.mbW1Write id ch v) s fun s' =>
        s'.mailCh ch.val = { m with valid := true, w0 := m.stage, w1 := v, half := false, seq := m.seq + 1 } ∧ others s'
        ∧ RaisedNow (768 + ch.val) s s' ∧ OnlyIn [.tum, .hinge] s s')
    ∧ (Lands id (0x50040408 + 16 * ch.val) v s → m.half = false ∨ m.writer ≠ id.toNat →
      After (.mbW1Write id ch v) s fun s' =>
        Counted (aTum 12) 0 16 1 s s' ∧ RegsBut [aTum 12] s s' ∧ OnlyIn [.regs] s s')
    ∧ (Answers id (0x50040404 + 16 * ch.val) s → s.sameNow.tumRank ≤ 8192 → After (.mbW0Read id ch) s fun s' =>
      s'.reply = m.w0 ∧ tabFind s'.tum.latch id.toNat = some (ch.val, m.w1) ∧ s'.tum.mail = s.tum.mail
      ∧ s'.tum.locks = s.tum.locks ∧ OnlyIn [.tum, .reply] s s')
    ∧ (Answers id (0x50040408 + 16 * ch.val) s → s.sameNow.tumRank ≤ 8192 → After (.mbW1Read id ch) s fun s' =>
      (∀ w, tabFind s.tum.latch id.toNat = some (ch.val, w) →
        s'.reply = w ∧ tabFind s'.tum.latch id.toNat = none)
      ∧ (tabFind s.tum.latch id.toNat = none → s'.reply = m.w1) ∧ s'.tum.mail = s.tum.mail
      ∧ OnlyIn [.tum, .reply] s s')

/-! ### The Hinge fabric (chapter 8) -/

/-- R217, R219, R220, R222, R226: HF_RACC writes and reads the route that HF_RIDX names; HF_CTL starts a latch commit (a second
one sets CDIRTY) and clears the counters; HF_RAISEj raises its channels; a change of a group raises the group's channel;
a commit that ends leaves at most 32 slots, each an enabled latch route. -/
def Obligations.HingeRegisters : Prop :=
  ∀ (id : Id) (j : Fin 6) (g : Fin 2) (v : Word) (s : State),
    let r := fld (s.reg (aHf 8)) 0 12
    let rd (i : Nat) : Word := s.reg (aHf (0x10 + 4 * i))
    let route := (rd 0).toNat + 2 ^ 32 * (rd 1).toNat + 2 ^ 64 * (rd 2).toNat + 2 ^ 96 * (rd 3).toNat
    (Lands id (aHf 0xC) 1 s → Clean s → s.hinge.commit = false → (∀ i, i < 8 → taskOk (rTgt route i) = true) →
      rLatch route = false → After (.hfRaccWr id) s fun s' =>
        (∀ i, i < 4 → readWord s'.mem (routeKey r + 4 * i) = rd i) ∧ MemoryOutside (routeKey r) 16 s s'
        ∧ OnlyIn [.mem] s s')
    ∧ (Lands id (aHf 0xC) 2 s → Clean s → After (.hfRaccRd id) s fun s' =>
      (∀ i, i < 4 → s'.reg (aHf (0x10 + 4 * i)) = readWord s.mem (routeKey r + 4 * i))
      ∧ RegsBut ((upTo 4).map fun i => aHf (0x10 + 4 * i)) s s' ∧ OnlyIn [.regs] s s')
    ∧ (Lands id (aHf 0) (s.keepWith (aHf 0) 1) s → s.hinge.commit = false → After (.hfCommit id) s fun s' =>
      s'.hinge = { s.hinge with commit := true, commitAt := s.cycle, oldRoutes := [] } ∧ RegsBut [] s s' ∧ OnlyIn [.hinge, .regs] s s')
    ∧ (Lands id (aHf 0) (s.keepWith (aHf 0) 1) s → s.hinge.commit = true → After (.hfCommit id) s fun s' =>
      Flagged (aHf 4) 1 s s' ∧ RegsBut [aHf 4] s s' ∧ OnlyIn [.regs] s s')
    ∧ (Lands id (aHf 0) (s.keepWith (aHf 0) 2) s → After (.hfCntclr id) s fun s' =>
      s'.reg aHfCnt = 0 ∧ s'.reg aHfTcnt = 0 ∧ RegsBut [aHfCnt, aHfTcnt] s s' ∧ OnlyIn [.regs] s s')
    ∧ (Lands id (0x50010040 + 4 * j.val) v s → (∀ i, i < 32 → bit v i = true → Raisable (832 + 32 * j.val + i) s) →
      After (.hfRaise id j v) s fun s' =>
        s'.hinge = { s.hinge with raised :=
          s.hinge.raised ++ (bitsOf v).map fun i => ⟨s.cycle, 832 + 32 * j.val + i, periods s.now, false, false⟩ }
        ∧ OnlyIn [.hinge] s s')
    ∧ (let a := 0x50010020 + 4 * g.val
      Lands id a v s → (∀ i, i < 32 → bit (s.reg a ^^^ v) i = true → Raisable (704 + 32 * g.val + i) s) →
      After (.hfGrpenWrite id g v) s fun s' =>
        s'.reg a = v ∧ RegsBut [a] s s'
        ∧ s'.hinge = { s.hinge with raised :=
          s.hinge.raised ++ (bitsOf (s.reg a ^^^ v)).map fun i => ⟨s.cycle, 704 + 32 * g.val + i, periods s.now, false, false⟩ }
        ∧ OnlyIn [.hinge, .regs] s s')
    ∧ (s.running = true → s.hinge.commit = true → After .latchCommitDone s fun s' =>
      s'.hinge.commit = false ∧ s'.hinge.oldRoutes = [] ∧ s'.hinge.slots.length ≤ 32
      ∧ s'.hinge.lslots = s'.hinge.slots.length ∧ s'.hinge.raised.length = s.hinge.raised.length
      ∧ (∀ x ∈ s'.hinge.slots, rLatch x.2.toNat = true ∧ rEn x.2.toNat = true)
      ∧ OnlyIn [.hinge, .mem, .ecc, .regs, .free] s s')

/-- R209, R211, R213 to R215, R218 to R222, R224: a raise by a producer of the channel enters the fabric with its timestamp, a
second one of its cycle merges and is counted once, one of a stopped channel is discarded and counted, one without a
producer is no raise; the dispatcher takes at most 32 routes in a cycle, spilled ones first, and commits the fire of
each enabled swing route in a group enabled then; a fire reaches a thread input, or sets the input's drop flag where it
holds an event, starts, stops or counts a timer, switches a group, or crosses to the pad island; the loop window
restarts every 200 cycles; a live latch slot sets the force and hold latches that its route names. The free stamp of a
command that names none is the model's (DESIGN CHOICE, log entry 3). -/
def Obligations.HingeEvents : Prop :=
  ∀ (ch : Fin 1024) (t : Time64) (slot : Fin 32) (s : State),
    let own := ch.val < 128 ∨ 592 ≤ ch.val ∧ ch.val < 640
    (Raisable ch.val s → s.producer ch.val = true →
      (¬ own → ∀ o, After (.raiseEvent ch o) s fun s' => RaisedNow ch.val s s' ∧ OnlyIn [.hinge] s s')
      ∧ (own → After (.raiseEvent ch none) s fun s' => (∃ t, Raised ch.val t s s') ∧ OnlyIn [.hinge, .free] s s')
      ∧ (592 ≤ ch.val → ch.val < 640 → After (.raiseEvent ch (some t)) s fun s' =>
        Raised ch.val t s s' ∧ OnlyIn [.hinge] s s')
      ∧ (ch.val < 128 → After (.raiseEvent ch (some t)) s fun s' =>
        Raised ch.val (t &&& 0xFFFFFFFFFFFFFFFC) s s' ∧ OnlyIn [.hinge] s s'))
    ∧ (∀ r, s.running = true → s.producer ch.val = true → bit (s.reg (aHfCh ch.val)) 31 = false →
      (s.hinge.raised.find? fun q => q.cyc == s.cycle && q.ch == ch.val) = some r → After (.raiseEvent ch (some t)) s fun s' =>
        (r.merged = false → Flagged (aHfCh ch.val) 30 s s' ∧ Counted aHfCnt 0 16 1 s s')
        ∧ (r.merged = true → RegsBut [] s s')
        ∧ RegsBut [aHfCh ch.val, aHfCnt] s s' ∧ s'.hinge.raised.length = s.hinge.raised.length
        ∧ OnlyIn [.regs, .hinge] s s')
    ∧ (s.running = true → s.producer ch.val = true → bit (s.reg (aHfCh ch.val)) 31 = true →
      After (.raiseEvent ch (some t)) s fun s' =>
        Counted aHfCnt 0 16 1 s s' ∧ RegsBut [aHfCnt] s s' ∧ OnlyIn [.regs] s s')
    ∧ (s.running = false ∨ s.producer ch.val = false → After (.raiseEvent ch (some t)) s (· = s))
    ∧ (s.running = true → Clean s → s.hinge.spills ≠ [] ∨ s.hinge.raised ≠ [] →
      let first := ((s.hinge.raised.map fun r => r.cyc + 1).min?).getD 0
      let u := s.atCycle (max (if s.hinge.spills.isEmpty then first else s.hinge.disp + 1) (s.hinge.disp + 1))
      let now := (u.hinge.raised.filter fun r => decide (r.cyc < u.cycle)).foldr insertRaise []
      let todo := u.hinge.spills ++ now.flatMap fun r => (u.routesOf r.ch).map fun n => ⟨n, r⟩
      let fire (x : Spill) : Option Fire :=
        let v := u.rawRoute x.route
        if rEn v && !rLatch v && rSrc v == x.raise.ch && u.groupOn (rGroup v) then
          some ⟨u.cycle + 1 + rDelay v, x.raise.ch, x.raise.ts, (rTasks v).eraseDups⟩ else none
      Fresh u → After .routeDispatch s fun s' =>
        s'.hinge = { u.hinge with
          raised := u.hinge.raised.filter fun r => decide (u.cycle ≤ r.cyc)
          spills := todo.drop 32, disp := u.cycle, fires := u.hinge.fires ++ (todo.take 32).filterMap fire }
        ∧ (todo.length ≤ 32 → RegsBut [] u s') ∧ (32 < todo.length → Counted aHfCnt 16 16 1 u s')
        ∧ RegsBut [aHfCnt] u s' ∧ OnlyIn [.hinge, .regs] u s')
    ∧ (s.running = true → ∀ c, (s.hinge.fires.map (·.cyc) ++ s.hinge.padDue.map (·.1)).min? = some c →
      After .routeFire s fun s' => (∀ x ∈ s'.hinge.fires, x.cyc ≠ c) ∧ (∀ x ∈ s'.hinge.padDue, x.1 ≠ c)
        ∧ s'.cycle = (s.atCycle c).cycle)
    ∧ (∀ x n, s.running = true → s.hinge.fires = [x] → x.tasks = [n] → s.hinge.padDue = [] →
      let u := s.atCycle x.cyc
      let k := n / 64
      (n < 0x400 → s.twin k = false → tabFind u.hinge.inputs n = none → (s.eng k).power = .on → u.engPwr k ≠ 0 →
        x.ch < 1024 → After .routeFire s fun s' =>
          tabFind s'.hinge.inputs n = some ⟨BitVec.ofNat 10 x.ch, x.ts, false, tabGet false u.hinge.drops n⟩
          ∧ (∀ m, m ≠ n → tabFind s'.hinge.inputs m = tabFind u.hinge.inputs m) ∧ s'.hinge.fires = []
          ∧ OnlyIn [.hinge] u s')
      ∧ (∀ e, n < 0x400 → s.twin k = false → tabFind u.hinge.inputs n = some e → After .routeFire s fun s' =>
          s'.hinge.inputs = u.hinge.inputs ∧ tabFind s'.hinge.drops n = some true ∧ Counted aHfTcnt 16 16 1 u s'
          ∧ s'.hinge.fires = [] ∧ RegsBut [aHfTcnt] u s' ∧ OnlyIn [.hinge, .regs] u s')
      ∧ (0x400 ≤ n → n < 0x500 →
        let j := (n - 0x400) / 8
        let y := u.tmr j
        (n % 8 = 4 → u.tmrSrc j ≠ 2 → y.run = false → s.sys.mode ≠ .recall → After .routeFire s fun s' =>
          (s'.tmr j).run = (y.stopped != u.cycle) ∧ (s'.tmr j).phase = 0 ∧ TimersBut j u s' ∧ s'.hinge.fires = []
          ∧ OnlyIn [.hinge, .timers] u s')
        ∧ (n % 8 = 5 → u.tmrSrc j ≠ 2 → After .routeFire s fun s' =>
          s'.tmr j = { y with run := false, stopped := u.cycle } ∧ TimersBut j u s' ∧ s'.hinge.fires = []
          ∧ OnlyIn [.hinge, .timers] u s')
        ∧ (n % 8 = 7 → After .routeFire s fun s' =>
          s'.tmr j = { y with steps := y.steps + 1 } ∧ TimersBut j u s' ∧ s'.hinge.fires = []
          ∧ OnlyIn [.hinge, .timers] u s'))
      ∧ (0x500 ≤ n → n < 0x700 ∨ 0x740 ≤ n ∧ n < 0x748 → After .routeFire s fun s' =>
        s'.hinge = { u.hinge with fires := [], padDue := [(u.cycle + 2, n, 1)] } ∧ OnlyIn [.hinge] u s')
      ∧ (0x780 ≤ n → n < 0x800 → u.groupOn (n % 64) = decide (n < 0x7C0) → After .routeFire s fun s' =>
        s'.hinge = { u.hinge with fires := [] } ∧ OnlyIn [.hinge] u s')
      ∧ (0x780 ≤ n → n < 0x800 → u.groupOn (n % 64) ≠ decide (n < 0x7C0) → After .routeFire s fun s' =>
        s'.groupOn (n % 64) = decide (n < 0x7C0) ∧ (∀ g, g < 64 → g ≠ n % 64 → s'.groupOn g = u.groupOn g)))
    ∧ (∀ c n, s.running = true → s.hinge.fires = [] → s.hinge.padDue = [(c, n, 1)] → 0x500 ≤ n → n < 0x700 →
      let u := s.atCycle c
      let p := (n - 0x500) / 4
      u.islesUp = true → After .routeFire s fun s' =>
        (n % 4 = 0 → (s'.pad p).force = some ((u.pad p).force.getD (u.shownOut p)) ∧ (s'.pad p).hold = (u.pad p).hold)
        ∧ (n % 4 = 1 → (s'.pad p).hold = some ((u.pad p).hold.getD (u.shownOut p)) ∧ (s'.pad p).force = (u.pad p).force)
        ∧ (n % 4 = 2 → (u.pad p).forceCyc ≠ some u.cycle → (u.pad p).holdCyc ≠ some u.cycle →
          (s'.pad p).force = none ∧ (s'.pad p).hold = none)
        ∧ (n % 4 = 3 → (s'.pad p).entering.length = (u.pad p).entering.length + 1)
        ∧ PadsBut p u s' ∧ s'.hinge = { u.hinge with padDue := [] } ∧ OnlyIn [.hinge, .pads, .regs] u s')
    ∧ (s.running = true → s.hinge.window % 200 = 0 → s.cycle < s.hinge.window + 400 →
      let u := s.atCycle (s.hinge.window + 200)
      After .loopWindow s fun s' =>
        s'.hinge = { u.hinge with window := s.hinge.window + 200, count := [], prev := s.hinge.count.map (·.1) }
        ∧ OnlyIn [.hinge] u s')
    ∧ (s.slotLive slot.val = false → After (.latchRouteFire slot) s (· = s))
    ∧ (∀ ns, s.slotLive slot.val = true → s.slotTasks slot.val = some ns →
      0x8C0 ∉ ns ∨ s.wakeOn (.latch slot) = false ∨ s.sys.entry = none ∧ s.running = true → (∀ n ∈ ns, n < 0x900) →
      let caps := (ns.filter fun n => decide (0x8E0 ≤ n)).map fun n => n - 0x8E0
      After (.latchRouteFire slot) s fun s' =>
        (∀ p, p < 128 → 0x500 + 4 * p ∈ ns → (s'.pad p).force.isSome = true
          ∧ ((s.pad p).force = none → 0x501 + 4 * p ∉ ns → (s'.pad p).force = some (s.shownOut p)))
        ∧ (∀ p, p < 128 → 0x501 + 4 * p ∈ ns → (s'.pad p).hold.isSome = true
          ∧ ((s.pad p).hold = none → 0x500 + 4 * p ∉ ns → (s'.pad p).hold = some (s.shownOut p)))
        ∧ (∀ p, 0x500 + 4 * p ∉ ns → 0x501 + 4 * p ∉ ns → s'.pad p = s.pad p)
        ∧ s'.hinge = { s.hinge with
          lfcaps := s.hinge.lfcaps ++ if s.dozing then caps else []
          lfdue := s.hinge.lfdue ++ if s.running then caps.map fun t => (t, s.cycle + 3) else [] }
        ∧ (s.running = true → Flagged (aHf 0x3C) slot.val s s') ∧ RegsBut [aHf 0x3C] s s'
        ∧ OnlyIn [.pads, .regs, .hinge] s s')

/-- R147 to R149, R161, R213, R227: a latched event reaches the engine and, in a thread that does not wait for it, stays there; a
consume note empties the input and loads HF_RTS; an interrupt input that holds an event is taken at a boundary, with
its report in w0; a watchdog that reaches its period is due. -/
def Obligations.ThreadEvents : Prop :=
  ∀ (eng thr : Fin 16) (k : Fin 4) (s : State),
    let id := 16 * eng.val + thr.val
    let t := s.thr id
    (∀ e, s.running = true → tabFind s.hinge.inputs (4 * id + k.val) = some e → s.islandOn eng.val = true →
      (s.eng eng.val).twinStop = false → tabFind t.ev k.val = none → (∀ n ∈ s.hinge.notes, n.id ≠ id ∨ n.k ≠ k.val) →
      (t.inWait = false → After (.eventDelivery eng thr k) s fun s' =>
        s'.thr id = { t with ev := tabSet t.ev k.val e } ∧ ThreadsBut [id] s s' ∧ OnlyIn [.threads] s s')
      ∧ (∀ rd, t.st = .waiting → t.wait = .event rd → t.ev = [] → t.armed.getLsbD k.val = true → s.ien id k.val = false →
        After (.eventDelivery eng thr k) s fun s' =>
          (s'.thr id).st = .ready ∧ (s'.thr id).rd rd =
            BitVec.ofNat 32 (e.ovr.toNat * 2 ^ 13 + e.coinc.toNat * 2 ^ 12 + k.val * 2 ^ 10 + e.ch.toNat)
          ∧ GoesOn id s s' ∧ tabFind (s'.thr id).ev k.val = none ∧ OtherRegs id [rd] s s'
          ∧ s'.hinge.notes = s.hinge.notes ++ [⟨id, k.val, e.ts⟩] ∧ ThreadsBut [id] s s' ∧ SameMemory s s'))
    ∧ (∀ ts rest, s.running = true → s.hinge.notes = ⟨id, k.val, ts⟩ :: rest →
      (∀ m ∈ s.sameNow.missed, m.input ≠ 4 * id + k.val) → After (.consumeNote eng thr) s fun s' =>
      s'.hinge = { s.hinge with notes := rest, inputs := tabErase s.hinge.inputs (4 * id + k.val)
                                rts := tabSet s.hinge.rts id ts } ∧ OnlyIn [.hinge] s s')
    ∧ (∀ e, s.engRuns eng.val = true → s.twin eng.val = false → t.st = .ready → t.stepping = false →
      s.boundary id = .interrupt k.val e → (∃ p, p < 16 ∧ s.owns eng.val p thr.val = true) → s.frameFits id = true →
      mergeForm s = true → Clean s → After (.interruptEntry eng thr) s fun s' =>
        (s'.thr id).pc = pcOf (t.vbase + BitVec.ofNat 32 (4 * (32 + k.val)))
        ∧ (s'.thr id).status = setFld (setBit t.status 23 true) 16 6 (32 + k.val)
        ∧ (s'.thr id).rd 14 = t.rd 14 - 32
        ∧ (s'.thr id).rd 0 = BitVec.ofNat 32
          (e.ovr.toNat * 2 ^ 13 + e.coinc.toNat * 2 ^ 12 + k.val * 2 ^ 10 + e.ch.toNat)
        ∧ (s'.thr id).rd 1 = 0 ∧ (s'.thr id).rd 2 = t.pc ∧ OtherRegs id [0, 1, 2, 14] s s'
        ∧ tabFind (s'.thr id).ev k.val = none ∧ s'.hinge.notes = s.hinge.notes ++ [⟨id, k.val, e.ts⟩]
        ∧ localNat s' eng.val (t.rd 14 - 32).toNat 4 = t.pc.toNat
        ∧ localNat s' eng.val ((t.rd 14 - 32).toNat + 4) 4 = t.status.toNat
        ∧ MemoryOutside (engKey eng.val 0x10000) 0x4000 s s' ∧ ThreadsBut [id] s s')
    ∧ (∀ c, s.running = true → t.wdFrom = some c → s.wdt id ≠ 0 → t.wdDue = false → t.st.counting = true →
      s.islandOn eng.val = true →
      let u := s.atCycle (c + 2 * (1000 * 4 ^ (s.wdt id - 1) - t.wdAcc))
      After (.wdog eng thr) s fun s' =>
        s'.thr id = { t with wdDue := true } ∧ ThreadsBut [id] s s' ∧ OnlyIn [.threads] u s')

/-! ### Timers and chain time (chapter 9) -/

/-- R238, R239, R241, R242, R245, R247, R251, R255: a prescaler timer steps once in each fabric cycle in which its phase reaches
PRESC, up, down or up and down between 0 and the top value, an event timer once for each STEP of the cycle, and a
chain-locked count takes chain time; a step that ends on an armed compare value raises the slot's channel in the next
cycle; a wrap step sets WRAP and ends a one-shot run; TSTART and TSTOP start and stop the named timers; an LFCLK edge
steps the running timers in Doze by TMR_LFINC and counts the wake timer down in Doze and Dormant. That a TIMER_STEP takes
the present cycle, or the next one where the present one is taken, is the model's (DESIGN CHOICE, log entry 10); `u` is the state in
which the step's cycle begins, where what the cycles before it still owe has acted. -/
def Obligations.Timers : Prop :=
  ∀ (id : Id) (tn : Fin 32) (i : Fin 4) (v : Word) (s : State),
    let n := tn.val
    let x := s.tmr n
    let u := s.atCycle (max s.cycle (x.stepped + 1))
    let idle (but : Nat) : Prop := ∀ j, j < 4 → j ≠ but → s.armedAt n j = false ∧ s.smode n j ≠ 3
    let counts : Prop := s.running = true ∧ s.sys.mode ≠ .recall ∧ s.lfRunning n = false ∧ (u.cycle = s.cycle ∨ u.tmr n = x)
    let ready : Prop := counts ∧ s.tmrSrc n = 0 ∧ x.run = true ∧ x.steps = 0 ∧ x.written ≠ u.cycle
      ∧ fld (s.reg (aTmr n 8)) 0 16 ≤ x.phase.toNat
    let taken (y : Timer) (s' : State) : Prop :=
      s'.tmr n = { y with stepped := u.cycle, c0 := if x.c0Cyc = u.cycle then x.c0 else x.cnt, c0Cyc := u.cycle }
      ∧ TimersBut n u s'
    let stepped (cnt : BitVec 48) (wrap : Bool) (s' : State) : Prop :=
      taken { x with cnt := cnt, wrap := x.wrap || wrap, run := !(wrap && s.tmrOne n), phase := 0
                     stopped := if wrap && s.tmrOne n then u.cycle else x.stopped } s'
    (counts → s.tmrSrc n = 0 → x.run = true → x.steps = 0 → x.written ≠ u.cycle → x.phase.toNat < fld (s.reg (aTmr n 8)) 0 16 →
      After (.timerStep tn) s fun s' => taken { x with phase := x.phase + 1 } s' ∧ OnlyIn [.timers] u s')
    ∧ (ready → idle 4 → s.tmrMode n = 0 → After (.timerStep tn) s fun s' =>
      stepped (if x.top ≤ x.cnt then 0 else x.cnt + 1) (decide (x.top ≤ x.cnt)) s' ∧ OnlyIn [.timers] u s')
    ∧ (ready → idle 4 → s.tmrMode n = 1 → After (.timerStep tn) s fun s' =>
      let w := x.cnt = 0 ∨ x.top < x.cnt
      stepped (if w then x.top else x.cnt - 1) (decide w) s' ∧ OnlyIn [.timers] u s')
    ∧ (ready → idle 4 → s.tmrMode n = 2 → s.tmrOne n = false → 0 < x.top → x.cnt ≤ x.top → After (.timerStep tn) s fun s' =>
      (s'.tmr n).cnt = (if x.down then (if x.cnt = 0 then 1 else x.cnt - 1)
        else if x.cnt = x.top then x.top - 1 else x.cnt + 1)
      ∧ (s'.tmr n).down = (if x.down then decide (x.cnt ≠ 0) else decide (x.cnt = x.top))
      ∧ TimersBut n u s' ∧ OnlyIn [.timers] u s')
    ∧ (counts → s.tmrSrc n ≠ 2 → x.run = false ∨ x.written = u.cycle → After (.timerStep tn) s fun s' =>
      (s'.tmr n).cnt = x.cnt ∧ (s'.tmr n).phase = x.phase ∧ (s'.tmr n).steps = 0 ∧ TimersBut n u s' ∧ OnlyIn [.timers] u s')
    ∧ (counts → s.tmrSrc n = 1 → x.run = true → x.written ≠ u.cycle → idle 4 → s.tmrMode n = 0 →
      x.cnt.toNat + x.steps ≤ x.top.toNat → After (.timerStep tn) s fun s' =>
        taken { x with cnt := x.cnt + BitVec.ofNat 48 x.steps, steps := 0 } s' ∧ OnlyIn [.timers] u s')
    ∧ (counts → s.tmrSrc n = 2 → idle 4 → x.steps = 0 → After (.timerStep tn) s fun s' =>
      taken { x with cnt := BitVec.ofNat 48 (u.now.toNat / 256) } s' ∧ OnlyIn [.timers] u s')
    ∧ (ready → idle i.val → s.armedAt n i.val = true →
      s.tmrMode n = 0 ∧ x.cnt < x.top ∧ (x.slot i.val).cmp = x.cnt + 1
        ∨ s.tmrMode n = 1 ∧ x.cnt ≠ 0 ∧ x.cnt ≤ x.top ∧ (x.slot i.val).cmp = x.cnt - 1 →
      s.dozing = false → bit (u.reg (aHfCh (128 + 4 * n + i.val))) 31 = false →
      (∀ r ∈ u.hinge.raised, r.ch ≠ 128 + 4 * n + i.val) → After (.compareMatch tn i) s fun s' =>
        (s'.tmr n).cnt = (x.slot i.val).cmp ∧ ((s'.tmr n).slot i.val).armed = s.repeats n i.val
        ∧ s'.hinge = { u.hinge with raised :=
          u.hinge.raised ++ [⟨u.cycle + 1, 128 + 4 * n + i.val, periods (u.nowIn 1), false, false⟩] }
        ∧ TimersBut n u s' ∧ OnlyIn [.timers, .hinge] u s')
    ∧ (s.armedAt n i.val = false → After (.compareMatch tn i) s (· = s))
    ∧ (ready → idle 4 → s.tmrMode n = 0 ∧ x.top ≤ x.cnt ∨ s.tmrMode n = 1 ∧ (x.cnt = 0 ∨ x.top < x.cnt) →
      After (.timerWrap tn) s fun s' =>
        stepped (if s.tmrMode n = 0 then 0 else x.top) true s' ∧ OnlyIn [.timers] u s')
    ∧ (Lands id 0x50002000 v s → s.sys.mode ≠ .recall → After (.tstart id v) s fun s' =>
      (∀ j, j < 32 → bit v j = true → s.tmrSrc j ≠ 2 → (s.tmr j).run = false →
        (s'.tmr j).run = ((s.tmr j).stopped != s.cycle) ∧ (s'.tmr j).phase = 0 ∧ (s'.tmr j).cnt = (s.tmr j).cnt)
      ∧ (∀ j, ¬ (j < 32 ∧ bit v j = true) ∨ s.tmrSrc j = 2 ∨ (s.tmr j).run = true → s'.tmr j = s.tmr j)
      ∧ OnlyIn [.timers] s s')
    ∧ (Lands id 0x50002004 v s → After (.tmrstop id v) s fun s' =>
      (∀ j, j < 32 → bit v j = true → s.tmrSrc j ≠ 2 → s'.tmr j = { s.tmr j with run := false, stopped := s.cycle })
      ∧ (∀ j, ¬ (j < 32 ∧ bit v j = true) ∨ s.tmrSrc j = 2 → s'.tmr j = s.tmr j) ∧ OnlyIn [.timers] s s')
    ∧ (s.sys.mode = .dormant → After .lfTick s fun s' =>
      (s'.reg aWakeTmr).toNat = (s.reg aWakeTmr).toNat - 1
      ∧ s'.sys.tmrDue = (s.sys.tmrDue || decide ((s.reg aWakeTmr).toNat = 1)) ∧ RegsBut [aWakeTmr] s s'
      ∧ OnlyIn [.regs, .sys] s s')
    ∧ (s.sys.mode = .doze → After .lfTick s fun s' =>
      (s'.reg aWakeTmr).toNat = (s.reg aWakeTmr).toNat - 1
      ∧ s'.sys.tmrDue = (s.sys.tmrDue || decide ((s.reg aWakeTmr).toNat = 1))
      ∧ s'.tb = s.tb + BitVec.ofNat 88 ((s.reg 0x5000202C).toNat * 2 ^ 32) ∧ s'.cycle = s.cycle ∧ SameMemory s s'
      ∧ (s.hinge.lfcaps = [] → s.tmrSrc n = 0 → x.run = true → idle 4 → s.tmrMode n = 0 →
        x.cnt.toNat + (s.reg (aTmr n 12)).toNat ≤ x.top.toNat →
        s'.tmr n = { x with cnt := x.cnt + BitVec.ofNat 48 (s.reg (aTmr n 12)).toNat })
      ∧ (s.hinge.lfcaps = [] → s.tmrSrc n = 1 → s'.tmr n = x))
    ∧ (s.sys.mode ≠ .doze → s.sys.mode ≠ .dormant → s.hinge.lfcaps = [] → bit (s.reg aDbgCtl) 0 = false →
      After .lfTick s (OnlyIn [] s))

/-- R243, R244, R246, R248, R249: a write of CNTL or TOPL commits 48 bits with the staged high part; a write of COMPs_L commits
the compare value, fires at once where the count equals it, arms where a step within 2^47 reaches it and is MISSED where
none does; a read of CNTL latches the high part; CAPs_L opens a read pair and CAPs_H closes it, as does the timeout
at the end of the 64th cycle after it opened. -/
def Obligations.TimerRegisters : Prop :=
  ∀ (id : Id) (tn : Fin 32) (i : Fin 4) (v : Word) (s : State),
    let n := tn.val
    let x := s.tmr n
    let y := x.slot i.val
    let others (s' : State) : Prop := TimersBut n s s' ∧ ∀ j, j ≠ i.val → (s'.tmr n).slot j = x.slot j
    let closed : Slot := match y.pend with
      | some c => { y with front := c, cseq := y.cseq + 1, capnew := true, pend := none, pair := none }
      | none => { y with capnew := false, pair := none }
    let reloads : Prop := x.reloaded = s.cycle
    (Lands id (aTmr n 0x10) v s → s.tmrSrc n ≠ 2 → After (.tmrCntlWrite id tn v) s fun s' =>
      (¬ reloads → (s'.tmr n).cnt = x.stageHi ++ v)
      ∧ (reloads → (s'.tmr n).cnt = if s.tmrMode n = 1 then x.top else 0)
      ∧ (s'.tmr n).phase = 0 ∧ (s'.tmr n).written = s.cycle ∧ (s'.tmr n).run = x.run ∧ (s'.tmr n).top = x.top
      ∧ s'.tmrCount n = s.tmrCount n ∧ TimersBut n s s' ∧ OnlyIn [.timers] s s')
    ∧ (Lands id (aTmr n 0x10) v s → s.tmrSrc n = 2 → After (.tmrCntlWrite id tn v) s (OnlyIn [] s))
    ∧ (Answers id (aTmr n 0x10) s → After (.tmrCntlRead id tn) s fun s' =>
      let c := if x.c0Cyc = s.cycle then x.c0 else x.cnt
      s'.reply = BitVec.ofNat 32 c.toNat
      ∧ s'.tmr n = { x with latch := BitVec.ofNat 16 (c.toNat / 2 ^ 32), seq := x.seq + 1 } ∧ TimersBut n s s'
      ∧ OnlyIn [.timers, .reply] s s')
    ∧ (Lands id (aTmr n 0x18) v s → After (.tmrToplWrite id tn v) s fun s' =>
      (¬ reloads → s'.tmr n = { x with top := x.stageTop ++ v }) ∧ (s'.tmr n).top = x.stageTop ++ v
      ∧ TimersBut n s s' ∧ OnlyIn [.timers] s s')
    ∧ (let a := aSlot n i.val
      let val : BitVec 48 := BitVec.ofNat 16 (fld (s.reg (a + 8)) 0 16) ++ v
      let put (armed : Bool) (s' : State) : Prop :=
        (s'.tmr n).slot i.val = { y with cmp := val, land := x.cnt, armed := armed } ∧ others s'
      Lands id (a + 4) v s → (s.smode n i.val ≠ 1 → After (.compLWrite id tn i v) s fun s' =>
          put false s' ∧ OnlyIn [.timers] s s')
        ∧ (s.smode n i.val = 1 → s.tmrSrc n ≠ 2 → s.tmrMode n = 0 →
          (x.cnt < val → val ≤ x.top → (val - x.cnt).toNat ≤ 2 ^ 47 → After (.compLWrite id tn i v) s fun s' =>
            put true s' ∧ OnlyIn [.timers] s s')
          ∧ (val ≠ x.cnt → x.top < val → After (.compLWrite id tn i v) s fun s' =>
            put false s' ∧ Flagged a 8 s s' ∧ RegsBut [a] s s' ∧ OnlyIn [.timers, .regs] s s')
          ∧ (val = x.cnt → s.dozing = false → bit (s.reg (aHfCh (128 + 4 * n + i.val))) 31 = false →
            (∀ r ∈ s.hinge.raised, r.ch ≠ 128 + 4 * n + i.val) → After (.compLWrite id tn i v) s fun s' =>
            put (s.repeats n i.val) s' ∧ Flagged a 7 s s' ∧ RegsBut [a] s s'
            ∧ s'.hinge = { s.hinge with raised :=
              s.hinge.raised ++ [⟨s.cycle + 1, 128 + 4 * n + i.val, periods (s.nowIn 1), false, false⟩] }
            ∧ OnlyIn [.timers, .regs, .hinge] s s')))
    ∧ (Answers id (aSlot n i.val + 0x14) s → After (.capLRead id tn i) s fun s' =>
      s'.reply = BitVec.ofNat 32 y.front.toNat
      ∧ (s'.tmr n).slot i.val = { y with pair := some (y.pair.getD s.cycle) } ∧ others s'
      ∧ OnlyIn [.timers, .reply] s s')
    ∧ (Answers id (aSlot n i.val + 0x18) s → After (.capHRead id tn i) s fun s' =>
      s'.reply = BitVec.ofNat 32 (y.cseq.toNat * 2 ^ 16 + y.front.toNat / 2 ^ 32)
      ∧ (∀ c, y.pair = some c → c < s.cycle → (s'.tmr n).slot i.val = closed) ∧ (y.pair = none → (s'.tmr n).slot i.val = y)
      ∧ others s' ∧ OnlyIn [.timers, .reply] s s')
    ∧ (∀ c, y.pair = some c →
      let u := s.atCycle (c + 65)
      let z := (u.tmr n).slot i.val
      After (.capturePairTimeout tn i) s fun s' =>
        (∀ d, z.pend = some d → (s'.tmr n).slot i.val =
          { z with front := d, cseq := z.cseq + 1, capnew := true, pend := none, pair := none })
        ∧ (z.pend = none → (s'.tmr n).slot i.val = { z with capnew := false, pair := none })
        ∧ (∀ j, j ≠ i.val → (s'.tmr n).slot j = (u.tmr n).slot j) ∧ TimersBut n u s' ∧ OnlyIn [.timers] u s')
    ∧ (y.pair = none → After (.capturePairTimeout tn i) s (· = s))

/-- R232 to R236, Table 8.3: a write of TB_RATE or TB_STEPL queues a correction while TB_CTL selects the registers, and it acts four fabric
cycles later, from when on raises still to come carry the chain time so corrected; TB_CTL clears SYNC where it selects the
registers; any master's read of TB_NOWL returns chain time and latches its high half for that master, whose reads of TB_NOWH return
it, and 0 before its first. -/
def Obligations.Timebase : Prop :=
  ∀ (id : Id) (v : Word) (s : State),
    let src := bit (s.reg aTbCtl) 0
    let anew (u s' : State) (q : Raise) : Raise :=
      if q.ch < 128 ∨ 592 ≤ q.ch ∧ q.ch < 640 ∨ q.cyc < u.cycle then q
      else { q with ts := periods (s'.nowIn (q.cyc - u.cycle)) }
    (Lands id 0x50002020 v s → src = true → -524288 ≤ v.toInt → v.toInt ≤ 524288 → After (.tbRateWrite id v) s fun s' =>
      s'.corrections = s.corrections ++ [⟨s.cycle + 4, some v, none⟩] ∧ RegsBut [] s s' ∧ OnlyIn [.corrections, .regs] s s')
    ∧ (Lands id 0x50002020 v s → src = false → After (.tbRateWrite id v) s fun s' => RegsBut [] s s' ∧ OnlyIn [.regs] s s')
    ∧ (Lands id 0x50002024 v s → src = true → After (.tbSteplWrite id v) s fun s' =>
      s'.corrections = s.corrections ++ [⟨s.cycle + 4, none, some (s.reg 0x50002028 ++ v)⟩] ∧ OnlyIn [.corrections] s s')
    ∧ (Lands id 0x50002024 v s → src = false → After (.tbSteplWrite id v) s (OnlyIn [] s))
    ∧ (Lands id aTbCtl v s → src = true ∨ bit v 0 = false ∨ bit (s.reg aTbStat) 31 = false →
      After (.tbCtlWrite id v) s fun s' =>
        bit (s'.reg aTbCtl) 0 = bit v 0 ∧ RegsBut [aTbCtl] s s' ∧ OnlyIn [.regs] s s')
    ∧ (Lands id aTbCtl v s → src = false → bit v 0 = true → bit (s.reg aTbStat) 31 = true → Raisable 580 s →
      After (.tbCtlWrite id v) s fun s' =>
        bit (s'.reg aTbCtl) 0 = true ∧ FieldSet aTbStat 31 1 0 s s' ∧ RaisedNow 580 s s' ∧ RegsBut [aTbCtl, aTbStat] s s'
        ∧ OnlyIn [.regs, .hinge] s s')
    ∧ (Answers id 0x50002018 s → After (.tbNowlRead id) s fun s' =>
      s'.reply = BitVec.ofNat 32 (periods s.now).toNat
      ∧ tabFind s'.nowh id.toNat = some (BitVec.ofNat 32 ((periods s.now).toNat / 2 ^ 32))
      ∧ (∀ j, j ≠ id.toNat → tabFind s'.nowh j = tabFind s.nowh j) ∧ OnlyIn [.nowh, .reply] s s')
    ∧ (Answers id 0x50002018 s →
      let r := s.busRead id.toNat 0x50002018 4
      r.2 = .val (BitVec.ofNat 32 (periods s.now).toNat)
      ∧ tabFind r.1.nowh id.toNat = some (BitVec.ofNat 32 ((periods s.now).toNat / 2 ^ 32))
      ∧ ∀ j, j ≠ id.toNat → tabFind r.1.nowh j = tabFind s.nowh j)
    ∧ (Answers id 0x5000201C s → s.busRead id.toNat 0x5000201C 4 = (s, .val (tabGet 0 s.nowh id.toNat)))
    ∧ State.reset.nowh = []
    ∧ (∀ c r, s.running = true → s.corrections = [⟨c, some r, none⟩] →
      let u := s.atCycle c
      After .tbCorrection s fun s' =>
        s'.corrections = [] ∧ s'.reg aTbRate = r ∧ s'.hinge = { u.hinge with raised := u.hinge.raised.map (anew u s') }
        ∧ RegsBut [aTbRate] u s' ∧ OnlyIn [.corrections, .regs, .hinge] u s')
    ∧ (∀ c d, s.running = true → s.corrections = [⟨c, none, some d⟩] → s.chain.sched = none →
      let u := s.atCycle c
      After .tbCorrection s fun s' =>
        s'.corrections = [] ∧ s'.now = u.now + d ∧ bit (s'.reg aTbStat) 16 = true
        ∧ fld (s'.reg aTbStat) 0 16 = min 65535 (fld (u.reg aTbStat) 0 16 + 1) ∧ bit (s'.reg aTbStat) 17 = false
        ∧ s'.hinge = { u.hinge with raised := u.hinge.raised.map (anew u s') }
        ∧ RegsBut [aTbStat] u s' ∧ OnlyIn [.corrections, .regs, .hinge, .tb] u s')

/-! ### Timed pads and converter ports (chapter 10) -/

/-- R221, R259 to R262, R266, R268 to R273: a PSET that lands queues an edge at the reference plus its offset, or is dropped in
commit mode or at a full queue; the head entry is placed at its time, where that is late at the second edge ahead with
LATE, never two at one edge; a selected pin edge is stamped, enters the FIFO two edges later, raises the pad's channel
and fires the live latch slots of the pad, while PAD_PIN goes on showing the level at the latest pad clock edge (Table 10.5); PCAP,
PAD_STL and STAMP act on the stamp FIFO. -/
def Obligations.Pads : Prop :=
  ∀ (id : Id) (eng : Fin 16) (pad : Fin 128) (level : Bool) (sub : BitVec 6) (s : State),
    let p := pad.val
    let x := s.pad p
    let cfg := s.reg (aPadCfg p)
    let k := eng.val
    let was := if sub = 0 then none else if x.pinAt.any (·.1 == s.cycle) then x.pinAt else some (s.cycle, x.pin)
    (∀ r rs lvl off, s.islesUp = true → (s.eng k).padReqs = r :: rs → r.pset = some (lvl, off) → r.pad = p →
      let sent (s' : State) : Prop := (s'.eng k).padReqs = rs ∧ EnginesBut [k] s s' ∧ PadsBut p s s'
        ∧ (s'.thr r.thr).outst = answerFlight r.pc (fun _ => 0) (s.thr r.thr).outst ∧ ThreadsBut [r.thr] s s'
      let at_ := (if bit cfg 20 then x.last.getD s.tickRef else s.tickRef) + BitVec.ofNat 64 (4 * off.toNat)
      (bit cfg 19 = false → x.queue.length < 8 → After (.psetLand eng) s fun s' =>
        s'.pad p = { x with queue := x.queue ++ [⟨lvl, at_, s.cycle⟩], last := some at_ } ∧ sent s'
        ∧ OnlyIn [.engines, .pads, .threads] s s')
      ∧ (bit cfg 19 = true → After (.psetLand eng) s fun s' =>
        Flagged (aPadStat p) 1 s s' ∧ Counted aPadEcnt 16 16 1 s s' ∧ sent s' ∧ s'.pad p = x
        ∧ RegsBut [aPadStat p, aPadEcnt] s s' ∧ OnlyIn [.engines, .regs, .threads] s s')
      ∧ (bit cfg 19 = false → 8 ≤ x.queue.length → After (.psetLand eng) s fun s' =>
        Flagged (aPadStat p) 2 s s' ∧ Counted aPadEcnt 16 16 1 s s' ∧ sent s' ∧ s'.pad p = x
        ∧ RegsBut [aPadStat p, aPadEcnt] s s' ∧ OnlyIn [.engines, .regs, .threads] s s'))
    ∧ (∀ r rs, s.islesUp = true → (s.eng k).padReqs = r :: rs → r.pset = none → r.pad = p →
      let took (v : Option Time64) (s' : State) : Prop :=
        PadsBut p s s' ∧ (s'.eng k).padReqs = rs ∧ EnginesBut [k] s s'
        ∧ (s'.thr r.thr).outst = answerFlight r.pc (pcapValue r.rd v) (s.thr r.thr).outst ∧ ThreadsBut [r.thr] s s'
        ∧ OnlyIn [.engines, .pads, .threads] s s'
      let ahead : Prop := ∀ e ∈ x.entering, s.cycle ≤ e.1
      (∀ t q, ahead → x.fifo = t :: q → After (.pcapLand eng) s fun s' =>
        s'.pad p = { x with fifo := q } ∧ took (some t) s')
      ∧ (ahead → x.fifo = [] → After (.pcapLand eng) s fun s' => s'.pad p = x ∧ took none s')
      ∧ (∀ c t, x.entering = [(c, t)] → c < s.cycle → x.fifo = [] → After (.pcapLand eng) s fun s' =>
        (s'.pad p).fifo = [] ∧ (s'.pad p).entering = [] ∧ took (some t) s'))
    ∧ (∀ e q, s.islesUp = true → x.queue = e :: q →
      let u := s.atCycle (max (e.land + 1) (x.decided.elim 0 (· + 1)))
      let a := spaced e.t x.prev
      let w := u.pass (u.decideIn a)
      let e2 := w.nowIn 2
      w.decideIn a = 0 → After (.edgePlace pad) s fun s' =>
        (s'.pad p).queue = q ∧ (s'.pad p).decided = some w.cycle ∧ PadsBut p w s' ∧ s'.cycle = w.cycle
        ∧ (later a e2 = false → (s'.pad p).prev = some e2 ∧ (s'.pad p).placed.getLast? = some (w.cycle + 2, e.lvl)
          ∧ bit (s'.reg (aPadStat p)) 3 = true ∧ Counted aPadEcnt 0 16 1 w s' ∧ RegsBut [aPadStat p, aPadEcnt] w s')
        ∧ (later a e2 = true → (s'.pad p).prev = some (if w.fine p then a else w.nowIn 3)
          ∧ (s'.pad p).placed.getLast? = some (w.cycle + 3, e.lvl) ∧ RegsBut [aPadStat p] w s')
        ∧ (w.settled = false → bit (s'.reg (aPadStat p)) 7 = true)
        ∧ OnlyIn [.pads, .regs] w s')
    ∧ (x.pin ≠ level → s.islesUp = true → s.selects p level = true → (∀ y ∈ s.hinge.slots, rSrc y.2.toNat ≠ p) →
      let t : Time64 := if s.settled then (s.now + BitVec.ofNat 64 (4 * sub.toNat)) &&& 0xFFFFFFFFFFFFFFFC
        else (if sub = 0 then s.now else s.nowIn 1) &&& 0xFFFFFFFFFFFFFFFC
      let stamped (s' : State) : Prop :=
        s'.pad p = { x with pin := level, pinAt := was, stampCyc := some s.cycle, entering := x.entering ++ [(s.cycle + 2, t)] }
        ∧ PadsBut p s s' ∧ (s.settled = false → bit (s'.reg (aPadStat p)) 7 = true) ∧ (s.settled = true → RegsBut [] s s')
        ∧ RegsBut [aPadStat p] s s'
      (x.stampCyc ≠ some s.cycle → (∀ e ∈ x.entering, e.1 ≤ s.cycle + 2) →
        (bit cfg 23 = false → After (.padEdge pad level sub) s fun s' => stamped s' ∧ OnlyIn [.pads, .regs] s s')
        ∧ (bit cfg 23 = true → bit (s.reg (aHfCh p)) 31 = false → (∀ r ∈ s.hinge.raised, r.ch ≠ p) →
          After (.padEdge pad level sub) s fun s' =>
            stamped s' ∧ s'.hinge = { s.hinge with raised := s.hinge.raised ++ [⟨s.cycle + 4, p, t, false, false⟩] }
            ∧ OnlyIn [.pads, .hinge, .regs] s s'))
      ∧ (x.stampCyc = some s.cycle → After (.padEdge pad level sub) s fun s' =>
        s'.pad p = { x with pin := level, pinAt := was } ∧ PadsBut p s s' ∧ Flagged (aPadStat p) 6 s s' ∧ Counted aPadScnt 0 16 1 s s'
        ∧ RegsBut [aPadStat p, aPadScnt] s s' ∧ OnlyIn [.pads, .regs] s s'))
    ∧ (∀ (i : Fin 32) v, x.pin ≠ level → s.running = true → s.selects p level = true → s.hinge.slots = [(i.val, v)] →
      rSrc v.toNat = p → 0x8C0 ∉ rTasks v.toNat → After (.padEdge pad level sub) s fun s' =>
        (∀ q, q < 128 → 0x500 + 4 * q ∈ rTasks v.toNat → (s'.pad q).force.isSome = true)
        ∧ (∀ q, q < 128 → 0x501 + 4 * q ∈ rTasks v.toNat → (s'.pad q).hold.isSome = true)
        ∧ Flagged (aHf 0x3C) i.val s s' ∧ OnlyIn [.pads, .regs, .hinge] s s')
    ∧ (x.pin = level → After (.padEdge pad level sub) s (· = s))
    ∧ (x.pin ≠ level → s.selects p level = false → After (.padEdge pad level sub) s fun s' =>
      s'.pad p = { x with pin := level, pinAt := was } ∧ PadsBut p s s' ∧ OnlyIn [.pads] s s')
    ∧ (∀ t q, Answers id (0x50020010 + 0x20 * p) s → x.fifo = t :: q → After (.padStlRead id pad) s fun s' =>
      s'.reply = setFld (BitVec.ofNat 32 t.toNat) 0 2 1
      ∧ s'.pad p = { x with fifo := q, popseq := x.popseq + 1, sth := BitVec.ofNat 32 (t.toNat / 2 ^ 32) }
      ∧ PadsBut p s s' ∧ OnlyIn [.pads, .reply] s s')
    ∧ (Answers id (0x50020010 + 0x20 * p) s → x.fifo = [] → After (.padStlRead id pad) s fun s' =>
      s'.reply = 0 ∧ s'.pad p = { x with popseq := x.popseq + 1, sth := 0 } ∧ PadsBut p s s' ∧ OnlyIn [.pads, .reply] s s')
    ∧ (Lands id (0x50020008 + 0x20 * p) 16 s → After (.padStamp id pad) s fun s' =>
      s'.pad p = { x with entering := [(s.cycle, s.now &&& 0xFFFFFFFFFFFFFFFC)] } ∧ PadsBut p s s'
      ∧ (s.settled = false → bit (s'.reg (aPadStat p)) 7 = true) ∧ RegsBut [aPadStat p] s s' ∧ OnlyIn [.pads, .regs] s s')

/-- R259, R265, R267, R275: QFLUSH, RELEASE, HOLD and SFORCE act on their pad, where a RELEASE leaves a latch set that its
cycle sets, and PAD_STAT shows a latch two pad clocks later; PAD_CFG takes its fields, empties the queue with
OSRC and clears the last scheduled time where REF changes; PAD_FPU serves a pad that no other enabled unit serves, and
EN is clamped to 0 where one does. -/
def Obligations.PadRegisters : Prop :=
  ∀ (id : Id) (pad : Fin 128) (un : Fin 64) (v : Word) (s : State),
    let p := pad.val
    let x := s.pad p
    let ctl := 0x50020008 + 0x20 * p
    let latches (f h : Option (BitVec 2)) (s' : State) : Prop :=
      let y := s'.pad p
      y.force = f ∧ y.hold = h ∧ s'.shownLatches p = s.shownLatches p
      ∧ { y with force := x.force, hold := x.hold, forceCyc := x.forceCyc, holdCyc := x.holdCyc, latches := x.latches } = x
      ∧ PadsBut p s s' ∧ OnlyIn [.pads] s s'
    (Lands id ctl 8 s → After (.qflush id pad) s fun s' =>
      s'.pad p = { x with queue := [], last := none } ∧ PadsBut p s s' ∧ OnlyIn [.pads] s s')
    ∧ (Lands id ctl 4 s → x.forceCyc ≠ some s.cycle → x.holdCyc ≠ some s.cycle →
      After (.padRelease id pad) s (latches none none))
    ∧ (Lands id ctl 4 s → x.forceCyc = some s.cycle → After (.padRelease id pad) s fun s' =>
      (s'.pad p).force.isSome = true ∧ PadsBut p s s' ∧ OnlyIn [.pads] s s')
    ∧ (Lands id ctl 2 s → After (.padHold id pad) s (latches x.force (some (x.hold.getD (s.shownOut p)))))
    ∧ (Lands id ctl 1 s → After (.padSforce id pad) s (latches (some (x.force.getD (s.shownOut p))) x.hold))
    ∧ (Lands id (aPadCfg p) v s → After (.padCfgWrite id pad v) s fun s' =>
      (∀ i, i < 32 → (0x01FED000).testBit i = true → bit (s'.reg (aPadCfg p)) i = bit v i)
      ∧ s'.pad p = { x with queue := if bit v 19 then [] else x.queue
                            last := if bit (s.reg (aPadCfg p)) 20 = bit v 20 then x.last else none }
      ∧ PadsBut p s s' ∧ RegsBut [aPadCfg p] s s' ∧ OnlyIn [.regs, .pads] s s')
    ∧ (let taken := ∃ i, i < 64 ∧ i ≠ un.val ∧ bit (s.reg (aFpu i)) 31 = true ∧ fld (s.reg (aFpu i)) 0 7 = fld v 0 7
      Lands id (aFpu un.val) v s →
      (bit v 31 = false ∨ ¬ taken → After (.padFpuWrite id un v) s fun s' =>
        fld (s'.reg (aFpu un.val)) 0 7 = fld v 0 7 ∧ bit (s'.reg (aFpu un.val)) 31 = bit v 31
        ∧ RegsBut [aFpu un.val] s s' ∧ OnlyIn [.regs] s s')
      ∧ (bit v 31 = true → taken → After (.padFpuWrite id un v) s fun s' =>
        fld (s'.reg (aFpu un.val)) 0 7 = fld v 0 7 ∧ bit (s'.reg (aFpu un.val)) 31 = false
        ∧ Counted 0x500F0014 0 32 1 s s' ∧ OnlyIn [.regs, .hinge] s s'))

/-- R266, R273, R277 to R279, R301: at the output commit every pad in commit mode is given its PAD_COMMIT level, channel 578 is
raised, and the mode gate ends in Run and Tracking and acts in Preparation; a commit buffer writes PAD_COMMIT;
calibration settles and counts laps; OWN_OUT changes at its instant, and the Shackle gate ends at its hold time. -/
def Obligations.PadInstants : Prop :=
  ∀ (us : Nat) (s : State), s.islesUp = true →
    (∀ x, s.chain.sched = some x → x.commit = false → s.paired = false → s.shk.modeDue = none → s.shk.outDue = none →
      bit (s.reg (aHfCh 578)) 31 = false → After .outputCommit s fun s' =>
        s'.chain = { s.chain with sched := some { x with commit := true } }
        ∧ (∀ p, p < 128 → bit (s.reg (aPadCfg p)) 19 = true →
          (s'.pad p).finalLvl = BitVec.ofNat 2 (fld (s.reg (aPadCommit p)) 0 2))
        ∧ (∃ r ∈ s'.hinge.raised, r.ch = 578)
        ∧ s'.sys.gate = (match s.sys.mode with
          | .run | .tracking => false
          | .preparation => s.sys.gate || s.sys.gatePend
          | _ => s.sys.gate)
        ∧ s'.sys.mode = s.sys.mode ∧ s'.threads = s.threads ∧ SameMemory s s')
    ∧ (∀ b bs, s.scan.bufs = b :: bs → After .commitBufferLand s fun s' =>
      (∀ p l, (p, l) ∈ b.levels → (∀ y ∈ b.levels, y.1 = p → y.2 = l) → fld (s'.reg (aPadCommit p)) 0 2 = l.toNat)
      ∧ RegsBut (aScnStat :: b.levels.map fun y => aPadCommit y.1) (s.atCycle b.land) s' ∧ s'.scan = { s.scan with bufs := bs }
      ∧ OnlyIn [.regs, .scan] (s.atCycle b.land) s')
    ∧ (s.settled = false → Raisable 670 s → After .calSettled s fun s' =>
      Flagged aCal 31 s s' ∧ RegsBut [aCal] s s' ∧ RaisedNow 670 s s' ∧ OnlyIn [.regs, .hinge] s s')
    ∧ (s.settled = true → After (.calLap us) s fun s' =>
      FieldSet aCal 0 16 (min 65535 us) s s' ∧ RegsBut [aCal] s s' ∧ OnlyIn [.regs] s s')
    ∧ (∀ b t, s.shk.outAt = some (b, t) → bit (s.reg aOwnStat) 0 ≠ b →
      let u := s.atChain t
      After .ownOutChange s fun s' =>
        bit (s'.reg aOwnStat) 0 = b ∧ bit (s'.reg aOwnStat) 1 = !b ∧ s'.shk.outAt = none
        ∧ (b = true → (∀ y ∈ s'.pads, y.2.shk = none) ∧ s'.shk.holdEnd = none)
        ∧ (b = false → (∀ p, p < 128 → bit (s.reg (aPadCfg p)) 24 = true → (s'.pad p).shk = some (u.shownOut p))
          ∧ s'.shk.holdEnd = some (u.cycle + 200 * fld (s.reg 0x50021110) 0 16))
        ∧ RegsBut [aOwnStat] u s' ∧ OnlyIn [.regs, .pads, .shk] u s')
    ∧ (∀ c, s.shk.holdEnd = some c → After .shackleHoldExpiry s fun s' =>
      FieldSet aOwnStat 1 1 0 (s.atCycle c) s' ∧ s'.shk = { s.shk with holdEnd := none } ∧ (∀ y ∈ s'.pads, y.2.shk = none)
      ∧ RegsBut [aOwnStat] (s.atCycle c) s' ∧ OnlyIn [.regs, .pads, .shk] (s.atCycle c) s')

/-- R280 to R284: a commit of CVT_SCHEDL with scheduled requests makes the request pending, CVT_CFG without EN discards it; a
pending request is placed and the output rises at the placed instant, from which the port is busy, and raises the port's channel; the
pulse falls, the window of BUSYM times out, a sample enters the FIFO with its trigger's stamp, and reads remove the head and latch
CVT_LASTH. -/
def Obligations.Converters : Prop :=
  ∀ (id : Id) (port : Fin 8) (v : Word) (s : State),
    let p := port.val
    let x := s.cvt p
    let cfg := s.reg (aCvt p 0)
    (Lands id (aCvt p 0xC) v s → bit cfg 31 = true → fld cfg 29 2 = 1 → x.req = none → s.cvtBusy p = false →
      After (.cvtSchedlWrite id port v) s fun s' =>
        (let t : Time64 := (s.reg (aCvt p 0x10) ++ v : Time64) &&& 0xFFFFFFFFFFFFFFFC
         s'.cvt p = { x with sched := v, req := some ⟨t, true, true, s.cycle⟩ })
        ∧ PortsBut p s s' ∧ OnlyIn [.cvts] s s')
    ∧ (Lands id (aCvt p 0xC) v s → bit cfg 31 = true → fld cfg 29 2 = 1 → x.req = none → s.cvtBusy p = true →
      After (.cvtSchedlWrite id port v) s fun s' =>
        s'.cvt p = { x with sched := v } ∧ Flagged (aCvt p 4) 3 s s' ∧ RegsBut [aCvt p 4] s s' ∧ PortsBut p s s'
        ∧ OnlyIn [.cvts, .regs] s s')
    ∧ (Lands id (aCvt p 0) v s → fld v 29 2 ≠ 3 → 1 ≤ fld v 24 4 → 1 ≤ fld v 0 16 → After (.cvtCfgWrite id port v) s fun s' =>
      (∀ i, i < 32 → (0xFF00FFFF).testBit i = true → bit (s'.reg (aCvt p 0)) i = bit v i)
      ∧ s'.cvt p = (let y : Cvt := if bit v 31 then x else { x with req := none, busy := false }
        if bit v 28 then y else { y with busy := y.busy && y.fall.isSome })
      ∧ PortsBut p s s' ∧ RegsBut [aCvt p 0] s s' ∧ OnlyIn [.cvts, .regs] s s')
    ∧ (∀ q, s.islesUp = true → x.req = some q →
      let u := s.atCycle (q.cyc + 1)
      let a := spaced q.t x.prev
      let w := u.pass (u.decideIn a)
      let late := !later a (w.nowIn 2)
      let rise := if late then w.cycle + 2 else w.cycle + 3
      let at_ := if late then w.nowIn 2 else if w.settled then a else w.nowIn 3
      bit (w.reg (aHfCh (640 + p))) 31 = false → (∀ r ∈ w.hinge.raised, r.ch ≠ 640 + p) → After (.triggerPlace port) s fun s' =>
        s'.cvt p = { x with busy := true, req := none, last := at_, prev := some at_, fall := some (rise + fld cfg 24 4)
                            rise := if w.cvtBusy p ∨ x.fall.any (w.cycle < ·) then x.rise else rise }
        ∧ PortsBut p s s' ∧ ((late && q.late) = true → bit (s'.reg (aCvt p 4)) 0 = true)
        ∧ s'.hinge = { w.hinge with raised :=
          w.hinge.raised ++ [⟨rise + 4, 640 + p, periods (w.nowIn (rise + 4 - w.cycle)), false, false⟩] }
        ∧ RegsBut [aCvt p 4] w s' ∧ OnlyIn [.cvts, .regs, .hinge] w s')
    ∧ (s.islesUp = true → x.req = none → After (.triggerPlace port) s (· = s))
    ∧ (∀ c, s.islesUp = true → x.fall = some c → After (.triggerFall port) s fun s' =>
      s'.cvt p = { x with fall := none, busy := x.busy && bit cfg 28 } ∧ PortsBut p s s'
      ∧ OnlyIn [.cvts] (s.atCycle c) s')
    ∧ (x.busy = false ∨ bit cfg 28 = false → After (.cvtBusyTimeout port) s (OnlyIn [] s))
    ∧ (s.islesUp = true → x.busy = true → bit cfg 28 = true →
      let u := s.atCycle (x.rise + 200 * fld cfg 0 16)
      After (.cvtBusyTimeout port) s fun s' =>
        s'.cvt p = { x with busy := false } ∧ Flagged (aCvt p 4) 2 u s' ∧ RegsBut [aCvt p 4] u s'
        ∧ PortsBut p s s' ∧ OnlyIn [.cvts, .regs] u s')
    ∧ (s.islesUp = true → bit cfg 31 = true → x.fifo.length < 4 → bit (s.reg (aHfCh (648 + p))) 31 = false →
      (∀ r ∈ s.hinge.raised, r.ch ≠ 648 + p) → After (.sampleDelivery port v) s fun s' =>
        s'.cvt p = { x with fifo := x.fifo ++ [(v, x.last)], busy := x.busy && !(bit cfg 28 && s.cvtBusy p) }
        ∧ PortsBut p s s'
        ∧ s'.hinge = { s.hinge with raised := s.hinge.raised ++ [⟨s.cycle + 4, 648 + p, periods (s.nowIn 4), false, false⟩] }
        ∧ OnlyIn [.cvts, .hinge] s s')
    ∧ (s.islesUp = true → bit cfg 31 = true → 4 ≤ x.fifo.length → After (.sampleDelivery port v) s fun s' =>
      s'.cvt p = { x with busy := x.busy && !(bit cfg 28 && s.cvtBusy p) } ∧ PortsBut p s s' ∧ Flagged (aCvt p 4) 1 s s'
      ∧ RegsBut [aCvt p 4] s s' ∧ OnlyIn [.cvts, .regs] s s')
    ∧ (s.islesUp = false ∨ bit cfg 31 = false → After (.sampleDelivery port v) s (· = s))
    ∧ (∀ w t q, Answers id (aCvt p 0x1C) s → x.fifo = (w, t) :: q → After (.cvtRdataRead id port) s fun s' =>
      s'.reply = w ∧ s'.cvt p = { x with fifo := q, rst := t } ∧ PortsBut p s s' ∧ OnlyIn [.cvts, .reply] s s')
    ∧ (Answers id (aCvt p 0x14) s → After (.cvtLastlRead id port) s fun s' =>
      s'.reply = BitVec.ofNat 32 x.last.toNat
      ∧ tabFind s'.lasth (8 * id.toNat + p) = some (BitVec.ofNat 32 (x.last.toNat / 2 ^ 32)) ∧ OnlyIn [.lasth, .reply] s s')

/-! ### Point processing and the Shuttle (chapter 11) -/

/-- R307, R309, R310: SCN_FLIPL arms a bank flip, CANCEL disarms it, CNTCLR clears the counters; the flip moves each named
thread that waits for an event to the other bank and counts the others as missed. -/
def Obligations.BankFlips : Prop :=
  ∀ (id : Id) (v : Word) (s : State),
    (Lands id (aScn 0x44) v s → After (.scnFliplWrite id v) s fun s' =>
      s'.scan = { s.scan with flip := some (s.reg (aScn 0x48) ++ v), flipDue := false } ∧ s'.reg (aScn 0x44) = v
      ∧ RegsBut [aScn 0x44] s s' ∧ OnlyIn [.scan, .regs] s s')
    ∧ (Lands id (aScn 0x4C) (s.keepWith (aScn 0x4C) 0x20000000) s → After (.flipCancel id) s fun s' =>
      s'.scan = { s.scan with flip := none, flipDue := false } ∧ RegsBut [] s s' ∧ OnlyIn [.scan, .regs] s s')
    ∧ (Lands id (aScn 0) (s.keepWith (aScn 0) 2) s → After (.scnCntclr id) s fun s' =>
      s'.reg (aScn 0x3C) = 0 ∧ s'.reg (aScn 0x40) = 0 ∧ RegsBut [aScn 0x3C, aScn 0x40] s s' ∧ OnlyIn [.regs] s s')
    ∧ (s.running = true → s.upd.due = false → s.scan.flipDue = true → After .flip s fun s' =>
      (∀ j ∈ s.flipIds, s.relocatable j = true →
        (s'.thr j).pc = (s.thr j).pc ^^^ 0x8000 ∧ (s'.thr j).vbase = (s.thr j).vbase ^^^ 0x8000
        ∧ OtherRegs j [15] s s' ∧ (s'.thr j).st = .waiting)
      ∧ (∀ j, j ∉ s.flipIds ∨ s.relocatable j = false → s'.thr j = s.thr j)
      ∧ s'.scan = { s.scan with flip := none, flipDue := false } ∧ bit (s'.reg (aScn 0x4C)) 30 = true
      ∧ fld (s'.reg (aScn 0x4C)) 0 8 = min 255 (s.flipIds.filter fun j => !s.relocatable j).length ∧ SameMemory s s')

/-- R296 to R305: the local input pass writes the latched level of a pad, inverted where INV is 1, into the bit of its input
point and 0 into its quality bit; the output pass gives the pad of an output point the level of its image bit, in the
commit buffer; the chain input pass copies the chain image into the RX window, or sets NORX where no good copy came. A
pass starts once the flip and the activation of its tick have acted (R439). It may be made in parts, as `Scan.cuts` says: the
doublewords of the RX copy, the entries, then what follows them; BUSY is 1 while it runs (DESIGN CHOICE, log entry 96). -/
def Obligations.Passes : Prop :=
  ∀ (d : PassDue) (i n : Nat) (l : List Nat) (k : Pass) (s : State), s.running = true →
    let cmd : Instr := match k with
      | .localIn => .localInputPass
      | .chainIn => .chainInputPass
      | .output => .outputPass
    let copies : List PassStep :=
      if k = .chainIn ∧ d.miss = false then (upTo ((s.rxLen + 7) / 8)).map (.copy chainImage) else []
    (s.scan.flipDue = false → s.upd.due = false → s.scan.run = none → s.scan.passes = [d] → d.kind = k → s.scan.cuts = 0 :: l →
      After cmd s fun s' =>
      (∃ r, s'.scan.run = some r ∧ r.kind = k ∧ r.c = d.c ∧ r.q = []
        ∧ r.todo = copies ++ (s.list (if k = .output then 0x10 else 0xC)).map .entry ++ [.tail])
      ∧ bit (s'.scnRead 4) 0 = true ∧ s'.scan.passes = [] ∧ s'.scan.cuts = l ∧ s'.threads = s.threads)
    ∧ (s.scan.flipDue = true ∨ s.upd.due = true → s.scan.run = none → After cmd s (· = s))
    ∧ (∀ r, s.scan.run = some r → r.kind = k → s.scan.cuts = n :: l → .tail ∉ r.todo.take n → After cmd s fun s' =>
      (∃ r', s'.scan.run = some r' ∧ r'.kind = k ∧ r'.c = r.c ∧ r'.todo = r.todo.drop n ∧ r.cost ≤ r'.cost)
      ∧ s'.scan.cuts = l ∧ s'.threads = s.threads)
    ∧ (∀ r, s.scan.run = some r → r.kind = k → s.scan.cuts = [] → After cmd s fun s' =>
      s'.scan.run = none ∧ (s.paired = false → s'.scan.ended = some (periods s'.now)) ∧ s'.threads = s.threads)
    ∧ (s.scan.run = none ∧ (∀ y ∈ s.scan.passes, y.kind ≠ k) ∨ (∃ r, s.scan.run = some r ∧ r.kind ≠ k) →
      After cmd s (· = s))
    ∧
    let e := s.ward i
    let one (r : Nat) : Prop := fld (s.reg (aScn r)) 0 15 = 1 ∧ fld (s.reg (aScn r)) 16 14 = i
    let q := (s.reg (aScn 0x2C)).toNat + 8 * (i / 64)
    let quality (b : Bool) (s' : State) : Prop := (readDword s'.mem (0x40000000 + q)).getLsbD (i % 64) = b
    let kept (lo n : Nat) (s' : State) : Prop := ∀ a, (a < 0x40000000 + q ∨ 0x40000000 + q + 8 ≤ a) →
      (a < lo ∨ lo + n ≤ a) → readByte s'.mem a = readByte s.mem a
    Clean s → s.paired = false → s.scan.passes = [d] → s.scan.run = none → s.scan.cuts = [] → s.scan.flipDue = false →
    s.upd.due = false → q % 8 = 0 → q < 0x60000 → s.isExt i = false → s.invalid i e = false → wType e = 0 → wSrc e = 0 →
    wLoc e / 8 ≠ q / 8 →
    (d.kind = .localIn → one 0xC → wKind e = 1 → (tabGet {} s.scan.filt i).seen = false →
      After .localInputPass s fun s' =>
        bit (readWord s'.mem (0x40000000 + wLoc e)) (wIbit e) = (s.scan.latch.getLsbD (wSidx e % 128) ^^ wInv e)
        ∧ quality false s' ∧ kept (0x40000000 + wLoc e) 4 s' ∧ s'.scan.passes = [] ∧ s'.scan.txNow = true
        ∧ s'.shk.localDone = true ∧ s'.threads = s.threads)
    ∧ (d.kind = .output → one 0x10 → wKind e = 2 → s.sys.mode = .run → s.scan.bufs = [] → After .outputPass s fun s' =>
        let b := bit (readWord s.mem (0x40000000 + wLoc e)) (wIbit e) ^^ wInv e
        s'.scan.bufs = [⟨[(wSidx e % 128, if b then 1 else 0)], d.c, s'.cycle + 2⟩]
        ∧ quality false s' ∧ kept 0 0 s' ∧ s'.scan.passes = [] ∧ s'.threads = s.threads)
    ∧ (d.kind = .chainIn → fld (s.reg (aScn 0xC)) 0 15 = 0 →
      let rx := 0x40000000 + s.window 0x24
      s.window 0x24 + s.rxLen ≤ s.layout.2.1 → s.layout.2.1 ≤ 0x60000 →
      (d.miss = false → After .chainInputPass s fun s' =>
        (∀ j, j < s.rxLen → readByte s'.mem (rx + j) = readByte s.mem (chainImage + j))
        ∧ MemoryOutside rx s.rxLen s s' ∧ s'.scan.passes = [] ∧ s'.threads = s.threads)
      ∧ (d.miss = true → After .chainInputPass s fun s' =>
        bit (s'.reg aScnStat) 3 = true ∧ SameMemory s s' ∧ s'.scan.passes = [] ∧ s'.threads = s.threads))

/-- R312 to R320: GO starts a channel that does not run, STOP marks one that is inside a descriptor or stops one between
descriptors, RST clears a channel and marks the lock it holds. A running channel fetches the descriptor at SH_DPTR,
takes the lock where ACQ asks, moves one element at a time in its turn, and ends the descriptor with the release, the done event,
the count and the next address; a held lock is retried every 16 cycles. The model's own are: that a stop between descriptors acts at
once with STOPPED 0, that NEXT is taken with its bits [3:0] cleared and no clamp counted (log entry 49), the descriptors that halt
(log entry 50), that an element out of its turn changes nothing (log entry 109), and the order of the Tumbler requests of a cycle
(log entry 83). -/
def Obligations.Shuttle : Prop :=
  ∀ (id : Id) (ch : Fin 32) (s : State), s.running = true → Settled s → s.sameNow.tumRank = 0 →
    let c := ch.val
    let x := s.chan c
    let others (s' : State) : Prop := ∀ j, j ≠ c → s'.chan j = s.chan j
    let lockA := s.shLock c
    (Lands id (aSh c 0) 1 s → x.run = false → After (.shGo id ch) s fun s' =>
      (s'.chan c).run = true ∧ (s'.chan c).stopped = false ∧ (s'.chan c).err = 0 ∧ (s'.chan c).desc = x.desc
      ∧ (s'.chan c).done = x.done ∧ others s' ∧ OnlyIn [.chans] s s')
    ∧ (Lands id (aSh c 0) 2 s → x.run = true → x.lockw = false → x.desc.isSome = true → After (.shStop id ch) s fun s' =>
      s'.chan c = { x with stopReq := true } ∧ others s' ∧ OnlyIn [.chans] s s')
    ∧ (Lands id (aSh c 0) 2 s → x.run = true → x.desc = none → x.lock = none → After (.shStop id ch) s fun s' =>
      s'.chan c = { x with run := false, lockw := false, stopReq := false, stopped := false } ∧ others s'
      ∧ OnlyIn [.chans] s s')
    ∧ (Lands id (aSh c 0) 4 s → s.tum.waiters = [] → After (.shRst id ch) s fun s' =>
      s'.chan c = {} ∧ s'.reg (aSh c 4) = 0 ∧ others s'
      ∧ (∀ a, tabFind s.tum.locks a = some (.held (256 + c)) → tabFind s'.tum.locks a = some .marked)
      ∧ RegsBut [aSh c 4] s s' ∧ OnlyIn [.chans, .tum, .regs] s s')
    ∧ (let a := (s.reg (aSh c 8)).toNat
      let w (i : Nat) : Word := readWord s.mem (a + 4 * i)
      let d := descOf (w 0) (w 1) (w 2) (w 3)
      Clean s → x.run = true → x.lockw = false → x.desc = none → inImage a = true → a % 16 = 0 → d.ok (w 2) = true →
      (d.acq = false → After (.shuttleDescriptor ch) s fun s' =>
        s'.chan c = { x with desc := some d, done := 0, rem := d.count } ∧ others s' ∧ OnlyIn [.chans] s s')
      ∧ (d.acq = true → tabFind s.tum.locks lockA = none → s.tum.locks.length < 4096 → After (.shuttleDescriptor ch) s fun s' =>
        s'.chan c = { x with desc := some d, done := 0, rem := d.count, lock := some lockA } ∧ others s'
        ∧ tabFind s'.tum.locks lockA = some (.held (256 + c)) ∧ OnlyIn [.chans, .tum] s s'))
    ∧ (∀ d, x.desc = some d → s.shNext = some c → x.stopReq = false → Clean s →
      let src := d.srcAt x.done
      let dst := d.dstAt x.done
      let plain (a : Nat) : Prop := a % d.size = 0 ∧ (inImage a = true ∨ ∃ k l, engAddr a = some (k, l) ∧ 0x10000 ≤ l
        ∧ s.islandOn k = true ∧ (s.eng k).localMerge = none)
      (plain src → plain dst → After (.shuttleElement ch) s fun s' =>
        (∀ j, j < d.size → readByte s'.mem (dst + j) = readByte s.mem (src + j)) ∧ MemoryOutside dst d.size s s'
        ∧ s'.chan c = { x with done := x.done + 1, rem := x.rem - 1 } ∧ others s' ∧ s'.shTurn = (c + 1) % 32
        ∧ OnlyIn [.chans, .mem, .shTurn] s s')
      ∧ (x.lock = none → Raisable (513 + 2 * c) s → inRegs src = false → inImage src = false → inWard src = false →
        engAddr src = none → After (.shuttleElement ch) s fun s' =>
          (s'.chan c).run = false ∧ (s'.chan c).err = 2 ∧ (s'.reg (aSh c 0x10)).toNat = src ∧ others s'
          ∧ RaisedNow (513 + 2 * c) s s' ∧ SameMemory s s'))
    ∧ (s.shNext ≠ some c → After (.shuttleElement ch) s (· = s))
    ∧ (∀ d, x.desc = some d → x.run = true → x.lockw = false → x.stopReq = false → d.count ≤ x.done →
      s.tum.waiters = [] → Raisable (512 + 2 * c) s → After (.shuttleDescriptorDone ch) s fun s' =>
        (s'.chan c).run = !d.last ∧ (s'.chan c).desc = none ∧ (s'.chan c).done = 0 ∧ others s'
        ∧ s'.reg (aSh c 8) = d.next &&& 0xFFFFFFF0
        ∧ FieldSet (aSh c 0x14) 0 16 ((fld (s.reg (aSh c 0x14)) 0 16 + 1) % 65536) s s'
        ∧ (d.rel = true → tabFind s.tum.locks lockA = some (.held (256 + c)) → tabFind s'.tum.locks lockA = none)
        ∧ ((d.dev || d.last) = true → RaisedNow (512 + 2 * c) s s') ∧ ((d.dev || d.last) = false → s'.hinge = s.hinge)
        ∧ RegsBut [aSh c 8, aSh c 0x14, aTum 8] s s' ∧ OnlyIn [.chans, .regs, .tum, .hinge] s s')
    ∧ (x.run = true → x.lockw = true →
      let u := s.atCycle x.retryAt
      (tabFind s.tum.locks lockA = none → s.tum.locks.length < 4096 → After (.shuttleLockRetry ch) s fun s' =>
        s'.chan c = { x with lockw := false, lock := some lockA } ∧ others s' ∧ Counted (aSh c 0x14) 16 16 1 s s'
        ∧ tabFind s'.tum.locks lockA = some (.held (256 + c)) ∧ OnlyIn [.chans, .tum, .regs] u s')
      ∧ (∀ h, tabFind s.tum.locks lockA = some (.held h) → h ≠ 256 + c → After (.shuttleLockRetry ch) s fun s' =>
        s'.chan c = { x with lockw := true, retryAt := u.cycle + 16 } ∧ others s' ∧ Counted (aSh c 0x14) 16 16 1 s s'
        ∧ s'.tum.locks = s.tum.locks ∧ OnlyIn [.chans, .regs, .tum] u s'))

/-! ### The chain (chapter 12) -/

/-- R326, R328, R331, R333, R334: ports come up and go down and raise channel 581; a frame that is not consumed leaves on the
other port with HOPS counted, turned back with WRAP where that port is down, and ends at 600 hops; a bad one is
counted and goes on marked bad; an ADDRESS frame gives an unaddressed unit its COUNT and passes on with COUNT + 1. That 599 hops go on as 600 and 600 do not, and that the command which carries a bad frame counts it,
are the model's choices (log entry 46). -/
def Obligations.ChainPorts : Prop :=
  ∀ (p : Port) (f : Frame) (s : State),
    let o := otherPort p
    let sent (q : Port) (s' : State) : Option Frame := match q with | .a => s'.chain.sentA | .b => s'.chain.sentB
    (s.islesUp = true → s.portEn p = true → s.portUp p = false → Raisable 581 s → After (.portUp p) s fun s' =>
      s'.portUp p = true ∧ s'.portUp o = s.portUp o ∧ RaisedNow 581 s s' ∧ OnlyIn [.chain, .hinge] s s')
    ∧ (s.portUp p = true → Raisable 581 s → After (.portDown p) s fun s' =>
      s'.portUp p = false ∧ s'.portUp o = s.portUp o ∧ RaisedNow 581 s s' ∧ OnlyIn [.chain, .hinge] s s')
    ∧ (s.hears p = true → f.good = true → f.type ∈ [1, 2, 3, 5, 6, 7] → s.consumes f = false →
      (f.hops.toNat < 600 → s.portUp o = true → After (.frameForward p f) s fun s' =>
        sent o s' = some { f with hops := f.hops + 1 } ∧ sent p s' = sent p s ∧ OnlyIn [.chain] s s')
      ∧ (f.hops.toNat < 600 → s.portUp o = false → After (.frameForward p f) s fun s' =>
        sent p s' = some { f with hops := f.hops + 1, wrap := true } ∧ sent o s' = sent o s ∧ OnlyIn [.chain] s s')
      ∧ (600 ≤ f.hops.toNat → After (.frameForward p f) s (· = s)))
    ∧ (s.hears p = true → s.consumes f = true → f.good = true → f.type.toNat < 8 → After (.frameForward p f) s (· = s))
    ∧ (s.hears p = true → f.good = true → 8 ≤ f.type.toNat → f.hops.toNat < 600 → s.portUp o = true →
      After (.frameForward p f) s fun s' =>
        sent o s' = some { f with hops := f.hops + 1 } ∧ Counted (aCh 0x3C) 0 16 1 s s' ∧ RegsBut [aCh 0x3C] s s'
        ∧ OnlyIn [.chain, .regs] s s')
    ∧ (s.hears p = true → f.good = false → After (.frameForward p f) s fun s' =>
      Counted (aCh 0x34) (match p with | .a => 0 | .b => 16) 16 1 s s' ∧ OnlyIn [.chain, .regs] s s'
      ∧ (f.type ∈ [1, 2, 3, 5, 6, 7] → f.hops.toNat < 600 → s.portUp o = true →
        sent o s' = some { f with hops := f.hops + 1 } ∧ sent p s' = sent p s ∧ RegsBut [aCh 0x34] s s'))
    ∧ (let c := field f.payload 0 1
      let all := field f.payload 1 1 % 2 = 1
      s.hears p = true → f.good = true → f.wrap = false → f.hops.toNat < 600 → s.portUp o = true →
      (s.sys.mode = .unaddressed → s.consumes f = false → 1 ≤ c → c ≤ 254 → After (.addressFrame p f) s fun s' =>
        s'.reg (aCh 8) = word c ∧ s'.sys.mode = .preparation
        ∧ s'.sys.aon = s.sys.aon ++ [⟨aCh 8, word c, none⟩]
        ∧ sent o s' = some { f with hops := f.hops + 1, payload := BitVec.ofNat 8 (c + 1) :: f.payload.drop 1 }
        ∧ fld (s'.reg aMode) 4 3 = 1 ∧ OnlyIn [.chain, .hinge, .regs, .sys] s s')
      ∧ (s.consumes f = true → After (.addressFrame p f) s (· = s))
      ∧ (s.sys.mode ≠ .unaddressed → s.sys.mode ≠ .recall → s.consumes f = false → ¬ all → After (.addressFrame p f) s fun s' =>
        sent o s' = some { f with hops := f.hops + 1 } ∧ OnlyIn [.chain] s s'))

/-- R335 to R343: the first good TICK frame of a tick takes the schedule, the tick number and the broadcast data, a malformed
one is dropped and counted; a record fills its sender's slot once; the tick instant moves the schedule on, raises
channel 576, latches every pad's input and makes the local input pass and the output pass due; at the half-tick instant
a missing TICK frame is counted, and at the limit a unit in Run enters Safe; the exchange completes with the own record
in its slot. That each further lost tick at the limit asks for Safe again (log entry 41) and that the tick instant fixes whether
the passes of its tick run (log entry 53) are the model's choices. -/
def Obligations.TickSchedule : Prop :=
  ∀ (p : Port) (f : Frame) (s : State),
    let pl := f.payload
    let per := field pl 12 4
    let coff := field pl 16 4
    let tn := word (field pl 8 4)
    let ti : Time64 := BitVec.ofNat 64 (field pl 0 8)
    let valid := 24 ≤ pl.length ∧ 2000 ≤ per ∧ per ≤ 2000000 ∧ 1 ≤ coff ∧ coff < per
    (s.hears p = true → f.good = true → f.record = false → f.type = 3 → s.sys.mode ≠ .recall → s.localSched = false →
      (valid → s.chain.good = false → s.chain.sched = none → After (.tickFrame p f) s fun s' =>
        s'.chain.sched = some { i := ti, p := per, coff := coff } ∧ s'.chain.per = per ∧ s'.chain.coff = coff
        ∧ s'.chain.ti = ti ∧ s'.chain.tn = tn ∧ s'.chain.good = true ∧ s'.reg (aCh 0xC) = tn
        ∧ fld (s'.reg aChStat) 20 4 = 0 ∧ fld (s'.reg aChStat) 0 8 = field pl 20 1
        ∧ (∀ j, j < min 1000 (pl.length - 24) → readByte s'.mem (aCh 0x1000 + j) = pl.getD (24 + j) 0)
        ∧ MemoryOutside (aCh 0x1000) 1000 s s' ∧ OnlyIn [.chain, .regs, .mem, .hinge] s s')
      ∧ (∀ x, valid → s.chain.sched = some x → x.i = ti → After (.tickFrame p f) s fun s' =>
        s'.chain.sched = some x ∧ s'.chain.per = per ∧ s'.chain.coff = coff ∧ s'.chain.tn = tn
        ∧ s'.chain.good = true)
      ∧ (∀ x, valid → s.chain.sched = some x → x.i ≠ ti → After (.tickFrame p f) s fun s' =>
        s'.chain.sched = some { x with i := ti, skip := 0 } ∧ s'.chain.ti = ti ∧ s'.chain.per = per ∧ s'.chain.coff = coff
        ∧ Counted (aCh 0x38) 0 16 1 s s'
        ∧ ∀ y ∈ s.scan.passes, y.kind ≠ .chainIn → y.c = x.i + BitVec.ofNat 64 (256 * x.coff) →
          ∃ z ∈ s'.scan.passes, z.kind = y.kind ∧ z.due = y.due + (ti - x.i) ∧ z.c = y.c + (ti - x.i))
      ∧ (¬ valid → After (.tickFrame p f) s fun s' =>
        Counted (aCh 0x3C) 0 16 1 s s' ∧ RegsBut [aCh 0x3C] s s' ∧ OnlyIn [.regs] s s'))
    ∧ (let a := f.src.toNat
      s.hears p = true → f.good = true → f.record = true → f.type = 3 → s.sys.mode ≠ .recall → 1 ≤ a → a ≤ 254 →
      a ≠ s.addr → s.chain.done = false → a ∉ s.chain.got → pl.length ≤ 256 → After (.tickRecord p f) s fun s' =>
        (∀ j, j < 256 → readByte s'.mem (chainImage + 256 * (a - 1) + j) = pl.getD j 0)
        ∧ MemoryOutside (chainImage + 256 * (a - 1)) 256 s s'
        ∧ s'.chain = { s.chain with got := s.chain.got ++ [a] } ∧ OnlyIn [.mem, .chain] s s')
    ∧ (∀ x, s.chain.sched = some x → s.running = true → x.half = true → x.commit = true → s.paired = false →
      s.upd.due = false → s.upd.armed = none → bit (s.reg (aHfCh 576)) 31 = false →
      let u := s.atChain x.next
      let latched := if later s.now x.next then periods (x.next + 255) + 1024 else periods (u.nowIn 4)
      let c := x.next + BitVec.ofNat 64 (256 * s.chain.coff)
      After .tickInstant s fun s' =>
        s'.chain.sched = some { i := x.next, p := s.chain.per, coff := s.chain.coff } ∧ s'.chain.ti = x.next
        ∧ s'.chain.tn = s.chain.tn + 1 ∧ s'.chain.good = false ∧ s'.chain.prevGood = s.chain.good
        ∧ s'.chain.got = [] ∧ s'.chain.done = false ∧ s'.cycle = u.cycle ∧ (∃ r ∈ s'.hinge.raised, r.ch = 576)
        ∧ (∀ q, q < 128 → s'.scan.latch.getLsbD q = u.pinNow q)
        ∧ s'.scan.passes = s.scan.passes ++ (if bit (s.reg (aScn 0)) 0 && s.sys.mode.scans then
          [⟨.localIn, latched, c, false, false⟩,
           ⟨.output, c - BitVec.ofNat 64 (256 * (s.reg (aScn 0x14)).toNat), c, false, false⟩] else [])
        ∧ s'.threads = s.threads ∧ SameMemory s s' ∧ s'.sys = s.sys)
    ∧ (∀ x, s.chain.sched = some x → s.running = true → x.half = false → s.localSched = false →
      bit (s.reg (aHfCh 577)) 31 = false →
      let half := x.i + BitVec.ofNat 64 (256 * (x.p / 2))
      let lost := min 15 (fld (s.reg aChStat) 20 4 + 1)
      let limit := fld (s.reg (aCh 0)) 8 4
      (s.chain.good = true → s.chain.done = true → After .halfTick s fun s' =>
        s'.chain = { s.chain with sched := some { x with half := true }, opened := s'.cycle }
        ∧ s'.cycle = (s.atChain half).cycle ∧ (∃ r ∈ s'.hinge.raised, r.ch = 577) ∧ s'.sys = s.sys ∧ SameMemory s s')
      ∧ (s.chain.good = true → s.chain.done = false → After .halfTick s fun s' =>
        s'.chain.sched = some { x with half := true } ∧ s'.chain.done = true ∧ s'.sys = s.sys
        ∧ (s.scan.on = true → s'.scan.passes = s.scan.passes ++
          [⟨.chainIn, if later s.now half then half + 256 else periods (s'.nowIn 1), 0, false, false⟩]))
      ∧ (s.chain.good = false → lost < limit → After .halfTick s fun s' =>
        s'.chain.sched = some { x with half := true } ∧ s'.chain.done = true ∧ fld (s'.reg aChStat) 20 4 = lost
        ∧ (s.chain.done = false → s.scan.on = true →
          s'.scan.passes = s.scan.passes ++ [⟨.chainIn, half, 0, true, false⟩])
        ∧ Counted (aCh 0x38) 16 16 1 s s' ∧ s'.sys = s.sys ∧ SameMemory s s')
      ∧ (s.chain.good = false → limit ≤ lost → s.sys.mode = .run → After .halfTick s fun s' =>
        s'.sys.mode = .safe ∧ s'.sys.gate = true ∧ bit (s'.reg aSafeCause) 4 = true ∧ bit (s'.reg aChStat) 24 = true
        ∧ Counted (aCh 0x38) 16 16 1 s s' ∧ SameMemory s s'))
    ∧ (s.running = true → s.chain.good = true → s.chain.done = false → s.allCollected = true → 1 ≤ s.addr →
      s.addr ≤ 254 → s.scan.tx.length ≤ 256 → After .exchangeComplete s fun s' =>
        (∀ j, j < 256 → readByte s'.mem (chainImage + 256 * (s.addr - 1) + j) = s.scan.tx.getD j 0)
        ∧ MemoryOutside (chainImage + 256 * (s.addr - 1)) 256 s s' ∧ s'.chain.done = true
        ∧ (∀ a, 1 ≤ a → a ≤ 255 → bit (s'.reg (aCh (0x60 + 4 * ((a - 1) / 32)))) ((a - 1) % 32)
          = (s.chain.got.contains a || a == s.addr))
        ∧ s'.scan.passes = s.scan.passes ++ (if s.scan.on then [⟨.chainIn, periods (s.nowIn 1), 0, false, false⟩] else [])
        ∧ RegsBut ((upTo 8).map fun j => aCh (0x60 + 4 * j)) s s' ∧ OnlyIn [.mem, .regs, .chain, .scan] s s')

/-- R345 to R347: a probe request carries T1 and is answered with T1, T2 and T3; an echo gives one delay sample, and the mean of
four or more is the port's delay; a distribution frame passes on with the delay and the residence added to its
correction, and its offset queues a step at the first applied frame; SYNC clears after 100 ms without one. That the halved sample and
the mean round toward minus infinity is the model's reading (log entry 45). -/
def Obligations.ChainTime : Prop :=
  ∀ (p : Port) (f : Frame) (stamp t2 t3 : Time64) (residence : Nat) (s : State),
    let o := otherPort p
    let sent (q : Port) (s' : State) : Option Frame := match q with | .a => s'.chain.sentA | .b => s'.chain.sentB
    let at_ (off : Nat) : Time64 := BitVec.ofNat 64 (field f.payload off 8)
    let here : Time64 := BitVec.ofInt 64 (((s.reg (aDly p)).toNat : Int) + s.asym p)
    let off := (stamp - (at_ 8 + at_ 16 + here)).toInt
    (s.hears p = true → f.good = true → f.type = 4 → field f.payload 0 1 = 0 → f.hops.toNat < 600 → s.portUp o = true →
      (s.consumes f = true → After (.timeDistribution p f stamp residence) s fun s' =>
        sent .a s' = sent .a s ∧ sent .b s' = sent .b s)
      ∧ (s.consumes f = false → s.measured p = true → After (.timeDistribution p f stamp residence) s fun s' =>
        sent o s' = some { f with
          hops := f.hops + 1
          payload := timePayload 0 (field f.payload 1 1) (at_ 8) (at_ 16 + here + BitVec.ofNat 64 residence) 0 }
        ∧ s'.threads = s.threads ∧ SameMemory s s')
      ∧ (s.consumes f = false → s.measured p = false → After (.timeDistribution p f stamp residence) s fun s' =>
        sent o s' = some { f with
          hops := f.hops + 1
          payload := timePayload 0 (field f.payload 1 1 / 2 * 2 + 1) (at_ 8) (at_ 16) 0 }
        ∧ OnlyIn [.chain] s s')
      ∧ (s.measured p = true → field f.payload 1 1 % 2 = 0 → bit (s.reg aTbCtl) 0 = false → s.chain.servo.t0 = none →
        After (.timeDistribution p f stamp residence) s fun s' =>
          s'.reg (aCh 0x2C) = satOffs off
          ∧ s'.corrections = s.corrections ++ [⟨s.cycle + 4, none, some (BitVec.ofInt 64 (-off))⟩]
          ∧ bit (s'.reg aTbStat) 31 = false ∧ s'.chain.servo.t0 = some (at_ 8) ∧ s'.chain.servo.since = s.cycle))
    ∧ (s.hears p = true → f.good = true → f.type = 4 → 3 ≤ field f.payload 0 1 → f.hops.toNat < 600 → s.portUp o = true →
      After (.timeDistribution p f stamp residence) s fun s' =>
        sent o s' = some { f with hops := f.hops + 1 } ∧ OnlyIn [.chain] s s')
    ∧ (s.hears p = true → f.good = false → f.type = 4 → After (.timeDistribution p f stamp residence) s fun s' =>
      Counted (aCh 0x34) (match p with | .a => 0 | .b => 16) 16 1 s s' ∧ OnlyIn [.chain, .regs] s s')
    ∧ (s.measures p = true →
      let c := (s.probe p).sent.elim 0 (· + 200000)
      let u := if s.chain.sched.isNone then s.atCycle c else s
      (s.chain.sched = none ∨ s.inWindow 32 = true ∧ c ≤ s.chain.opened → After (.probeSend p) s fun s' =>
        sent p s' = some (probeFrame p (timePayload 1 0 (stampOf u.now) 0 0))
        ∧ (s'.probe p).sent = some u.cycle ∧ (s'.probe p).samples = (s.probe p).samples ∧ OnlyIn [.chain] u s')
      ∧ (s.chain.sched ≠ none → s.inWindow 32 = false ∨ s.chain.opened < c → After (.probeSend p) s (· = s)))
    ∧ (s.measures p = true → f.good = true → f.type = 4 → field f.payload 0 1 = 1 →
      After (.probeRequest p f t2 t3) s fun s' =>
        sent p s' = some (probeFrame p (timePayload 2 0 (at_ 8) t2 t3)) ∧ OnlyIn [.chain] s s')
    ∧ (s.measures p = true → f.good = true → f.type = 4 → field f.payload 0 1 = 2 → (s.probe p).sent.isSome = true →
      let d := ((stamp - at_ 8).toInt - (at_ 24 - at_ 16).toInt) / 2
      let l := (d :: (s.probe p).samples).take 16
      After (.probeEcho p f stamp) s fun s' =>
        (s'.probe p).samples = l ∧ (s'.probe p).sent = (s.probe p).sent
        ∧ (4 ≤ l.length → s'.reg (aDly p) = BitVec.ofInt 32 (l.foldl (· + ·) 0 / (l.length : Int)))
        ∧ (l.length < 4 → RegsBut [] s s') ∧ RegsBut [aDly p] s s' ∧ OnlyIn [.chain, .regs] s s')
    ∧ (s.running = true → bit (s.reg aTbStat) 31 = true → bit (s.reg aTbCtl) 0 = false →
      let u := s.atCycle (s.chain.servo.since + 20000000)
      s.untilUp = 0 → Raisable 580 u → After .syncTimeout s fun s' =>
        FieldSet aTbStat 31 1 0 u s' ∧ RegsBut [aTbStat] u s' ∧ RaisedNow 580 u s' ∧ OnlyIn [.regs, .hinge] u s')

/-- R330, R350 to R352: a good EVENT frame stores its data and raises its channel with its time; CH_EVSEND queues an EVENT frame
of the unit, or sets OVF and counts a drop where four wait; an own frame leaves on both ports in its window; a frame of
a firmware kind fills CH_UPBUF and raises channel 584, and ACK frees it; CNTCLR clears the counters; CH_TIL latches the
high half. -/
def Obligations.ChainFrames : Prop :=
  ∀ (id : Id) (p : Port) (f : Frame) (v : Word) (s : State),
    let n := field f.payload 0 1
    let key := 256 * f.type.toNat + f.src.toNat
    let new := f.seq ∉ tabGet [] s.chain.dups key
    let waiting := (s.chain.own.filter fun x => x.type == 5).length
    (s.hears p = true → f.type = 5 → f.good = true → f.dst = 255 → f.src.toNat ≠ s.addr → s.sys.mode ≠ .recall →
      n ≤ 47 → f.payload.length = 24 → new → Raisable (592 + n) s → After (.eventFrame p f) s fun s' =>
        (∀ j, j < 8 → readByte s'.mem (aCh (0x2000 + 8 * n) + j) = f.payload.getD (16 + j) 0)
        ∧ MemoryOutside (aCh (0x2000 + 8 * n)) 8 s s'
        ∧ Raised (592 + n) (BitVec.ofNat 64 (field f.payload 8 8)) s s' ∧ OnlyIn [.mem, .hinge, .chain] s s')
    ∧ (s.hears p = true → f.type = 5 → f.good = true → f.dst = 255 → f.src.toNat ≠ s.addr → s.sys.mode ≠ .recall →
      n ≤ 47 → ¬ new → After (.eventFrame p f) s fun s' =>
        Counted (aCh 0x3C) 16 16 1 s s' ∧ RegsBut [aCh 0x3C] s s' ∧ OnlyIn [.regs] s s')
    ∧ (Lands id (aCh 0x40) v s → fld v 0 6 ≤ 47 →
      (waiting < 4 → After (.chEvsend id v) s fun s' =>
        (∃ q, s'.chain.own = s.chain.own ++ [q] ∧ q.type = 5 ∧ q.dst = 255 ∧ field q.payload 0 1 = fld v 0 6
          ∧ field q.payload 8 8 = (if bit v 8 then (s.reg (aCh 0x50) ++ s.reg (aCh 0x4C)).toNat else (periods s.now).toNat)
          ∧ field q.payload 16 4 = (s.reg (aCh 0x44)).toNat ∧ field q.payload 20 4 = (s.reg (aCh 0x48)).toNat)
        ∧ OnlyIn [.chain, .regs] s s')
      ∧ (4 ≤ waiting → After (.chEvsend id v) s fun s' =>
        bit (s'.reg (aCh 0x40)) 30 = true ∧ Counted (aCh 0x3C) 0 16 1 s s' ∧ RegsBut [aCh 0x40, aCh 0x3C] s s'
        ∧ OnlyIn [.regs] s s'))
    ∧ (∀ x xs, s.islesUp = true → s.chain.upA = true → s.chain.upB = true → s.chain.train = [] → s.chain.own = x :: xs →
      s.inWindow x.payload.length = true →
      let left : Chain := { s.chain with
        own := xs, mine := tabSet s.chain.mine (256 * x.type.toNat + x.seq.toNat) x
        sentA := some (s.ownAs x false), sentB := some (s.ownAs x true) }
      let own := 592 + field x.payload 0 1
      (x.type ≠ 5 → x.type ≠ 2 → After .ownFrameSend s fun s' => s'.chain = left ∧ OnlyIn [.chain] s s')
      ∧ (x.type = 2 → After .ownFrameSend s fun s' => s'.chain = left ∧ OnlyIn [.chain, .agent] s s'
        ∧ s'.agent = { s.agent with resetDue := s.agent.resetDue.map (·.gone .chain)
                                    dozeDue := s.agent.dozeDue.map (·.gone .chain) })
      ∧ (x.type = 5 → Raisable own s → After .ownFrameSend s fun s' =>
        s'.chain = left ∧ Raised own (BitVec.ofNat 64 (field x.payload 8 8)) s s' ∧ OnlyIn [.chain, .hinge] s s'))
    ∧ (∀ x, s.chain.train = [] → s.chain.own = [x] → s.inWindow x.payload.length = false → After .ownFrameSend s (· = s))
    ∧ (s.hears p = true → f.type = 6 → f.good = true → f.dst = 255 → f.src.toNat ≠ s.addr → s.sys.mode ≠ .recall →
      new → 12 ≤ f.payload.length → f.payload.length ≤ 1000 → 128 ≤ field f.payload 8 1 →
      bit (s.reg (aCh 0x54)) 31 = false → Raisable 584 s → After (.updateFirmwareKind p f) s fun s' =>
        (∀ j, j < f.payload.length → readByte s'.mem (aCh 0x4000 + j) = f.payload.getD j 0)
        ∧ s'.reg (aCh 0x54) = word (2 ^ 31 + f.payload.length * 2 ^ 16) ∧ RaisedNow 584 s s'
        ∧ MemoryOutside (aCh 0x4000) 1024 s s' ∧ RegsBut [aCh 0x54] s s' ∧ OnlyIn [.mem, .regs, .hinge, .chain] s s')
    ∧ (Lands id (aCh 0x54) 1 s → After (.chUpstAck id) s fun s' =>
      FieldSet (aCh 0x54) 31 1 0 s s' ∧ RegsBut [aCh 0x54] s s' ∧ OnlyIn [.regs] s s')
    ∧ (Lands id (aCh 0) (s.keepWith (aCh 0) 8) s → s.portEn .a = true → s.portEn .b = true → fld (s.reg (aCh 0)) 8 4 ≠ 0 →
      After (.chCntclr id) s fun s' =>
        s'.reg (aCh 0x34) = 0 ∧ s'.reg (aCh 0x38) = 0 ∧ s'.reg (aCh 0x3C) = 0
        ∧ RegsBut [aCh 0x34, aCh 0x38, aCh 0x3C] s s' ∧ OnlyIn [.regs] s s')
    ∧ (Answers id (aCh 0x10) s → After (.chTilRead id) s fun s' =>
      s'.reply = BitVec.ofNat 32 s.chain.ti.toNat
      ∧ s'.chain = { s.chain with tih := tabSet s.chain.tih id.toNat (BitVec.ofNat 32 (s.chain.ti.toNat / 2 ^ 32)) }
      ∧ OnlyIn [.chain, .reply] s s')

/-! ### The Shackle unit (chapter 14) -/

/-- R388, R390, R391, R397, R400: a frame of the partner is copied into CH_SHRX, and the final one of the present tick is the heartbeat,
which clears PMISS; another unit's or another tick's is dropped; a unit whose snapshot is complete sends its train with the mode of
its start; a complete mirror is copied into the windows in time, and without one the deadline
sets NOMIR; SWREQ is set and withdrawn, CNTCLR clears the counters. -/
def Obligations.ShackleUnit : Prop :=
  ∀ (id : Id) (p : Port) (f : Frame) (s : State),
    let off := field f.payload 4 2
    let n := f.payload.length - 8
    let io := (s.shkWin 0xC).1
    let il := (s.shkWin 0xC).2
    let so := (s.shkWin 0x10).1
    let sl := (s.shkWin 0x10).2
    (s.hears p = true → f.type = 7 → f.good = true → f.dst.toNat = s.addr → s.addr ≠ 0 → s.sys.mode ≠ .recall →
      f.seq ∉ tabGet [] s.chain.dups (256 * 7 + f.src.toNat) → f.src.toNat = s.paddr → s.paddr ≠ 0 →
      word (field f.payload 0 4) = s.reg (aCh 0xC) → 8 ≤ f.payload.length → off + n ≤ 16384 →
      (s.chain.tn ≠ s.reg (aCh 0xC) → After (.shackleFrame p f) s fun s' =>
        (∀ j, j < n → readByte s'.mem (aShRx + off + j) = f.payload.getD (8 + j) 0) ∧ MemoryOutside (aShRx + off) n s s'
        ∧ OnlyIn [.mem, .chain] s s')
      ∧ (s.chain.tn = s.reg (aCh 0xC) → field f.payload 6 1 % 2 = 0 → After (.shackleFrame p f) s fun s' =>
        (∀ j, j < n → readByte s'.mem (aShRx + off + j) = f.payload.getD (8 + j) 0) ∧ MemoryOutside (aShRx + off) n s s'
        ∧ s'.shk = { s.shk with ranges := s.shk.ranges ++ [(off, n)] } ∧ OnlyIn [.mem, .shk, .chain] s s')
      ∧ (s.chain.tn = s.reg (aCh 0xC) → field f.payload 6 1 % 2 = 1 → off = 0 → 16 ≤ n → After (.shackleFrame p f) s fun s' =>
        let d := f.payload.drop 8
        s'.shk.peer = some { tn := word (field f.payload 0 4), mode := field d 0 1 % 8, own := field d 1 1 % 2 == 1
                             heard := field d 1 1 / 2 % 2 == 1, swreq := field d 1 1 / 8 % 2 == 1
                             miss := field d 2 1 % 4, mirlen := field d 4 2, outcrc := word (field d 8 4)
                             take := word (field d 12 4) }
        ∧ fld (s'.reg (aShk 0x18)) 29 3 = field d 0 1 % 8 ∧ bit (s'.reg (aShk 0x18)) 28 = (field d 1 1 % 2 == 1)
        ∧ fld (s'.reg (aShk 0x14)) 23 2 = 0
        ∧ s'.threads = s.threads ∧ MemoryOutside aShRx n s s'))
    ∧ (s.hears p = true → f.type = 7 → f.good = true → f.dst.toNat = s.addr → s.addr ≠ 0 → s.sys.mode ≠ .recall →
      f.src.toNat ≠ s.paddr ∨ word (field f.payload 0 4) ≠ s.reg (aCh 0xC) → After (.shackleFrame p f) s fun s' =>
        Counted (aCh 0x3C) 0 16 1 s s' ∧ RegsBut [aCh 0x3C] s s' ∧ OnlyIn [.regs] s s')
    ∧ (s.islesUp = true → s.paired = true → s.sys.mode.scans = true → s.shk.snap = true →
      (s.chain.sched.any fun x => x.half) = true → field (readBytes s.mem aShTx 16) 4 2 = 0 → s.chain.upA = true →
      s.chain.upB = true → s.inWindow 24 = true → After .heartbeatSend s fun s' =>
        let hb : OwnFrame := ⟨7, BitVec.ofNat 8 s.paddr, tabGet 0 s.chain.seqs 7,
          leBytes 4 s.chain.tn.toNat ++ [0, 0, 1, 0] ++ BitVec.ofNat 8 s.sys.mode.code :: (readBytes s.mem aShTx 16).drop 1⟩
        s'.chain.train = [] ∧ s'.chain.sentA = some (s.ownAs hb false) ∧ s'.chain.sentB = some (s.ownAs hb true)
        ∧ s'.shk = { s.shk with snap := false } ∧ MemoryOutside aShTx 1 s s' ∧ OnlyIn [.chain, .shk, .mem] s s')
    ∧ (∀ x, s.running = true → s.sys.mode = .tracking → s.shk.peer = some x → x.mode = 3 → x.tn = s.chain.tn →
      x.mirlen = il + sl → s.shk.applied = false → s.shk.late = false → s.shk.localDone = true →
      covered s.shk.ranges 16 (16 + x.mirlen) = true → later s.now s.deadline = false → Clean s → io + il ≤ 0x60000 →
      so + sl ≤ 0x60000 → io + il ≤ so ∨ so + sl ≤ io → After .mirrorApply s fun s' =>
        (∀ j, j < il → readByte s'.mem (0x40000000 + io + j) = readByte s.mem (aShRx + 16 + j))
        ∧ (∀ j, j < sl → readByte s'.mem (0x40000000 + so + j) = readByte s.mem (aShRx + 16 + il + j))
        ∧ (∀ a, (a < 0x40000000 + io ∨ 0x40000000 + io + il ≤ a) → (a < 0x40000000 + so ∨ 0x40000000 + so + sl ≤ a) →
          readByte s'.mem a = readByte s.mem a)
        ∧ s'.shk = { s.shk with applied := true } ∧ s'.threads = s.threads)
    ∧ (s.running = true → s.sys.mode = .tracking → s.shk.applied = false → s.shk.late = false →
      s.chain.sched.isSome = true → After .applyDeadline s fun s' =>
        bit (s'.reg (aShk 0x14)) 29 = true ∧ s'.shk = { s.shk with late := true }
        ∧ s'.cycle = (s.atChain s.deadline).cycle ∧ SameMemory s s' ∧ s'.threads = s.threads)
    ∧ (Lands id (aShk 0) (s.keepWith (aShk 0) 2) s → After (.swreq id) s fun s' =>
      Flagged (aShk 0) 1 s s' ∧ RegsBut [aShk 0] s s' ∧ OnlyIn [.regs] s s')
    ∧ (Lands id (aShk 0) (s.keepWith (aShk 0) 8) s → After (.swcan id) s fun s' =>
      FieldSet (aShk 0) 1 1 0 s s' ∧ RegsBut [aShk 0] s s' ∧ OnlyIn [.regs] s s')
    ∧ (Lands id (aShk 0) (s.keepWith (aShk 0) 4) s → After (.shkCntclr id) s fun s' =>
      s'.reg (aShk 0x1C) = 0 ∧ RegsBut [aShk 0x1C] s s' ∧ OnlyIn [.regs] s s')

/-! ### The dictionary (chapter 13) -/

/-- R349, R354, R356, R358, R359, R363, R365: a request frame with a listed CMD joins the agent's queue, one with another CMD is
dropped; a read or a write of an absent index is answered NOOBJ, of an absent subindex NOSUB, against its access code
RDONLY, WRONLY or MODE, with a wrong length TYPE; a served read answers the value, a served write of a plain register
writes its RW bits. That a service command of a request which is not the first waiting joins the queue and serves nothing is the
model's choice (log entry 101). -/
def Obligations.Dictionary : Prop :=
  ∀ (r : DictHeader) (data : List Byte) (p : Port) (f : Frame) (s : State),
    let ix := r.index.toNat
    let sub := r.sub.toNat
    let cmd := field f.payload 0 1 % 16
    let both (st : Nat) : Prop :=
      (After (.dictRead r) s fun s' => Answered r 1 true st [] s s' ∧ OnlyIn [.chain, .agent] s s')
      ∧ (After (.dictWrite r data) s fun s' => Answered r 2 true st [] s s' ∧ OnlyIn [.chain, .agent] s s')
    let reads (st : Nat) (bs : List Byte) : Prop := After (.dictRead r) s fun s' =>
      Answered r 1 true st bs s s' ∧ s'.agent.transfers = s.agent.transfers ∧ OnlyIn [.chain, .agent] s s'
    let fails (st : Nat) : Prop := After (.dictWrite r data) s fun s' =>
      Answered r 2 true st [] s s' ∧ s'.agent.session = s.agent.session ∧ OnlyIn [.chain, .agent] s s'
    (s.hears p = true → f.type = 1 → f.good = true → f.dst.toNat = s.addr → s.addr ≠ 0 → s.sys.straps.dictsrc ≠ 1 →
      f.seq ∉ tabGet [] s.chain.dups (256 + f.src.toNat) →
      (1 ≤ cmd → cmd ≤ 6 → 8 ≤ f.payload.length → After (.dqFrame p f) s fun s' =>
        s'.agent = { s.agent with queue := s.agent.queue ++ [(f.seq, f.dst == 255, f.payload)] }
        ∧ OnlyIn [.agent, .chain] s s')
      ∧ (cmd = 0 ∨ 6 < cmd → After (.dqFrame p f) s fun s' =>
        Counted (aCh 0x3C) 0 16 1 s s' ∧ RegsBut [aCh 0x3C] s s' ∧ OnlyIn [.regs, .chain] s s'))
    ∧ (let q := (r.seq, r.bcast, dictPayload r 1 r.last 0 [])
      let key := requestKey q
      (s.agentReady r.src = false → After (.dictRead r) s (· = s))
      ∧ (∀ x xs, s.agentReady .chain = true → s.sys.mode ≠ .recall → r.src = .chain → r.bcast = false →
        s.agent.queue = x :: xs → s.lrp.busy = false →
        (requestKey x = key → r.index = 0x2000 → r.sub = 1 → After (.dictRead r) s fun s' =>
          s'.agent.queue = xs
          ∧ s'.chain.own = s.chain.own ++ [⟨2, 0, r.seq, drBytes r 1 true 0 [BitVec.ofNat 8 s.sys.mode.code]⟩]
          ∧ OnlyIn [.chain, .agent, .lrp] s s')
        ∧ ((∀ y ∈ s.agent.queue, requestKey y ≠ key) → After (.dictRead r) s fun s' =>
          s'.agent = { s.agent with queue := s.agent.queue ++ [q] } ∧ OnlyIn [.agent] s s')))
    ∧ (Asked r s → ¬ FirmwareIndex r →
      (s.object ix = none → both 0x20)
      ∧ (∀ o, s.object ix = some (.one o) → sub ≠ 0 → both 0x21)
      ∧ (∀ top g, s.object ix = some (.recd top g) → top < sub → both 0x21)
      ∧ (∀ top g, s.object ix = some (.recd top g) → sub = 0 → top < 256 → reads 0 [BitVec.ofNat 8 top] ∧ fails 0x22)
      ∧ (r.index = 0x2000 → r.sub = 1 → reads 0 [BitVec.ofNat 8 s.sys.mode.code])
      ∧ ∀ o, s.lookup ix sub = .ok o →
        (o.access = .wo ∨ o.access = .wop → reads 0x23 [])
        ∧ (o.access = .ro ∨ o.access = .const → fails 0x22)
        ∧ (o.access = .rwp ∨ o.access = .wop → s.sys.mode ≠ .preparation → fails 0x30)
        ∧ (∀ m, o.typ = .domain m → o.access = .ro ∨ o.access = .rw → reads 0x25 [])
        ∧ (∀ bs old, o.target = .val bs old → o.access = .ro ∨ o.access = .const ∨ o.access = .rw →
          (o.typ = .text ∨ ∃ m, o.typ = .fixed m) →
          (bs.length ≤ 8 → reads (if old then 1 else 0) bs) ∧ (8 < bs.length → reads 0x24 (leBytes 4 bs.length)))
        ∧ (∀ m, o.typ = .fixed m → o.access = .rw → data.length ≠ m → fails 0x25)
        ∧ (∀ a row, o = ⟨.rw, .fixed 4, .reg a⟩ → a ∈ plainRegs → regRow a = some row → data.length = 4 →
          s.gated a = false → s.writeHeld a = false → mayWrite 288 a (BitVec.ofNat 32 (leNat data)) = true →
          s.kpr.save = none → After (.dictWrite r data) s fun s' =>
            (∀ i, i < 32 → bit (s'.reg a) i =
              if row.rw.testBit i then (leNat data).testBit i
              else bit (s.reg a) i && !(row.w1c.testBit i && (leNat data).testBit i))
            ∧ Answered r 2 true 0 [] s s' ∧ RegsBut [a] s s' ∧ OnlyIn [.regs, .chain, .agent] s s')
        ∧ (o = ⟨.rw, .fixed 4, .session⟩ → data.length = 4 → After (.dictWrite r data) s fun s' =>
          s'.agent.session = BitVec.ofNat 32 (leNat data) ∧ Answered r 2 true 0 [] s s' ∧ OnlyIn [.chain, .agent] s s'))

/-- R359 to R361, R363: a segmented initiate opens a transfer with its total, unless four are open or the object has one
(BUSY); segments are numbered from 1, a repeated number is served again, any other is answered SEQERR and closes the
transfer; the last segment, an abort and 100 ms without a segment close it. -/
def Obligations.DictionarySegments : Prop :=
  ∀ (r : DictHeader) (src : Source) (tag : Byte) (data : List Byte) (room : Nat) (s : State),
    let mine (t : Transfer) : Bool := t.src == .chain && t.tag == r.tag
    let rest := s.agent.transfers.filter fun t => !mine t
    let n := r.segno.toNat
    let new (w : Bool) (total : Nat) : Transfer :=
      { src := .chain, tag := r.tag, index := r.index.toNat, sub := r.sub.toNat, write := w, total := total, pos := 0
        seg := 0, segAt := 0, segLen := 0, staged := [], since := s.cycle }
    let ends (c : Instr) (cmd : Nat) (last : Bool) (st : Nat) (bs : List Byte) (l : List Transfer) : Prop :=
      After c s fun s' => Answered r cmd last st bs s s' ∧ s'.agent.transfers = l ∧ OnlyIn [.chain, .agent] s s'
    (Asked r s → ¬ FirmwareIndex r → s.object r.index.toNat = none →
      ends (.segmentedReadInitiate r) 3 true 0x20 [] rest ∧ ends (.segmentedWriteInitiate r data) 4 true 0x20 [] rest)
    ∧ (Asked r s → ¬ FirmwareIndex r → ∀ o, s.lookup r.index.toNat r.sub.toNat = .ok o →
      (∀ m a len, o = ⟨.ro, .domain m, .buf a len⟩ → rest.length < 4 → (∀ t ∈ rest, t.index ≠ r.index.toNat) →
        len < 2 ^ 32 →
        (0 < len → ends (.segmentedReadInitiate r) 3 false 0 (leBytes 4 len) (rest ++ [new false len]))
        ∧ (len = 0 → ends (.segmentedReadInitiate r) 3 true 0 [0, 0, 0, 0] rest))
      ∧ (∀ m, o = ⟨.rw, .domain m, .shtx⟩ → m ≤ 65536 →
        (data.length ≠ 4 → ends (.segmentedWriteInitiate r data) 4 true 0x25 [] rest)
        ∧ (data.length = 4 → m < leNat data → ends (.segmentedWriteInitiate r data) 4 true 0x24 [] rest)
        ∧ (data.length = 4 → 0 < leNat data → leNat data ≤ m → rest.length < 4 →
          (∀ t ∈ rest, t.index ≠ r.index.toNat) →
          ends (.segmentedWriteInitiate r data) 4 false 0 [] (rest ++ [new true (leNat data)])))
      ∧ (o.access = .ro ∨ o.access = .rw → 4 ≤ rest.length ∨ (∃ t ∈ rest, t.index = r.index.toNat) →
        ends (.segmentedReadInitiate r) 3 true 0x11 [] rest))
    ∧ (Asked r s → ¬ FirmwareIndex r → ∀ t, s.agent.transfers.find? mine = some t →
      ∀ o, s.lookup t.index t.sub = .ok o →
        (∀ m a len, o = ⟨.ro, .domain m, .buf a len⟩ → t.write = false →
          (n = t.seg + 1 →
            let k := min (t.total - t.pos) (min (min 1016 (s.drRoom .chain)) (max 8 room))
            let last := decide (t.total ≤ t.pos + k)
            ends (.segment r data room) 5 last 0 (readBytes s.mem (a + t.pos) k)
              (rest ++ if last then [] else
                [{ t with pos := t.pos + k, seg := n, segAt := t.pos, segLen := k, since := s.cycle }]))
          ∧ (n = t.seg → t.seg ≠ 0 →
            let last := decide (t.total ≤ t.segAt + t.segLen)
            ends (.segment r data room) 5 last 0 (readBytes s.mem (a + t.segAt) t.segLen)
              (rest ++ if last then [] else [{ t with since := s.cycle }]))
          ∧ (n ≠ t.seg + 1 → n ≠ t.seg ∨ t.seg = 0 → ends (.segment r data room) 5 true 0x12 [] rest))
        ∧ (∀ m, o = ⟨.rw, .domain m, .shtx⟩ → t.write = true →
          (n = t.seg + 1 → t.pos + data.length ≤ t.total → (r.last = true → t.pos + data.length = t.total) →
            After (.segment r data room) s fun s' =>
              (∀ j, j < data.length → readByte s'.mem (aShTx + t.pos + j) = data.getD j 0)
              ∧ MemoryOutside (aShTx + t.pos) data.length s s' ∧ Answered r 5 r.last 0 [] s s'
              ∧ s'.agent.transfers = (rest ++ if r.last then [] else
                [{ t with pos := t.pos + data.length, seg := n, segAt := t.pos, segLen := data.length
                          since := s.cycle }])
              ∧ OnlyIn [.chain, .agent, .mem] s s')
          ∧ (n = t.seg + 1 → t.total < t.pos + data.length ∨ (r.last = true ∧ t.pos + data.length < t.total) →
            ends (.segment r data room) 5 true 0x24 [] rest)
          ∧ (n ≠ t.seg + 1 → n ≠ t.seg ∨ t.seg = 0 → ends (.segment r data room) 5 true 0x12 [] rest)))
    ∧ (Asked r s → ¬ FirmwareIndex r →
      ((s.agent.transfers.any mine) = true → ends (.abortTransfer r) 6 true 0 [] rest)
      ∧ ((s.agent.transfers.any mine) = false → ends (.abortTransfer r) 6 true 0x12 [] s.agent.transfers
        ∧ ends (.segment r data room) 5 true 0x12 [] s.agent.transfers))
    ∧ (∀ t, s.running = true → s.agent.kprReq = none →
      s.agent.transfers.find? (fun t => t.src == src && t.tag == tag) = some t →
      After (.transferTimeout src tag) s fun s' =>
        s'.agent.transfers = (s.agent.transfers.filter fun t => !(t.src == src && t.tag == tag))
        ∧ s'.agent.timeouts.toNat = min 65535 (s.agent.timeouts.toNat + 1)
        ∧ OnlyIn [.agent] (s.atCycle (t.since + 20000000)) s')

/-- R377, R378, R460, R461: a request in the firmware range goes whole to the exchange buffer with QLEN, PEND and channel 583,
and is answered with the buffer's bytes at a write of DFW_RSP or with BUSY at the timeout; the local register port takes
a request at GO while it is neither BUSY, DONE nor OFF, and answers into its response buffer; a read of the port shows its
registers and buffers, and while the fabric does not run no access is taken. That an unlisted CMD sets REJ at GO, and that the request
is the bytes that GO took, is the model's reading (log entry 77). -/
def Obligations.FirmwareAndPort : Prop :=
  ∀ (id : Id) (r : DictHeader) (cmd : BitVec 8) (data : List Byte) (off : BitVec 10) (v : Word) (s : State),
    let buf := 0x40000000 + 8 * fld (s.reg aDfwBuf) 3 16
    let pl := drBytes r cmd.toNat r.last 0 data
    let n := fld v 16 11
    let answered (s t : State) : Prop := t.agent.fw = none ∧ bit (t.reg aDfwStat) 15 = false
      ∧ fld (t.reg aDfwStat) 0 11 = 0 ∧ RegsBut [aDfwStat] s t
    let gone (s' : State) : Prop := s'.agent = { s.agent with
      resetDue := s.agent.resetDue.map (·.gone .lrp), dozeDue := s.agent.dozeDue.map (·.gone .lrp) }
    let listed : List Nat := [0, 1, 0x10, 0x11, 0x12, 0x20, 0x21, 0x22, 0x23, 0x24, 0x25, 0x30]
    let request := (readByte s.mem aLrpReq).toNat % 16
    (Asked r s → FirmwareIndex r →
      (bit (s.reg aDfwCtl) 0 = true → pl.length ≤ 1024 → Clean s → bit (s.reg (aHfCh 583)) 31 = false →
        (∀ q ∈ s.hinge.raised, ¬ (q.cyc = s.cycle + 1 ∧ q.ch = 583)) →
        After (.firmwareObjectRequest r cmd data) s fun s' =>
          (∀ j, j < pl.length → readByte s'.mem (buf + j) = pl.getD j 0)
          ∧ MemoryOutside buf ((pl.length + 7) / 8 * 8) s s'
          ∧ bit (s'.reg aDfwStat) 15 = true ∧ fld (s'.reg aDfwStat) 0 11 = pl.length
          ∧ fld (s'.reg aDfwStat) 16 16 = fld (s.reg aDfwStat) 16 16 ∧ RegsBut [aDfwStat] s s'
          ∧ s'.agent.fw = some ⟨r, cmd.toNat, s.cycle + 1⟩
          ∧ s'.hinge = { s.hinge with raised := s.hinge.raised ++ [⟨s.cycle + 1, 583, periods (s.nowIn 1), false, false⟩] }
          ∧ OnlyIn [.mem, .regs, .hinge, .agent] s s')
      ∧ (bit (s.reg aDfwCtl) 0 = false → After (.firmwareObjectRequest r cmd data) s fun s' =>
        Answered r cmd.toNat true 0x20 [] s s' ∧ OnlyIn [.chain, .agent] s s'))
    ∧ (Lands id 0x500F600C v s → 8 ≤ n → n ≤ 1024 →
      (s.agent.fw = none → After (.dfwRsp id v) s fun s' =>
        Flagged aDfwStat 14 s s' ∧ RegsBut [aDfwStat] s s' ∧ OnlyIn [.regs] s s')
      ∧ ∀ q, s.agent.fw = some q → q.hdr.src = .chain → q.hdr.bcast = false → Clean s →
        (readByte s.mem (buf + 5)).toNat ∈ listed → After (.dfwRsp id v) s fun s' =>
          answered s s' ∧ s'.chain = { s.chain with own := s.chain.own ++
            [⟨2, 0, q.hdr.seq, BitVec.ofNat 8 ((readByte s.mem buf).toNat / 16 * 16 + q.cmd)
              :: (drBytes q.hdr q.cmd false (readByte s.mem (buf + 5)).toNat (readBytes s.mem (buf + 8) (n - 8))).drop 1⟩] }
          ∧ OnlyIn [.chain, .agent, .regs] s s')
    ∧ (∀ q, s.agent.fw = some q → q.hdr.src = .chain → q.hdr.bcast = false →
      let u := s.atCycle (q.since + 20000 * fld (s.reg aDfwCtl) 8 8)
      After .dfwTimeout s fun s' =>
        answered u s' ∧ fld (s'.reg aDfwStat) 16 16 = min 65535 (fld (u.reg aDfwStat) 16 16 + 1)
        ∧ s'.chain.own = u.chain.own ++ [⟨2, 0, q.hdr.seq, drBytes q.hdr q.cmd true 0x11 []⟩]
        ∧ OnlyIn [.chain, .agent, .regs] u s')
    ∧ (s.running = true → 8 ≤ n → n ≤ 1024 →
      (s.lrp.busy = false → s.lrp.done = false ∨ bit v 1 = true → s.sys.straps.dictsrc ≠ 0 → 1 ≤ request → request ≤ 6 →
        After (.lrpGo v) s fun s' =>
          s'.lrp = { s.lrp with
            busy := true, done := false, req := readBytes s.mem aLrpReq n, ahead := s.agent.queue.length }
          ∧ (s.lrp.done = true → gone s') ∧ (s.lrp.done = false → s'.agent = s.agent) ∧ OnlyIn [.lrp, .agent] s s')
      ∧ (s.lrp.busy = true ∨ (s.lrp.done = true ∧ bit v 1 = false) ∨ s.sys.straps.dictsrc = 0 ∨ request = 0
          ∨ 6 < request → After (.lrpGo v) s fun s' =>
        s'.lrp = { s.lrp with done := s.lrp.done && !bit v 1, rej := true } ∧ (s.lrp.done = true → bit v 1 = true → gone s')
        ∧ (s.lrp.done = false ∨ bit v 1 = false → s'.agent = s.agent) ∧ OnlyIn [.lrp, .agent] s s'))
    ∧ (s.running = true → bit v 0 = false → After (.lrpAck v) s fun s' =>
      s'.lrp = { s.lrp with done := false } ∧ (s.lrp.done = true → gone s') ∧ (s.lrp.done = false → s'.agent = s.agent)
      ∧ OnlyIn [.lrp, .agent] s s')
    ∧ (s.running = true → off.toNat % 4 = 0 →
      (s.lrp.busy = false → After (.lrpReqWrite off v) s fun s' =>
        readWord s'.mem (aLrpReq + off.toNat) = v ∧ MemoryOutside (aLrpReq + off.toNat) 4 s s' ∧ OnlyIn [.mem] s s')
      ∧ (s.lrp.busy = true → After (.lrpReqWrite off v) s fun s' =>
        s'.lrp = { s.lrp with rej := true } ∧ OnlyIn [.lrp] s s'))
    ∧ (∀ bs, s.lrp.resp = some bs → bs.length ≤ 1024 → After .lrpResponse s fun s' =>
      (∀ j, j < 1024 → readByte s'.mem (aLrpRsp + j) = bs.getD j 0) ∧ MemoryOutside aLrpRsp 1024 s s'
      ∧ s'.lrp = { s.lrp with busy := false, done := true, rlen := bs.length, req := [], resp := none }
      ∧ OnlyIn [.mem, .lrp] s s')
    ∧ (s.running = true → s.sys.mode ≠ .recall → s.sys.straps.dictsrc ≠ 0 → s.agent.fw = none → s.agent.kprReq = none →
      s.lrp.resp = none → s.lrp.done = false → r.src = .lrp → r.index = 0x2000 → r.sub = 1 →
      let asked := s.lrp.busy = true ∧ s.lrp.req ≠ []
        ∧ requestKey (r.seq, r.bcast, s.lrp.req) = requestKey (r.seq, r.bcast, dictPayload r 1 r.last 0 [])
      (asked → s.lrp.ahead = 0 → After (.dictRead r) s fun s' =>
        s'.lrp = { s.lrp with busy := true, req := [], resp := some (drBytes r 1 true 0 [BitVec.ofNat 8 s.sys.mode.code]) }
        ∧ OnlyIn [.lrp, .agent] s s')
      ∧ (¬ asked ∨ s.lrp.ahead ≠ 0 → After (.dictRead r) s (· = s)))
    ∧ (∀ a : Nat,
      (s.running = false → s.portPins a = ⟨true, false, false, 0⟩)
      ∧ (s.running = true → s.portPins a = ⟨false, s.lrp.done, true, s.portWord a⟩)
      ∧ (a % 4 = 0 →
        (a < 0x400 → s.portWord a = readWord s.mem (aLrpReq + a))
        ∧ (a < 0x400 → ∀ i, i < 4 → (s.portWord (0x400 + a)).extractLsb' (8 * i) 8
          = if a + i < s.lrp.rlen then readByte s.mem (aLrpRsp + (a + i)) else 0)
        ∧ (0x800 ≤ a → a ≠ 0x804 → s.portWord a = 0)))
    ∧ (let w := s.portWord 0x804
      bit w 31 = s.lrp.busy ∧ bit w 30 = s.lrp.done ∧ bit w 29 = s.lrp.rej ∧ bit w 28 = (s.sys.straps.dictsrc == 0)
      ∧ (s.lrp.rlen < 2048 → fld w 16 11 = s.lrp.rlen))

/-! ### The Keeper (chapter 15) and firmware update (chapter 16) -/

/-- R404, R408, R410 to R412, R415 to R419, R421, R422, R424: a write of KPR_CMD starts a command with the buffer's bytes, or sets
REJ while one runs; its end moves the page's or the ring's bytes, and shows operation, identity and code in KPR_RES; a
ring step stores the oldest queued value with its SEQ and CRC-16; the scan of Recall ends in Unaddressed or Preparation. The model's
own choices and readings in it are: that whether a save fits the macro is free (log entry 3), the fit of a format (56), the data as they
stand at the command's start and the event of a save (57), engines of the mask at NV_READY alone (62), the moving of SLOTW, VFAIL and
what FORMAT clears (63), that a save leaves the macro formatted (67). -/
def Obligations.Keeper : Prop :=
  ∀ (id : Id) (page : BitVec 12) (start lenm1 : Byte) (key : Option (BitVec 256)) (m : Nat) (s : State),
    let k := s.kpr
    let idle : Prop := s.sys.mode ≠ .recall ∧ k.scan = false ∧ k.cmd = none ∧ k.save = none ∧ s.upd.state ≠ 2
    let cmdWord (op arg a l : Nat) : Word := BitVec.ofNat 32 (op * 2 ^ 28 + arg * 2 ^ 16 + a * 2 ^ 8 + l)
    let starts (c : Instr) (op arg a l : Nat) : Prop :=
      Lands id 0x50060008 (cmdWord op arg a l) s →
        (idle → After c s fun s' =>
          s'.kpr = { k with cmd := some { op := op, arg := arg, start := a, lenm1 := l, id := id.toNat, own := false
                                          data := readBytes s.mem 0x50060100 256 } }
          ∧ RegsBut [] s s' ∧ OnlyIn [.kpr, .regs] s s')
        ∧ (k.cmd.isSome = true → After c s fun s' =>
          Flagged aKprStat 27 s s' ∧ RegsBut [aKprStat] s s' ∧ OnlyIn [.regs] s s')
    let shows (c : KprCmd) (code : Nat) (s' : State) : Prop :=
      s'.kpr.cmd = none ∧ s'.reg 0x5006000C = BitVec.ofNat 32 (c.op * 2 ^ 28 + c.id * 2 ^ 16 + code)
      ∧ (∃ q ∈ s'.hinge.raised, q.ch = 662) ∧ s'.threads = s.threads ∧ s'.cycle = s.cycle
    starts (.rawRead id page start lenm1) 1 page.toNat start.toNat lenm1.toNat
    ∧ starts (.rawWrite id page start lenm1) 2 page.toNat start.toNat lenm1.toNat
    ∧ starts (.ringRead id page) 3 page.toNat 0 0 ∧ starts (.ringWrite id page) 4 page.toNat 0 0
    ∧ starts (.formatNv id) 5 0 0 0
    ∧ (∀ c, s.running = true → Settled s → k.cmd = some c → c.own = false → c.lenm1 < 256 → k.noNv = false →
      bit (s.reg (aHfCh 662)) 31 = false →
      let n := c.lenm1 + 1
      let at_ (j : Nat) : Nat := 0x80000000 + 256 * (s.npages - s.nv.rawcnt + c.arg) + (c.start + j) % 256
      (c.op = 1 → c.arg < s.nv.rawcnt → After (.keeperCommandDone m false) s fun s' =>
        (∀ j, c.filled ≤ j → j < n → readByte s'.mem (0x50060100 + j) = readByte s.mem (at_ j)) ∧ MemoryOutside 0x50060100 n s s'
        ∧ shows c 1 s' ∧ s'.nv = s.nv)
      ∧ (c.op = 2 → c.arg < s.nv.rawcnt → After (.keeperCommandDone m false) s fun s' =>
        (∀ j, j < n → readByte s'.mem (at_ j) = c.data.getD j 0)
        ∧ (∀ a, (∀ j, j < n → a ≠ at_ j) → readByte s'.mem a = readByte s.mem a)
        ∧ fld (s'.reg (aKpr 0x20)) 0 16 = min 65535 (fld (s.reg (aKpr 0x20)) 0 16 + m)
        ∧ s'.nv = { s.nv with journal := none } ∧ shows c 1 s')
      ∧ (c.op = 1 ∨ c.op = 2 → s.nv.rawcnt ≤ c.arg → After (.keeperCommandDone m false) s fun s' =>
        shows c 2 s' ∧ SameMemory s s' ∧ s'.nv = s.nv)
      ∧ (∀ i, c.op = 3 → tabFind s.nv.rings c.arg = some i → k.queue = [] → k.copies = [] →
        (i.store = [] → After (.keeperCommandDone m false) s fun s' =>
          (∀ j, c.filled ≤ j → j < i.bytes → readByte s'.mem (0x50060100 + j) = 0) ∧ shows c 1 s')
        ∧ (∀ b x, x.length = i.bytes + 8 → i.good x = true →
          (i.store = [(b, x)] ∨ ∃ d y, i.store = [(b, x), (d, y)] ∧ (i.good y = false ∨ seqLater (i.seqOf x) (i.seqOf y) = true)) →
          After (.keeperCommandDone m false) s fun s' =>
            (∀ j, c.filled ≤ j → j < i.bytes → readByte s'.mem (0x50060100 + j) = x.getD j 0)
            ∧ MemoryOutside 0x50060100 i.bytes s s' ∧ shows c 1 s'))
      ∧ (∀ i, c.op = 4 → tabFind s.nv.rings c.arg = some i → (∀ q ∈ k.queue, q.1 ≠ c.arg) →
        (k.queue.length < 8 → After (.keeperCommandDone m false) s fun s' =>
          s'.kpr.queue = k.queue ++ [(c.arg, c.data.take i.bytes)] ∧ shows c 1 s' ∧ SameMemory s s' ∧ s'.nv = s.nv)
        ∧ (8 ≤ k.queue.length → After (.keeperCommandDone m false) s fun s' =>
          s'.kpr.queue = k.queue ∧ shows c 4 s' ∧ SameMemory s s' ∧ s'.nv = s.nv))
      ∧ (∀ i v, c.op = 4 → tabFind s.nv.rings c.arg = some i → k.writing = true →
        (∀ q, k.queue = [q, (c.arg, v)] → After (.keeperCommandDone m false) s fun s' =>
          s'.kpr.queue = [q, (c.arg, c.data.take i.bytes)] ∧ shows c 1 s' ∧ SameMemory s s' ∧ s'.nv = s.nv)
        ∧ (k.queue = [(c.arg, v)] → After (.keeperCommandDone m false) s fun s' =>
          s'.kpr.queue = [(c.arg, v), (c.arg, c.data.take i.bytes)] ∧ shows c 1 s' ∧ SameMemory s s' ∧ s'.nv = s.nv))
      ∧ (c.op = 3 ∨ c.op = 4 → tabFind s.nv.rings c.arg = none → After (.keeperCommandDone m false) s fun s' =>
        shows c 2 s' ∧ SameMemory s s' ∧ s'.nv = s.nv)
      ∧ (c.op = 5 → s.sys.mode ≠ .preparation → After (.keeperCommandDone m false) s fun s' =>
        shows c 5 s' ∧ SameMemory s s' ∧ s'.nv = s.nv)
      ∧ (c.op = 5 → s.sys.mode = .preparation → field c.data 4 2 / 16 % 128 = 4 →
        (∀ j, 1 ≤ j → j < 64 → field c.data (4 + 2 * j) 2 / 16 % 128 = 0) → field c.data 0 4 < 2 ^ 13 →
        4 + (4 * (4 * (field c.data 4 2 % 16 + 1) + 8) + 255) / 256 + field c.data 0 4 ≤ s.nvLimit →
        After (.keeperCommandDone m false) s fun s' =>
          s'.nv.formatted = true ∧ s'.nv.rawcnt = field c.data 0 4 ∧ s'.nv.profiles = [] ∧ s'.nv.journal = none
          ∧ s'.nv.rings = [(0, ⟨field c.data 4 2 % 16, 4, []⟩)] ∧ bit (s'.reg aKprStat) 29 = false ∧ s'.kpr.queue = []
          ∧ shows c 1 s' ∧ SameMemory s s'))
    ∧ (∀ i x b q, s.sys.mode.executes = true → s.running = true → k.scan = false → k.noNv = false → Settled s →
      k.queue = x :: q → tabFind s.nv.rings x.1 = some i → i.store = b → 0 < i.slots →
      (b = [] → After (.ringStep 0) s fun s' =>
        tabFind s'.nv.rings x.1 = some { i with store := [(0, x.2 ++ leBytes 4 1 ++ leBytes 4 (crc16 (x.2 ++ leBytes 4 1)).toNat)] }
        ∧ s'.kpr.queue = q ∧ SameMemory s s' ∧ s'.threads = s.threads)
      ∧ (After (.ringStep 3) s fun s' => tabFind s'.kpr.copies x.1 = some x.2 ∧ s'.kpr.queue = q
        ∧ bit (s'.reg aKprStat) 26 = true ∧ fld (s'.reg (aKpr 0x20)) 16 16 = min 65535 (fld (s.reg (aKpr 0x20)) 16 16 + 3)
        ∧ fld (s'.reg (aKpr 0x20)) 0 16 = min 65535 (fld (s.reg (aKpr 0x20)) 0 16 + 3) ∧ SameMemory s s' ∧ s'.threads = s.threads)
      ∧ (∀ n y, b = [(n, y)] → i.good y = true → 2 ≤ i.slots → n < i.slots → After (.ringStep 0) s fun s' =>
        (∃ st, tabFind s'.nv.rings x.1 = some { i with store := st }
          ∧ tabFind st ((n + 1) % i.slots) = some (slotBytes x.2 (i.seqOf y + 1)) ∧ tabFind st n = some y)
        ∧ s'.kpr.queue = q ∧ fld (s'.reg (aKpr 0x20)) 16 16 = min 65535 (fld (s.reg (aKpr 0x20)) 16 16 + 1)
        ∧ SameMemory s s' ∧ s'.threads = s.threads))
    ∧ (Lands id 0x50060000 (s.keepWith 0x50060000 2) s → After (.tornclr id) s fun s' =>
      FieldSet aKprStat 28 1 0 s s' ∧ s'.reg (aKpr 0x18) = 0 ∧ s'.reg (aKpr 0x1C) = 0
      ∧ s'.nv = { s.nv with journal := none } ∧ RegsBut [aKprStat, aKpr 0x18, aKpr 0x1C] s s' ∧ OnlyIn [.regs, .nv] s s')
    ∧ (Lands id 0x50060000 (s.keepWith 0x50060000 4) s → After (.kprCntclr id) s fun s' =>
      s'.reg (aKpr 0x20) = 0 ∧ RegsBut [aKpr 0x20] s s' ∧ OnlyIn [.regs] s s')
    ∧ (s.running = true → s.sys.mode ≠ .recall → k.scan = true →
      (After (.keeperRescan key) s fun s' => s'.kpr = { k with key := key } ∧ OnlyIn [.kpr] s s')
      ∧ (s.nv.journal = none → bit (s.reg aKprStat) 28 = false → After .keeperRescanEnd s fun s' =>
        s'.kpr = { k with scan := false, noNv := !k.nvReady }
        ∧ FieldSet aKprStat 29 1 (!(k.nvReady && s.nv.formatted)).toNat s s' ∧ RegsBut [aKprStat] s s'
        ∧ s'.agent = { s.agent with present := if k.nvReady && s.nv.formatted then s.presentBits else 0 }
        ∧ OnlyIn [.kpr, .regs, .agent] s s'))
    ∧ (s.running = true → s.sys.mode ≠ .recall → After .nvReady s fun s' =>
      s'.kpr = { k with nvReady := true } ∧ OnlyIn [.kpr] s s')
    ∧ (s.running = true → s.sys.mode = .recall → After .nvReady s fun s' =>
      s'.kpr = { k with nvReady := true } ∧ ∀ e, e < 16 → s.mask.testBit e = true → s.engPwr e ≠ 2 →
        s'.engPwr e = 2 ∧ ∃ q ∈ s'.sys.gov, q.eng = e ∧ q.powerUp = true)
    ∧ (∀ p, s.running = true → Settled s → Clean s → k.save = some p → k.noNv = false → s.upd.commit = none →
      s.upd.state ≠ 2 → s.upd.state ≠ 3 → s.upd.state ≠ 4 →
      (After (.saveComplete true) s fun s' =>
        s'.nv = s.nv ∧ s'.agent.savestat = 2 ∧ s'.kpr.save = none ∧ s'.reg 0x5006000C = word (7 * 2 ^ 28 + 288 * 2 ^ 16 + 3)
        ∧ SameMemory s s' ∧ s'.threads = s.threads)
      ∧ (After (.saveComplete false) s fun s' =>
        s'.kpr.save = none ∧ SameMemory s s' ∧ s'.threads = s.threads
        ∧ ((s'.agent.savestat = 1 ∧ s'.reg 0x5006000C = word (7 * 2 ^ 28 + 288 * 2 ^ 16 + 1) ∧ s'.nv.formatted = true
            ∧ ∃ x, tabFind s'.nv.profiles p = some x ∧ x.config = true
              ∧ (∀ a ∈ stored, tabFind x.values a.1 = some (s.reg a.1 &&& word a.2))
              ∧ (∀ j, j < 0x20000 → readByte x.ward j = readByte s.mem (0x50080000 + j))
              ∧ (∀ j, j < 0x10000 → readByte x.routes j = readByte s.mem (0x60000000 + j))
              ∧ x.images = (tabGet {} s.nv.profiles p).images
              ∧ ((∀ y ∈ x.images, y.2.crc = crc32 y.2.extent) → x.sound = true))
          ∨ (s'.agent.savestat = 2 ∧ s'.reg 0x5006000C = word (7 * 2 ^ 28 + 288 * 2 ^ 16 + 6) ∧ s'.nv = s.nv))))
    ∧ (s.running = true → s.sys.mode = .recall → k.nvReady = false ∨ s.maskLocked = true →
      bit (s.reg (aHfCh 656)) 31 = false →
      let ends (s' : State) : Prop :=
        Entered (if s.sys.keepAddr = 0 then .unaddressed else .preparation) s s' ∧ s'.kpr.key = key
        ∧ s'.kpr.noNv = !k.nvReady ∧ s'.kpr.scan = false ∧ s'.agent.loadstat = s.selected.1 ∧ s'.threads = s.threads
        ∧ (k.nvReady = false ∨ s.nv.formatted = false → bit (s'.reg aKprStat) 29 = true)
        ∧ (s.nv.journal = none → s'.nv = s.nv)
      (s.selected.2 = none → After (.recallComplete key) s fun s' =>
        ends s' ∧ s'.agent.active = 0xFF ∧ (∀ j, j < 0x20000 → readByte s'.mem (0x50080000 + j) = 0)
        ∧ ∀ j, j < 0x10000 → readByte s'.mem (0x60000000 + j) = 0)
      ∧ ∀ x, s.selected.2 = some x → memoryForm s = true → After (.recallComplete key) s fun s' =>
        ends s' ∧ s'.agent.active = s.sys.keepSel ∧ s'.sys.padsLoaded = true ∧ s'.reg (aHf 0x20) = x.grp0
        ∧ s'.reg (aHf 0x24) = x.grp1 ∧ ∀ j, j < 0x20000 → readByte s'.mem (0x50080000 + j) = readByte x.ward j)

/-- R427, R430, R432 to R436, R439, R443: an open with an acceptable header enters STAGING, one without fails with HEADER; data
lands in the inactive bank of every engine of the header's mask and is covered; a seal starts once every word is covered
and enters READY only with the right tag; an activation tick judges the image, the activation acts on that verdict and toggles the
banks, and is committed; close, abort and CNTCLR. That whether the extents fit the macro is free (log entry 3), the byte order of the
device key (log entry 64) and that the engine of an island that is off stays unwritten while STAGING (log entry 66) are the model's
choices and readings. -/
def Obligations.Update : Prop :=
  ∀ (id : Id) (p : Port) (f : Frame) (s : State),
    let pl := f.payload
    let u := s.upd
    let session : Word := BitVec.ofNat 32 (field pl 0 4)
    let kind := field pl 8 1
    let off := field pl 4 4
    let data := pl.drop 12
    let reason (s' : State) : Nat := fld (s'.reg (aKpr 0x204)) 4 4
    let taken : Prop := s.hears p = true ∧ f.type = 6 ∧ f.good = true ∧ f.dst = 255 ∧ s.sys.mode ≠ .recall
      ∧ f.seq ∉ tabGet [] s.chain.dups (256 * 6 + f.src.toNat) ∧ bit (s.reg (aCh 0x54)) 31 = false ∧ pl.length ≤ 1024
    let here (s' : State) : Prop := bit (s'.reg (aCh 0x54)) 31 = false ∧ s'.sys = s.sys ∧ s'.cycle = s.cycle
    let ks := s.hdrEngines u.header
    (taken → kind = 1 → u.state ≠ 4 →
      (acceptable data = true → (∀ k ∈ s.hdrEngines data, s.islandOn k = true ∧ s.runsInactive k = false) →
        After (.updateOpen p f) s fun s' =>
          s'.upd = { u with state := 1, header := data, cover := [], sealReq := false, extents := [] }
          ∧ s'.reg (aKpr 0x208) = session ∧ here s' ∧ s'.threads = s.threads ∧ MemoryOutside (aCh 0x4000) 1024 s s')
      ∧ (acceptable data = false → After (.updateOpen p f) s fun s' =>
        s'.upd.state = 5 ∧ reason s' = 3 ∧ here s' ∧ s'.threads = s.threads ∧ MemoryOutside (aCh 0x4000) 1024 s s'))
    ∧ (taken → kind = 2 → u.state = 1 → session = s.reg (aKpr 0x208) → off % 4 = 0 → data.length % 4 = 0 →
      off + data.length ≤ s.updLen → s.updLen ≤ 0x8000 → field pl 9 1 % 2 = 0 → u.sealReq = false → Clean s →
      After (.updateData p f) s fun s' =>
        (∀ k ∈ ks, s.islandOn k = true → ∀ j, j < data.length →
          readByte s'.mem (engKey k (s.inactive k + off + j)) = data.getD j 0)
        ∧ (∀ k, k < 16 → k ∉ ks ∨ s.islandOn k = false →
          ∀ a, engKey k 0 ≤ a → a < engKey k 0x14000 → readByte s'.mem a = readByte s.mem a)
        ∧ s'.upd = { u with cover := u.cover ++ [(off, off + data.length)] } ∧ here s'
        ∧ ∀ k, ks = [k] → s.islandOn k = false →
          fld (s'.reg aXerr) 16 16 = min 65535 (fld (s.reg aXerr) 16 16 + 1) ∧ fld (s'.reg aXerr) 0 9 = 288)
    ∧ (taken → kind = 2 → u.state = 1 → session ≠ s.reg (aKpr 0x208) → After (.updateData p f) s fun s' =>
      s'.upd = u ∧ Counted (aKpr 0x21C) 16 16 1 s s' ∧ here s' ∧ MemoryOutside (aCh 0x4000) 1024 s s')
    ∧ (taken → kind = 3 → u.state = 1 → session = s.reg (aKpr 0x208) → After (.updateClose p f) s fun s' =>
      s'.upd = { u with state := 0, sealReq := false, extents := [] } ∧ here s' ∧ MemoryOutside (aCh 0x4000) 1024 s s')
    ∧ (Lands id 0x50060200 1 s → u.state = 1 →
      (s.gap = s.updLen → After (.sealImage id) s fun s' =>
        s'.upd = { u with state := 2, sealReq := true, profile := s.updProfile } ∧ RegsBut [] s s' ∧ OnlyIn [.upd, .regs] s s')
      ∧ (s.gap ≠ s.updLen → After (.sealImage id) s fun s' =>
        s'.upd = { u with state := 5, extents := [] } ∧ FieldSet (aKpr 0x204) 4 4 1 s s' ∧ RegsBut [aKpr 0x204] s s'
        ∧ OnlyIn [.upd, .regs] s s'))
    ∧ (∀ key body, s.running = true → Settled s → Clean s → u.state = 2 → ks ≠ [] → s.updLen ≤ 0x8000 → s.updLen % 4 = 0 →
      s.kpr.key = some key → s.kpr.noNv = false →
      (∀ k ∈ ks, s.islandOn k = true ∧ readBytes s.mem (engKey k (s.inactive k)) s.updLen = body) →
      let good := hmac256 (leBytes 32 key.toNat) (u.header.take 32 ++ body) = (u.header.drop 32).take 32
      (good → After (.sealDone false) s fun s' =>
        ((s'.upd.state = 3 ∧ s'.upd.profile = u.profile ∧ ∀ k ∈ ks, ∃ x, tabFind s'.upd.extents k = some x
            ∧ x.bankB = !s.bankB k ∧ x.header = some u.header ∧ x.crc = crc32 x.extent
            ∧ (∀ j, j < s.updLen → readByte x.cells (s.inactive k + j) = body.getD j 0)
            ∧ ∀ j, s.updLen ≤ j → j < 0x8000 → readByte x.cells (s.inactive k + j) = 0)
          ∨ (s'.upd.state = 5 ∧ reason s' = 5 ∧ s'.upd.extents = []))
        ∧ (∀ k ∈ ks, ∀ j, s.updLen ≤ j → j < 0x8000 → readByte s'.mem (engKey k (s.inactive k + j)) = 0))
      ∧ (¬ good → After (.sealDone false) s fun s' =>
        s'.upd.state = 5 ∧ reason s' = 2 ∧ s'.upd.extents = [] ∧ s'.nv = s.nv))
    ∧ (Lands id 0x50060200 2 s →
      (u.state ≠ 4 → After (.updAbort id) s fun s' =>
        s'.upd = { u with state := 0, sealReq := false, extents := [] } ∧ RegsBut [] s s' ∧ OnlyIn [.upd, .regs] s s')
      ∧ (u.state = 4 → After (.updAbort id) s fun s' => s'.upd = u ∧ RegsBut [] s s' ∧ OnlyIn [.regs] s s'))
    ∧ (Lands id 0x50060200 4 s → After (.updCntclr id) s fun s' =>
      s'.reg (aKpr 0x21C) = 0 ∧ RegsBut [aKpr 0x21C] s s' ∧ OnlyIn [.regs] s s')
    ∧ (∀ n h ext, s.running = true → Settled s → u.commit = some (n, h, ext) →
      (After (.activationCommit true) s fun s' =>
        s'.upd = { u with commit := none } ∧ bit (s'.reg (aKpr 0x204)) 8 = true ∧ s'.nv = s.nv ∧ SameMemory s s')
      ∧ (∀ k x, ext = [(k, x)] → After (.activationCommit false) s fun s' =>
        s'.upd = { u with commit := none } ∧ s'.nv.orders = s.nv.orders + 1 ∧ SameMemory s s'
        ∧ ∃ y, tabFind s'.nv.profiles n = some y ∧ tabFind y.images k = some { x with order := s.nv.orders + 1 }
          ∧ y.mask.getLsbD k = decide (k < 16) ∧ y.values = (tabGet {} s.nv.profiles n).values))
    ∧ (∀ x t, s.chain.sched = some x → s.running = true → x.half = true → x.commit = true → u.due = false → u.state = 4 →
      u.armed = some t → later t x.next = false → After .tickInstant s fun s' =>
        s'.upd.due = true ∧ s'.upd.verdict = (s'.updCheck true).elim 0 Reason.code ∧ s'.upd.state = 4 ∧ s'.nv = s.nv)
    ∧ (s.running = true → u.due = true → u.state = 4 →
      (u.verdict ≠ 0 → u.verdict < 16 → After .activation s fun s' =>
        s'.upd = { u with due := false, verdict := 0, armed := none, undecided := false, state := 3, result := 2 }
        ∧ FieldSet (aKpr 0x204) 4 4 u.verdict s s' ∧ RegsBut [aKpr 0x204] s s' ∧ OnlyIn [.upd, .regs] s s')
      ∧ (u.verdict = 0 → After .activation s fun s' =>
        s'.upd.state = 0 ∧ s'.upd.result = 1 ∧ s'.upd.armed = none ∧ s'.upd.due = false
        ∧ s'.upd.commit = some (u.profile, u.header, u.extents) ∧ s'.upd.actTime = s.chain.ti
        ∧ (∀ k, k < 16 → bit (s'.reg (aKpr 0x20C)) k = (bit (s.reg (aKpr 0x20C)) k != ks.contains k))
        ∧ fld (s'.reg (aKpr 0x21C)) 0 16 = min 65535 (fld (s.reg (aKpr 0x21C)) 0 16 + 1) ∧ s'.nv = s.nv
        ∧ s'.cycle = s.cycle))

/-! ### The test port (chapter 17) -/

/-- R452, R462 to R464: while DBGEN is 1, DBGA with WR = 0 launches a read and with WR = 1 stores the address, DBGD launches the
write, and a capture shows ERR, DONE and the data; an access ends with its data or refused; IDCODE answers in every
mode; an unlisted code, and DBGA, DBGD and DBGRST while DBGEN is 0, act as BYPASS, whose register TDO shows. That a discarded launch
stores its address, that it shows at the next capture, that every Update-DR writes, the ERR of an access while the fabric does not
run, and that TRST_N ends no access are the model's readings (log entry 78), and the last bit through BYPASS is log entry 129. -/
def Obligations.TestPort : Prop :=
  ∀ (v : Word) (value : BitVec 16) (level : Bool) (s : State),
    let t := s.tap
    let on (i : TapReg) (t : Tap) : Tap := { t with ir := i.code }
    let past (i : TapReg) (last : Bool) : Tap := { t with ir := i.code, bypass := last }
    let launched (i : TapReg) (a : Word) (d : Option Word) (c : Instr) (t : Tap) : Prop :=
      (t.done = true → s.running = true → After c s fun s' =>
        s'.tap = { on i t with access := some (a &&& 0xFFFFFFFC, d), done := false, err := false, data := none }
        ∧ OnlyIn [.tap] s s')
      ∧ (t.done = true → s.running = false → After c s fun s' =>
        s'.tap = { on i t with done := true, err := true, data := none } ∧ OnlyIn [.tap] s s')
      ∧ (t.done = false → After c s fun s' => s'.tap = { on i t with lost := true } ∧ OnlyIn [.tap] s s')
    let ended (err : Bool) (d : Option Word) (s' : State) : Prop :=
      s'.tap = { t with access := none, done := true, err := err, data := d }
    (t.dbgen = true → bit v 0 = false → launched .dbga v none (.dbga v) { t with addr := v })
    ∧ (t.dbgen = true → bit v 0 = true → After (.dbga v) s fun s' =>
      s'.tap = { on .dbga t with addr := v } ∧ OnlyIn [.tap] s s')
    ∧ (t.dbgen = true → bit t.addr 0 = true → launched .dbgd t.addr (some v) (.dbgdUpdate v) t)
    ∧ (t.dbgen = true → bit t.addr 0 = false → After (.dbgdUpdate v) s fun s' => s'.tap = on .dbgd t ∧ OnlyIn [.tap] s s')
    ∧ (t.dbgen = false →
      (After (.dbga v) s fun s' => s'.tap = past .dbga v.msb ∧ OnlyIn [.tap] s s')
      ∧ (After (.dbgdUpdate v) s fun s' => s'.tap = past .dbgd false ∧ OnlyIn [.tap] s s')
      ∧ (After .dbgdCapture s fun s' => s'.tap = past .dbgd false ∧ OnlyIn [.tap] s s')
      ∧ (After (.dbgrst value) s fun s' => s'.tap = past .dbgrst value.msb ∧ OnlyIn [.tap] s s'))
    ∧ (t.ir ∉ [0b00001, 0b01000, 0b01001, 0b01010] ∨ (t.dbgen = false ∧ t.ir ≠ 0b00001) →
      t.selected = .bypass ∧ s.tdo (some 0) = some t.bypass ∧ s.tdo (some 1) = none ∧ s.tdo none = none)
    ∧ (t.ir = 0b00001 → ∀ n, n < 32 →
      s.tdo (some n) = some ((BitVec.ofNat 32 (0x10256001 + s.sys.straps.jtagMid.toNat * 2)).getLsbD n))
    ∧ (t.ir = 0b01001 → t.dbgen = true → ∀ n, n < 34 → s.tdo (some n) = some (t.capture.getLsbD n))
    ∧ (t.dbgen = true → After .dbgdCapture s fun s' =>
      s'.tap.capture.setWidth 32 = s'.reply
      ∧ s'.tap.capture.getLsbD 33 = (t.err || t.lost) ∧ s'.tap.capture.getLsbD 32 = t.done
      ∧ (∀ w, t.data = some w → s'.reply = w) ∧ s'.tap = { on .dbgd t with lost := false, capture := s'.tap.capture }
      ∧ OnlyIn [.tap, .reply, .free] s s')
    ∧ (∀ a, t.access = some (a, none) →
      (s.running = true → a = 0x500F0004 → After .debugAccessDone s fun s' =>
        ended false (some 290) s' ∧ OnlyIn [.tap] s s')
      ∧ (s.running = true → inFar a.toNat = false → After .debugAccessDone s fun s' =>
        ended true none s' ∧ OnlyIn [.tap] s s')
      ∧ (s.running = true → inImage a.toNat = true → a.toNat % 4 = 0 → Clean s → After .debugAccessDone s fun s' =>
        ended false (some (readWord s.mem a.toNat)) s' ∧ OnlyIn [.tap] s s')
      ∧ (s.running = false → After .debugAccessDone s fun s' => ended true none s' ∧ OnlyIn [.tap] s s'))
    ∧ (∀ a d, t.access = some (a, some d) → s.running = true → Settled s → Clean s → inImage a.toNat = true →
      a.toNat % 4 = 0 → After .debugAccessDone s fun s' =>
        readWord s'.mem a.toNat = d ∧ MemoryOutside a.toNat 4 s s' ∧ ended false none s' ∧ OnlyIn [.tap, .mem] s s')
    ∧ (t.access = none → After .debugAccessDone s (· = s))
    ∧ (∀ a d row, t.access = some (a, some d) → a.toNat ∈ plainRegs → regRow a.toNat = some row → Lands 290 a.toNat d s →
      After .debugAccessDone s fun s' =>
        (∀ i, i < 32 → bit (s'.reg a.toNat) i = if row.rw.testBit i then bit d i
          else bit (s.reg a.toNat) i && !(row.w1c.testBit i && bit d i))
        ∧ ended false none s' ∧ RegsBut [a.toNat] s s' ∧ OnlyIn [.tap, .regs] s s')
    ∧ (After .idcode s fun s' =>
      s'.reply = BitVec.ofNat 32 (0x10256001 + s.sys.straps.jtagMid.toNat * 2) ∧ s'.tap = on .idcode t
      ∧ OnlyIn [.tap, .reply] s s')
    ∧ (After .trstN s fun s' => s'.tap = { t with ir := 0b00001 } ∧ OnlyIn [.tap] s s')
    ∧ (After (.dbgenChange level) s fun s' => s'.tap = { t with dbgen := level } ∧ OnlyIn [.tap] s s')
    ∧ (t.dbgen = true → value ≠ 0xC1A5 ∨ s.running = false → After (.dbgrst value) s fun s' =>
      s'.tap = on .dbgrst t ∧ OnlyIn [.tap] s s')

/-! ### Modes and unit resets (chapter 2) -/

/-- R50 to R53, R65 to R68, R374: the transitions of Table 2.13 that a request causes, with SYS_MODE.REJ for every other; the entry
to Doze and Dormant, its wait for channels and the Keeper, and what the islands become; the wakes, and the abort of an entry. That the
engines not on at the entry go off (log entry 59), the instants of a wake (60), REJ and CHG at an abort (61) and a wake while RST_N is
low or REFCLK absent (120) are the model's readings. -/
def Obligations.Modes : Prop :=
  ∀ (id : Id) (v : Word) (slot : Fin 32) (s : State),
    let m := s.sys.mode
    let gives := modeOf (fld v 0 3)
    let clear := s.reg aSafeCause = 0
    let named : Prop := Lands id 0x500F0104 v s ∧ 2 ≤ fld v 0 3 ∧ bit (s.reg (aHfCh 656)) 31 = false
    let runs : Prop := ((bit (s.reg aTbStat) 31 = true ∧ s.untilUp = 0) ∨ s.sys.straps.dictsrc = 1) ∧ clear
      ∧ ¬ (s.paired = true ∧ bit (s.reg (aShk 0x18)) 28 = true)
    let moves : Prop := (m = .preparation ∧ gives = .run ∧ runs) ∨ (m = .preparation ∧ gives = .tracking ∧ s.paired = true)
      ∨ ((m = .run ∨ m = .tracking) ∧ gives = .preparation) ∨ (m = .safe ∧ gives = .preparation ∧ clear)
    let halts : Prop := (m = .unaddressed ∨ m = .preparation ∨ m = .run ∨ m = .tracking) ∧ gives = .safe
    let sleeps : Prop := (m = .preparation ∧ gives = .doze)
      ∨ ((m = .unaddressed ∨ m = .preparation ∨ m = .safe) ∧ gives = .dormant)
    let quiet : Prop := (∀ c, c < 32 → (s.chan c).run = false) ∧ s.kpr.cmd = none ∧ s.kpr.save = none ∧ s.kpr.queue = []
      ∧ s.upd.state ≠ 2 ∧ s.upd.commit = none
    let down (x : Mode) (s' : State) : Prop :=
      s'.sys.mode = x ∧ s'.sys.entry = none ∧ fld (s'.reg aMode) 4 3 = m.code ∧ bit (s'.reg aMode) 8 = true
      ∧ s'.chain.upA = false ∧ s'.chain.upB = false ∧ s'.kpr.nvReady = false ∧ s'.cycle = s.cycle
      ∧ (∀ k, k < 16 → (s'.eng k).power = if x = .doze ∧ s.islandOn k = true then .retained else .off)
      ∧ s'.sys.dozeOn = (if x = .doze then (List.range 16).filter s.islandOn else [])
      ∧ s'.running = false
    let up (s' : State) : Prop := s'.sys.mode = .preparation ∧ s'.cycle = s.cycle + 100 ∧ s'.sys.dozeOn = []
      ∧ s'.kpr.scan = true ∧ s'.sys.upAt = s.cycle + 200 ∧ bit ((s'.pass 100).reg aTbStat) 31 = false
      ∧ bit ((s'.pass 100).reg aTbStat) 17 = true ∧ (s'.pass 100).islesUp = true
      ∧ (∀ k ∈ s.sys.dozeOn, k < 16 → ∃ q ∈ s'.sys.gov, q.eng = k ∧ q.powerUp = true ∧ q.since = s.cycle + 200)
      ∧ s'.pins = s.pins ∧ SameMemory s s'
    (named → gives = m → After (.modeRequest id v) s fun s' => RegsBut [] s s' ∧ OnlyIn [.regs] s s')
    ∧ (named → moves → After (.modeRequest id v) s fun s' =>
      Entered gives s s' ∧ bit (s'.reg aMode) 9 = bit (s.reg aMode) 9 ∧ (gives = .tracking → s'.shk.owner = false)
      ∧ OnlyIn [.regs, .sys, .hinge, .shk] s s')
    ∧ (named → halts → bit (s.reg (aHfCh 657)) 31 = false → After (.modeRequest id v) s fun s' =>
      Entered .safe s s' ∧ bit (s'.reg aSafeCause) 0 = true ∧ s'.sys.gate = true ∧ (∃ q ∈ s'.hinge.raised, q.ch = 657)
      ∧ OnlyIn [.regs, .sys, .hinge, .pads, .shk] s s')
    ∧ (named → gives ≠ m → ¬ moves → ¬ halts → ¬ sleeps → After (.modeRequest id v) s fun s' =>
      Flagged aMode 9 s s' ∧ RegsBut [aMode] s s' ∧ OnlyIn [.regs] s s')
    ∧ (Lands id 0x500F0104 v s → fld v 0 3 < 2 → Raisable 668 s → After (.modeRequest id v) s fun s' =>
      Counted 0x500F0014 0 32 1 s s' ∧ RegsBut [0x500F0014] s s' ∧ RaisedNow 668 s s' ∧ OnlyIn [.regs, .hinge] s s')
    ∧ (named → sleeps → quiet → After (.modeRequest id v) s (down gives))
    ∧ (named → sleeps →
      let goes (c : Nat) : Bool := (s.chan c).run && !(s.chan c).lockw && (s.chan c).desc.isSome
      s.kpr.cmd ≠ none ∨ s.kpr.queue ≠ [] ∨ (∃ c, c < 32 ∧ goes c = true) → After (.modeRequest id v) s fun s' =>
        s'.sys = { s.sys with entry := some ⟨gives, none⟩ } ∧ (∀ c, c < 32 → (s'.chan c).run = goes c) ∧ RegsBut [] s s'
        ∧ OnlyIn [.sys, .chans, .regs] s s')
    ∧ (∀ c w, s.running = true → m = .preparation → s.sys.entry = some ⟨.doze, some c⟩ → s.agent.dozeDue = some w →
      (w.left = 0 → w.aon = 0 → quiet → After .dozeEntryStart s (down .doze))
      ∧ (w.left ≠ 0 → w.src = .lrp → After .dozeEntryStart s (· = s)))
    ∧ (∀ x, s.sys.entry = some x → m ≠ .doze → m ≠ .dormant →
      (bit (s.reg aWakeCfg) 0 = true → (∃ l ∈ s.slotTasks slot.val, 0x8C0 ∈ l) →
        After (.wakeEvent (.latch slot)) s fun s' =>
          s'.sys = { s.sys with entry := none } ∧ Flagged aMode 10 s s' ∧ RegsBut [aMode] s s'
          ∧ OnlyIn [.sys, .regs] s s'))
    ∧ ((∀ l ∈ s.slotTasks slot.val, 0x8C0 ∉ l) ∨ bit (s.reg aWakeCfg) 0 = false →
      After (.wakeEvent (.latch slot)) s (· = s))
    ∧ (s.sys.tmrDue = false ∨ bit (s.reg aWakeCfg) 1 = false → After .wakeTimer s (· = s))
    ∧ (m = .doze ∨ m = .dormant → s.sys.held = true ∨ s.sys.noRef = true → bit (s.reg aWakeCfg) 0 = true →
      (∃ l ∈ s.slotTasks slot.val, 0x8C0 ∈ l) → After (.wakeEvent (.latch slot)) s fun s' =>
        bit (s'.reg aWakeSrc) 0 = true ∧ fld (s'.reg aWakeSrc) 5 5 = slot.val ∧ RegsBut [aWakeSrc] s s' ∧ OnlyIn [.regs] s s')
    ∧ (m = .doze → s.sys.held = false → s.sys.noRef = false → s.sys.porLow = false →
      (bit (s.reg aWakeCfg) 1 = true → s.sys.tmrDue = true →
        (After .wakeTimer s fun s' => up s' ∧ bit (s'.reg aWakeSrc) 1 = true)
        ∧ After (.wakeEvent .timer) s fun s' => up s' ∧ bit (s'.reg aWakeSrc) 1 = true)
      ∧ (bit (s.reg aWakeCfg) 0 = true → (∃ l ∈ s.slotTasks slot.val, 0x8C0 ∈ l) →
        After (.wakeEvent (.latch slot)) s fun s' =>
          up s' ∧ bit (s'.reg aWakeSrc) 0 = true ∧ fld (s'.reg aWakeSrc) 5 5 = slot.val))
    ∧ (∀ w ws, s.sys.aon = w :: ws → w.id = none → s.agent.resetDue = [] →
      (w.addr = aWakeTmr → After .aonWriteDone s fun s' =>
        s'.reg aWakeTmr = w.value ∧ s'.sys = { s.sys with aon := ws } ∧ RegsBut [aWakeTmr] s s' ∧ OnlyIn [.regs, .sys] s s')
      ∧ (w.addr = aCh 8 → After .aonWriteDone s fun s' =>
        s'.sys = { s.sys with aon := ws, keepAddr := fld w.value 0 8 } ∧ OnlyIn [.sys] s s')
      ∧ (w.addr = 0 → After .aonWriteDone s fun s' =>
        s'.sys = { s.sys with aon := ws, keepSel := w.value.toNat } ∧ OnlyIn [.sys] s s'))
    ∧ (∀ w ws, s.sys.aon = w :: ws → After .aonWriteDone s fun s' =>
      s'.agent = { s.agent with resetDue := s.agent.resetDue.map fun x => { x with aon := x.aon - 1 } })
    ∧ (∀ w ws i q qs, s.sys.aon = w :: ws → w.id = some i → w.addr = aWakeTmr → s.agent.resetDue = [] → (s.thr i).outst = q :: qs → q.phase = .aon →
      After .aonWriteDone s fun s' =>
        s'.reg aWakeTmr = w.value ∧ s'.sys = { s.sys with aon := ws }
        ∧ s'.thr i = { s.thr i with outst := { q with phase := .done } :: qs } ∧ ThreadsBut [i] s s'
        ∧ RegsBut [aWakeTmr] s s' ∧ OnlyIn [.regs, .sys, .threads] s s')

/-- R54 to R56, R68, R375, R450, R451, R463, R467: a unit reset enters Recall with every thread STOPPED, every island but the
always-on one reset and its cause recorded; the always-on registers, the NV macro and the memories of islands that stay
powered are kept; a power-on reset clears them too but for the macro; while PORST_N is low every cell drives Z. The model's own are
the instant of the state after a reset (log entry 2), that memory which lost its power reads 0, which R171 leaves undefined (4), the
values of the U and P fields (6, 7, 84), the always-on writes that a reset discards and CAL (58), straps and pins (72). -/
def Obligations.UnitResets : Prop :=
  ∀ (id : Id) (v : Word) (pins : Straps) (slot : Fin 32) (s : State),
    let nv (a : Nat) : Bool := decide (0x80000000 ≤ a) && decide (a < 0x90000000)
    let powered (a : Nat) : Bool :=
      (decide (0x40000000 ≤ a) && decide (a < 0x50000000)) || (decide (0x50080000 ≤ a) && decide (a < 0x90000000))
    let after (kept : Nat → Bool) (s' : State) : Prop :=
      s'.sys.mode = .recall ∧ s'.sys.noRef = false ∧ s'.sys.porLow = false ∧ s'.sys.resetReq = false ∧ s'.sys.entry = none
      ∧ s'.cycle = 200 ∧ s'.tb = 0 ∧ s'.threads = [] ∧ s'.engines = [] ∧ s'.timers = [] ∧ s'.cvts = [] ∧ s'.chans = []
      ∧ s'.corrections = [] ∧ s'.tum = {} ∧ s'.chain = {} ∧ s'.scan = {} ∧ s'.shk = {} ∧ s'.agent = {} ∧ s'.lrp = {}
      ∧ s'.upd = {} ∧ s'.nv = s.nv ∧ s'.pending = s.pending
      ∧ ∀ a, readByte s'.mem a = if kept a then readByte s.mem a else 0
    let warm (cause : Nat) (kept : Nat → Bool) (s' : State) : Prop :=
      after kept s' ∧ Flagged aRstCause cause s s' ∧ s'.reg aWakeCfg = s.reg aWakeCfg ∧ s'.reg aWakeTmr = s.reg aWakeTmr
      ∧ s'.sys.keepAddr = s.sys.keepAddr ∧ s'.sys.keepSel = s.sys.keepSel ∧ s'.hinge = { slots := s.hinge.slots }
      ∧ s'.sys.straps = { s.sys.straps with dictsrc := s.pins } ∧ s'.pins = s.pins ∧ fld (s'.reg aCal) 0 16 = 0
      ∧ s'.reg (aCh 8) = word s.sys.keepAddr
      ∧ ∀ a, a ∉ aonRegs → a ∉ [aCal, aCh 8, aCh 0, aTbCtl, aEngPwr] → s'.reg a = regReset a
    let cut (t : Tap) : Tap :=
      if s.tap.access.isSome then { t with access := none, done := true, err := true, data := some 0 } else t
    s.kpr.cmd = none → s.kpr.queue = [] → (∀ a d, s.tap.access ≠ some (a, some d)) → s.sys.keepAddr < 256 →
    (After (.powerOnReset pins) s fun s' =>
      after nv s' ∧ s'.reg aRstCause = 1 ∧ s'.sys.straps = pins ∧ s'.sys.keepAddr = 0
      ∧ s'.sys.keepSel = pins.profsel.toNat ∧ s'.hinge = {} ∧ s'.pins = pins.dictsrc
      ∧ s'.sys.held = s.sys.held ∧ s'.tap = cut { dbgen := s.tap.dbgen }
      ∧ ∀ a, a ∉ [aCh 0, aTbCtl] → s'.reg a = regReset a)
    ∧ (s.porst.running = false ∧ s.porst.ownLvl = 2 ∧ (∀ p, p < 8 → s.porst.trigLvl p = 2)
      ∧ ∀ q, q < 128 → s.porst.shown q = 2)
    ∧ (s.sys.mode ≠ .dormant → s.sys.noRef = false → After .pinReset s fun s' =>
      warm 1 powered s' ∧ s'.sys.held = false ∧ s'.tap = cut s.tap ∧ s'.kpr.nvReady = s.kpr.nvReady)
    ∧ (s.sys.noRef = true → After .pinReset s fun s' => s'.sys = { s.sys with held := false } ∧ OnlyIn [.sys] s s')
    ∧ (s.sys.mode ≠ .dormant → s.sys.noRef = true → After .refclkReturn s fun s' =>
      warm 1 powered s' ∧ s'.sys.held = s.sys.held ∧ s'.tap = cut s.tap)
    ∧ (Lands id 0x500F010C v s → fld v 16 16 = 0xC1A5 → bit v 0 = true → After (.softReset id v) s
      (warm 3 powered))
    ∧ (Lands id 0x500F010C v s → fld v 16 16 ≠ 0xC1A5 ∨ bit v 0 = false → After (.softReset id v) s fun s' =>
      RegsBut [] s s' ∧ OnlyIn [.regs] s s')
    ∧ (s.running = true →
      ((∃ w ∈ s.agent.resetDue, w.left = 0 ∧ w.aon = 0) → After .dictReset s (warm 2 powered))
      ∧ ((∀ w ∈ s.agent.resetDue, w.left ≠ 0 ∨ w.aon ≠ 0) → After .dictReset s (· = s)))
    ∧ (s.tap.dbgen = true → s.running = true → After (.dbgrst 0xC1A5) s (warm 4 powered))
    ∧ (s.sys.mode = .dormant → s.sys.held = false → s.sys.noRef = false → bit (s.reg aWakeCfg) 0 = true → (∃ l ∈ s.slotTasks slot.val, 0x8C0 ∈ l) →
      After (.wakeEvent (.latch slot)) s fun s' =>
        warm 5 nv s' ∧ bit (s'.reg aWakeSrc) 0 = true ∧ fld (s'.reg aWakeSrc) 5 5 = slot.val)
    ∧ (After .rstNAssert s fun s' =>
      s'.sys = { s.sys with held := true } ∧ s'.running = false ∧ OnlyIn [.sys] s s')
    ∧ (After .refclkLoss s fun s' =>
      s'.sys.noRef = true ∧ s'.running = false ∧ (∀ q, q < 128 → (s'.pad q).force.isSome = true)
      ∧ OnlyIn [.sys, .pads] s s')

/-! ### The queue and the state as a whole -/

/-- A step takes the command at the front of the queue: it is `exec` of that command on the state with the queue's rest. On an
empty queue one fabric cycle passes (DESIGN CHOICE, log entry 1); where no timer has a STEP of this cycle, no LFCAP lands and no
island comes up in it, that is all. -/
def Obligations.StepRunsCommand : Prop :=
  ∀ (c : Instr) (rest : List Instr) (s : State),
    step { s with pending := c :: rest } = exec c { s with pending := rest }
    ∧ (s.pending = [] → ∃ t, step s = .next t ∧ t.cycle = s.cycle + 1 ∧ t.sys = s.sys ∧ SameMemory s t
      ∧ ((∀ x ∈ s.timers, x.2.steps = 0) → s.hinge.lfdue = [] → s.untilUp ≠ 1 → OnlyIn [.cycle, .tb, .tum] s t))

/-- R54 to R56, Table 2.6: the state right after a power-on reset: mode Recall, every register at its Reset value with
SYS_RSTCAUSE.POR 1, every thread STOPPED, no command waiting, the memories in canonical form. That a byte nothing has
written reads 0 is the model's own (DESIGN CHOICE, log entry 4), and so is that KPR_STAT.SCAN, which stands outside the registers,
reads 1 at this instant (DESIGN CHOICE, log entry 128). -/
def Obligations.ResetHolds : Prop :=
  State.reset.sys.mode = .recall ∧ State.reset.reg aRstCause = 1 ∧ (∀ a, State.reset.reg a = regReset a)
    ∧ (∀ id, (State.reset.thr id).st = .stopped ∧ (State.reset.thr id).rd 14 = 0x14000)
    ∧ (∀ a, readByte State.reset.mem a = 0) ∧ State.reset.pending = []
    ∧ memoryForm State.reset = true ∧ mergeForm State.reset = true

/-- Every command completes at every state, so that no run of commands ends, and every step keeps the forms of the state: the
addressed memories, the tables and images that the NV macro and the stager hold in canonical form, and the merge entries
in theirs. That every command completes is the model's choice (DESIGN CHOICE, log entry 9), and so are the canonical forms: R176, R179,
R401 and R427 say what the entries, the macro and the images hold, not the form of a list. -/
def Obligations.StepKeepsForm : Prop :=
  (∀ (c : Instr) (s : State), ∃ t, exec c s = .next t)
    ∧ ∀ s : State, ∃ t, step s = .next t
      ∧ (memoryForm s = true → mergeForm s = true → memoryForm t = true ∧ mergeForm t = true)
end

