-- ==== Sys2Proof/Laws/Tab.lean ====
section
/-! SUPPORT. The laws of the sparse tables: what a lookup answers after an update, and that every update keeps the keys
rising. The lookup laws hold of every list, sorted or not. -/

namespace Sys2Proof.Machine

variable {α : Type}

theorem tabFind_tabSet_same (t : Tab α) (k : Nat) (v : α) : tabFind (tabSet t k v) k = some v := by
  induction t with
  | nil => simp [tabSet, tabFind]
  | cons x t ih =>
    obtain ⟨j, u⟩ := x
    simp only [tabSet]
    split
    · simp [tabFind]
    · split
      · simp [tabFind]
      · simp [tabFind, *]

theorem tabFind_tabSet_other (t : Tab α) {k j : Nat} (v : α) (h : j ≠ k) : tabFind (tabSet t k v) j = tabFind t j := by
  induction t with
  | nil => simp [tabSet, tabFind, Ne.symm h]
  | cons x t ih =>
    obtain ⟨i, u⟩ := x
    simp only [tabSet]
    split
    · subst_vars; simp [tabFind, Ne.symm h]
    · split
      · simp [tabFind, Ne.symm h]
      · simp [tabFind, ih]

/-- What a lookup answers after an update. -/
theorem tabFind_tabSet (t : Tab α) (k j : Nat) (v : α) :
    tabFind (tabSet t k v) j = if j = k then some v else tabFind t j := by
  split
  · subst_vars; exact tabFind_tabSet_same t _ v
  · exact tabFind_tabSet_other t v ‹_›

theorem tabGet_tabSet (d : α) (t : Tab α) (k j : Nat) (v : α) :
    tabGet d (tabSet t k v) j = if j = k then v else tabGet d t j := by
  simp only [tabGet, tabFind_tabSet]; split <;> rfl

/-- What a lookup answers where entries whose key fails `p` are left out. -/
theorem tabFind_filterKey (t : Tab α) (p : Nat → Bool) (k : Nat) :
    tabFind (t.filter fun kv => p kv.1) k = if p k then tabFind t k else none := by
  induction t with
  | nil => simp [tabFind]
  | cons x t ih =>
    obtain ⟨i, u⟩ := x
    by_cases hp : p i
    · simp only [List.filter_cons, hp, if_true, tabFind, ih]
      by_cases hi : i = k
      · subst hi; simp [hp]
      · simp [hi]
    · simp only [List.filter_cons, hp, tabFind]
      by_cases hi : i = k
      · subst hi; simp [hp, ih]
      · simp [hi, ih]

theorem tabFind_tabErase (t : Tab α) (k j : Nat) : tabFind (tabErase t k) j = if j = k then none else tabFind t j := by
  have h := tabFind_filterKey t (fun a => a != k) j
  simp only [tabErase]
  rw [h]
  by_cases hj : j = k <;> simp [hj]

theorem tabGet_tabErase (d : α) (t : Tab α) (k j : Nat) :
    tabGet d (tabErase t k) j = if j = k then d else tabGet d t j := by
  simp only [tabGet, tabFind_tabErase]; split <;> rfl

@[simp] theorem tabFind_nil (k : Nat) : tabFind ([] : Tab α) k = none := rfl
@[simp] theorem tabGet_nil (d : α) (k : Nat) : tabGet d ([] : Tab α) k = d := rfl

/-! ### Rising keys -/

/-- The keys rise: the head is below every later key, and the rest rises. -/
theorem tabSorted_cons (j : Nat) (v : α) (t : Tab α) :
    tabSorted ((j, v) :: t) = true ↔ (∀ x ∈ t, j < x.1) ∧ tabSorted t = true := by
  induction t generalizing j v with
  | nil => simp [tabSorted]
  | cons x t ih =>
    obtain ⟨k, w⟩ := x
    simp only [tabSorted, Bool.and_eq_true, decide_eq_true_eq]
    constructor
    · rintro ⟨h, hs⟩
      refine ⟨?_, hs⟩
      intro x hx
      rcases List.mem_cons.1 hx with rfl | hx
      · exact h
      · exact Nat.lt_trans h (((ih k w).1 hs).1 x hx)
    · rintro ⟨h, hs⟩
      exact ⟨h (k, w) (List.mem_cons_self ..), hs⟩

theorem tabSorted_filter (t : Tab α) (p : Nat × α → Bool) (h : tabSorted t = true) : tabSorted (t.filter p) = true := by
  induction t with
  | nil => exact h
  | cons x t ih =>
    obtain ⟨j, v⟩ := x
    obtain ⟨h1, h2⟩ := (tabSorted_cons j v t).1 h
    rw [List.filter_cons]
    split
    · exact (tabSorted_cons j v _).2 ⟨fun x hx => h1 x (List.mem_filter.1 hx).1, ih h2⟩
    · exact ih h2

theorem mem_tabSet (t : Tab α) (k : Nat) (v : α) (x : Nat × α) (h : x ∈ tabSet t k v) : x = (k, v) ∨ x ∈ t := by
  induction t with
  | nil => simpa [tabSet] using h
  | cons y t ih =>
    obtain ⟨j, u⟩ := y
    simp only [tabSet] at h
    split at h
    · rcases List.mem_cons.1 h with h | h
      · exact .inl h
      · exact .inr (List.mem_cons_of_mem _ h)
    · split at h
      · rcases List.mem_cons.1 h with h | h
        · exact .inl h
        · exact .inr h
      · rcases List.mem_cons.1 h with h | h
        · exact .inr (h ▸ List.mem_cons_self ..)
        · rcases ih h with h | h
          · exact .inl h
          · exact .inr (List.mem_cons_of_mem _ h)

theorem tabSorted_tabSet (t : Tab α) (k : Nat) (v : α) (h : tabSorted t = true) : tabSorted (tabSet t k v) = true := by
  induction t with
  | nil => rfl
  | cons y t ih =>
    obtain ⟨j, u⟩ := y
    obtain ⟨h1, h2⟩ := (tabSorted_cons j u t).1 h
    simp only [tabSet]
    split
    · subst_vars; exact (tabSorted_cons _ v t).2 ⟨h1, h2⟩
    · split
      · rename_i hkj
        refine (tabSorted_cons k v _).2 ⟨?_, h⟩
        intro x hx
        rcases List.mem_cons.1 hx with rfl | hx
        · exact hkj
        · exact Nat.lt_trans hkj (h1 x hx)
      · refine (tabSorted_cons j u _).2 ⟨?_, ih h2⟩
        intro x hx
        rcases mem_tabSet t k v x hx with rfl | hx
        · simp only; omega
        · exact h1 x hx

theorem tabSorted_tabErase (t : Tab α) (k : Nat) (h : tabSorted t = true) : tabSorted (tabErase t k) = true :=
  tabSorted_filter t _ h

theorem tabSorted_tabDrop (p : Nat → α → Bool) (t : Tab α) (h : tabSorted t = true) : tabSorted (tabDrop p t) = true :=
  tabSorted_filter t _ h

/-- In a table with rising keys a listed pair is what its key finds. -/
theorem tabFind_of_mem (t : Tab α) (h : tabSorted t = true) (k : Nat) (v : α) (hm : (k, v) ∈ t) : tabFind t k = some v := by
  induction t with
  | nil => cases hm
  | cons y t ih =>
    obtain ⟨j, u⟩ := y
    obtain ⟨h1, h2⟩ := (tabSorted_cons j u t).1 h
    rcases List.mem_cons.1 hm with hm | hm
    · cases hm; simp [tabFind]
    · have := h1 _ hm
      simp only [tabFind]
      rw [if_neg (by simp only at this; omega)]
      exact ih h2 hm

/-- What a key finds is listed. -/
theorem mem_of_tabFind (t : Tab α) (k : Nat) (v : α) (h : tabFind t k = some v) : (k, v) ∈ t := by
  induction t with
  | nil => cases h
  | cons y t ih =>
    obtain ⟨j, u⟩ := y
    simp only [tabFind] at h
    split at h
    · cases h; subst_vars; exact List.mem_cons_self ..
    · exact List.mem_cons_of_mem _ (ih h)

end Sys2Proof.Machine
end

