-- ==== Sys2Proof/Laws/Mem.lean ====
section
/-! SUPPORT. The laws of memory: a read after a write, that every operation keeps the canonical form, and that numbers
and their little-endian bytes agree. -/

namespace Sys2Proof.Machine

/-! ### A read after a write -/

theorem readByte_writeByte (m : Memory) (a x : Nat) (b : Byte) :
    readByte (writeByte m a b) x = if x = a then b else readByte m x := by
  simp only [readByte, writeByte]
  split
  · subst_vars; exact tabGet_tabErase _ _ _ _
  · exact tabGet_tabSet _ _ _ _ _

@[simp] theorem readByte_writeByte_same (m : Memory) (a : Nat) (b : Byte) : readByte (writeByte m a b) a = b := by
  simp [readByte_writeByte]

theorem readByte_writeByte_other (m : Memory) {a x : Nat} (b : Byte) (h : x ≠ a) :
    readByte (writeByte m a b) x = readByte m x := by simp [readByte_writeByte, h]

/-- A write of a list of bytes: inside it the list's byte, outside it what was there. -/
theorem readByte_writeBytes (m : Memory) (a : Nat) (bs : List Byte) (x : Nat) :
    readByte (writeBytes m a bs) x = if a ≤ x ∧ x < a + bs.length then bs.getD (x - a) 0 else readByte m x := by
  induction bs generalizing m a with
  | nil => rw [if_neg (by simp only [List.length_nil]; omega)]; rfl
  | cons b bs ih =>
    simp only [writeBytes, ih, readByte_writeByte, List.length_cons]
    by_cases hx : x = a
    · subst hx; rw [if_neg (by omega)]; simp
    · by_cases h : a + 1 ≤ x ∧ x < a + 1 + bs.length
      · obtain ⟨n, rfl⟩ : ∃ n, x = a + 1 + n := ⟨x - (a + 1), by omega⟩
        rw [if_pos h, if_pos (by omega)]
        have h1 : a + 1 + n - (a + 1) = n := by omega
        have h2 : a + 1 + n - a = n + 1 := by omega
        simp [h1, h2]
      · rw [if_neg h, if_neg hx, if_neg (by omega)]

theorem readByte_writeBytes_outside (m : Memory) (a : Nat) (bs : List Byte) (x : Nat) (h : x < a ∨ a + bs.length ≤ x) :
    readByte (writeBytes m a bs) x = readByte m x := by
  rw [readByte_writeBytes, if_neg (by omega)]

@[simp] theorem leBytes_length (n v : Nat) : (leBytes n v).length = n := by
  induction n generalizing v with
  | zero => rfl
  | succ n ih => simp [leBytes, ih]

@[simp] theorem readBytes_length (m : Memory) (a n : Nat) : (readBytes m a n).length = n := by
  induction n generalizing a with
  | zero => rfl
  | succ n ih => simp [readBytes, ih]

theorem readBytes_getD (m : Memory) (a n j : Nat) (h : j < n) : (readBytes m a n).getD j 0 = readByte m (a + j) := by
  induction n generalizing a j with
  | zero => omega
  | succ n ih =>
    cases j with
    | zero => simp [readBytes]
    | succ j =>
      have := ih (a + 1) j (by omega)
      simpa [readBytes, Nat.add_assoc, Nat.add_comm 1 j] using this

/-- Two memories that agree on a range read alike there. -/
theorem readBytes_congr (m m' : Memory) (a n : Nat) (h : ∀ j, j < n → readByte m' (a + j) = readByte m (a + j)) :
    readBytes m' a n = readBytes m a n := by
  induction n generalizing a with
  | zero => rfl
  | succ n ih =>
    have h0 := h 0 (by omega)
    have h1 := ih (a + 1) fun j hj => by
      have := h (j + 1) (by omega)
      simpa [Nat.add_assoc, Nat.add_comm 1 j] using this
    simp only [readBytes, h1]
    simpa using h0

/-- What was written reads back. -/
theorem readBytes_writeBytes (m : Memory) (a : Nat) (bs : List Byte) :
    readBytes (writeBytes m a bs) a bs.length = bs := by
  apply List.ext_getElem (by simp)
  intro j h1 h2
  have h3 : j < bs.length := h2
  have h := readBytes_getD (writeBytes m a bs) a bs.length j h3
  rw [readByte_writeBytes, if_pos (by omega)] at h
  have e : a + j - a = j := by omega
  rw [e] at h
  simpa [List.getD_eq_getElem?_getD, List.getElem?_eq_getElem, h1, h2] using h

theorem readBytes_writeBytes_outside (m : Memory) (a : Nat) (bs : List Byte) (b n : Nat)
    (h : b + n ≤ a ∨ a + bs.length ≤ b) : readBytes (writeBytes m a bs) b n = readBytes m b n := by
  apply readBytes_congr
  intro j hj
  exact readByte_writeBytes_outside m a bs _ (by omega)

/-! ### Numbers and bytes (R10) -/

theorem leNat_leBytes (n v : Nat) : leNat (leBytes n v) = v % 256 ^ n := by
  induction n generalizing v with
  | zero => simp [leBytes, leNat, Nat.mod_one]
  | succ n ih =>
    simp only [leBytes, leNat, ih, BitVec.toNat_ofNat]
    have h : (2 : Nat) ^ 8 = 256 := rfl
    rw [h, Nat.pow_succ, Nat.mul_comm (256 ^ n) 256, Nat.mod_mul]

theorem leNat_lt (bs : List Byte) : leNat bs < 256 ^ bs.length := by
  induction bs with
  | nil => simp [leNat]
  | cons b bs ih =>
    have hb : b.toNat < 256 := b.isLt
    simp only [leNat, List.length_cons, Nat.pow_succ]
    omega

theorem leBytes_leNat (bs : List Byte) : leBytes bs.length (leNat bs) = bs := by
  induction bs with
  | nil => rfl
  | cons b bs ih =>
    have hb : b.toNat < 256 := b.isLt
    have h1 : (b.toNat + 256 * leNat bs) / 256 = leNat bs := by omega
    have h2 : BitVec.ofNat 8 (b.toNat + 256 * leNat bs) = b := by
      apply BitVec.eq_of_toNat_eq
      simp only [BitVec.toNat_ofNat]
      have h : (2 : Nat) ^ 8 = 256 := rfl
      rw [h]; omega
    simp [leBytes, leNat, h1, h2, ih]

@[simp] theorem readWord_writeWord (m : Memory) (a : Nat) (v : Word) : readWord (writeWord m a v) a = v := by
  have h := readBytes_writeBytes m a (leBytes 4 v.toNat)
  rw [leBytes_length] at h
  simp only [readWord, writeWord, h, leNat_leBytes]
  apply BitVec.eq_of_toNat_eq
  have hv := v.isLt
  have h4 : (256 : Nat) ^ 4 = 2 ^ 32 := rfl
  rw [BitVec.toNat_ofNat, h4, Nat.mod_mod]
  omega

theorem readWord_writeWord_other (m : Memory) (a b : Nat) (v : Word) (h : b + 4 ≤ a ∨ a + 4 ≤ b) :
    readWord (writeWord m a v) b = readWord m b := by
  simp only [readWord, writeWord]
  rw [readBytes_writeBytes_outside _ _ _ _ _ (by simpa using h)]

/-! ### The canonical form -/

theorem Memory.wf_def (m : Memory) : Memory.wf m = true ↔ tabSorted m = true ∧ ∀ c ∈ m, c.2 ≠ blankByte := by
  simp [Memory.wf, List.all_eq_true]

@[simp] theorem Memory.wf_nil : Memory.wf ([] : Memory) = true := rfl

theorem Memory.wf_filter (m : Memory) (p : Host.Cell → Bool) (h : Memory.wf m = true) :
    Memory.wf (m.filter p) = true := by
  rw [Memory.wf_def] at h ⊢
  exact ⟨tabSorted_filter m p h.1, fun c hc => h.2 c (List.mem_filter.1 hc).1⟩

theorem wf_writeByte (m : Memory) (a : Nat) (b : Byte) (h : Memory.wf m = true) : Memory.wf (writeByte m a b) = true := by
  simp only [writeByte]
  split
  · exact Memory.wf_filter m _ h
  · rw [Memory.wf_def] at h ⊢
    refine ⟨tabSorted_tabSet m a b h.1, fun c hc => ?_⟩
    rcases mem_tabSet m a b c hc with rfl | hc
    · assumption
    · exact h.2 c hc

theorem wf_writeBytes (m : Memory) (a : Nat) (bs : List Byte) (h : Memory.wf m = true) :
    Memory.wf (writeBytes m a bs) = true := by
  induction bs generalizing m a with
  | nil => exact h
  | cons b bs ih => exact ih _ _ (wf_writeByte m a b h)

theorem wf_writeWord (m : Memory) (a : Nat) (v : Word) (h : Memory.wf m = true) : Memory.wf (writeWord m a v) = true :=
  wf_writeBytes m a _ h

theorem wf_writeDword (m : Memory) (a : Nat) (v : Time64) (h : Memory.wf m = true) : Memory.wf (writeDword m a v) = true :=
  wf_writeBytes m a _ h

theorem wf_eraseRange (m : Memory) (lo hi : Nat) (h : Memory.wf m = true) : Memory.wf (eraseRange m lo hi) = true :=
  Memory.wf_filter m _ h

theorem wf_putLanes (m : Memory) (key : Nat) (ls : Tab Byte) (h : Memory.wf m = true) : Memory.wf (putLanes m key ls) = true := by
  induction ls generalizing m with
  | nil => exact h
  | cons x ls ih => exact ih _ (wf_writeByte m _ _ h)

theorem readByte_eraseRange (m : Memory) (lo hi a : Nat) :
    readByte (eraseRange m lo hi) a = if lo ≤ a ∧ a < hi then blankByte else readByte m a := by
  have h := tabFind_filterKey m (fun k => !decide (lo ≤ k ∧ k < hi)) a
  simp only [readByte, eraseRange, tabDrop, tabGet]
  rw [h]
  by_cases hc : lo ≤ a ∧ a < hi <;> simp [hc]

theorem readByte_filter (m : Memory) (p : Nat → Bool) (a : Nat) :
    readByte (m.filter fun c => p c.1) a = if p a then readByte m a else blankByte := by
  simp only [readByte, tabGet, tabFind_filterKey]
  split <;> rfl

/-- In canonical form the memory is determined by what it reads: equal memories are equal data. -/
theorem Memory.ext (m m' : Memory) (h : Memory.wf m = true) (h' : Memory.wf m' = true)
    (e : ∀ a, readByte m a = readByte m' a) : m = m' := by
  induction m generalizing m' with
  | nil =>
    cases m' with
    | nil => rfl
    | cons c m' =>
      have hc := ((Memory.wf_def _).1 h').2 c (List.mem_cons_self ..)
      have := e c.1
      obtain ⟨k, v⟩ := c
      simp [readByte, tabGet, tabFind] at this
      exact absurd this.symm hc
  | cons c m ih =>
    obtain ⟨k, v⟩ := c
    obtain ⟨ht, hb⟩ := (Memory.wf_def _).1 h
    obtain ⟨hk, hs⟩ := (tabSorted_cons k v m).1 ht
    have blank : ∀ (l : Memory) (x : Nat), (∀ y ∈ l, x < y.1) → readByte l x = blankByte := by
      intro l x hl
      simp only [readByte, tabGet]
      cases hf : tabFind l x with
      | none => rfl
      | some w => exact absurd (hl _ (mem_of_tabFind l x w hf)) (Nat.lt_irrefl _)
    cases m' with
    | nil =>
      have := e k
      simp [readByte, tabGet, tabFind] at this
      exact absurd this (hb (k, v) (List.mem_cons_self ..))
    | cons c' m' =>
      obtain ⟨k', v'⟩ := c'
      obtain ⟨ht', hb'⟩ := (Memory.wf_def _).1 h'
      obtain ⟨hk', hs'⟩ := (tabSorted_cons k' v' m').1 ht'
      have hv := hb (k, v) (List.mem_cons_self ..)
      have hv' := hb' (k', v') (List.mem_cons_self ..)
      have hkk : k = k' := by
        rcases Nat.lt_trichotomy k k' with hlt | heq | hgt
        · have h1 := blank ((k', v') :: m') k (by
            intro y hy
            rcases List.mem_cons.1 hy with rfl | hy
            · exact hlt
            · exact Nat.lt_trans hlt (hk' y hy))
          have h2 := e k
          rw [h1] at h2
          simp [readByte, tabGet, tabFind] at h2
          exact absurd h2 hv
        · exact heq
        · have h1 := blank ((k, v) :: m) k' (by
            intro y hy
            rcases List.mem_cons.1 hy with rfl | hy
            · exact hgt
            · exact Nat.lt_trans hgt (hk y hy))
          have h2 := e k'
          rw [h1] at h2
          simp [readByte, tabGet, tabFind] at h2
          exact absurd h2.symm hv'
      subst hkk
      have hvv : v = v' := by
        have := e k
        simpa [readByte, tabGet, tabFind] using this
      subst hvv
      have hm : m = m' := by
        refine ih m' ?_ ?_ ?_
        · exact (Memory.wf_def _).2 ⟨hs, fun c hc => hb c (List.mem_cons_of_mem _ hc)⟩
        · exact (Memory.wf_def _).2 ⟨hs', fun c hc => hb' c (List.mem_cons_of_mem _ hc)⟩
        · intro a
          by_cases ha : a = k
          · subst ha; rw [blank m a hk, blank m' a hk']
          · have := e a
            simpa [readByte, tabGet, tabFind, Ne.symm ha] using this
      rw [hm]

end Sys2Proof.Machine
end

