-- ==== Sys2Proof/Laws/State.lean ====
section
/-! SUPPORT. The simp set of the state: for each update, what every field is after it, and what every accessor reads. -/

namespace Sys2Proof.Machine

variable (s : State)

/-! ### setThr -/

@[simp] theorem State.setThr_cycle (id : Nat) (t : Thread) : (s.setThr id t).cycle = s.cycle := rfl
@[simp] theorem State.setThr_tb (id : Nat) (t : Thread) : (s.setThr id t).tb = s.tb := rfl
@[simp] theorem State.setThr_corrections (id : Nat) (t : Thread) : (s.setThr id t).corrections = s.corrections := rfl
@[simp] theorem State.setThr_regs (id : Nat) (t : Thread) : (s.setThr id t).regs = s.regs := rfl
@[simp] theorem State.setThr_mem (id : Nat) (t : Thread) : (s.setThr id t).mem = s.mem := rfl
@[simp] theorem State.setThr_ecc (id : Nat) (t : Thread) : (s.setThr id t).ecc = s.ecc := rfl
@[simp] theorem State.setThr_threads (id : Nat) (t : Thread) : (s.setThr id t).threads = tabSet s.threads id t := rfl
@[simp] theorem State.setThr_engines (id : Nat) (t : Thread) : (s.setThr id t).engines = s.engines := rfl
@[simp] theorem State.setThr_hinge (id : Nat) (t : Thread) : (s.setThr id t).hinge = s.hinge := rfl
@[simp] theorem State.setThr_timers (id : Nat) (t : Thread) : (s.setThr id t).timers = s.timers := rfl
@[simp] theorem State.setThr_pads (id : Nat) (t : Thread) : (s.setThr id t).pads = s.pads := rfl
@[simp] theorem State.setThr_cvts (id : Nat) (t : Thread) : (s.setThr id t).cvts = s.cvts := rfl
@[simp] theorem State.setThr_tum (id : Nat) (t : Thread) : (s.setThr id t).tum = s.tum := rfl
@[simp] theorem State.setThr_sys (id : Nat) (t : Thread) : (s.setThr id t).sys = s.sys := rfl
@[simp] theorem State.setThr_nowh (id : Nat) (t : Thread) : (s.setThr id t).nowh = s.nowh := rfl
@[simp] theorem State.setThr_lasth (id : Nat) (t : Thread) : (s.setThr id t).lasth = s.lasth := rfl
@[simp] theorem State.setThr_chain (id : Nat) (t : Thread) : (s.setThr id t).chain = s.chain := rfl
@[simp] theorem State.setThr_chans (id : Nat) (t : Thread) : (s.setThr id t).chans = s.chans := rfl
@[simp] theorem State.setThr_scan (id : Nat) (t : Thread) : (s.setThr id t).scan = s.scan := rfl
@[simp] theorem State.setThr_shk (id : Nat) (t : Thread) : (s.setThr id t).shk = s.shk := rfl
@[simp] theorem State.setThr_nv (id : Nat) (t : Thread) : (s.setThr id t).nv = s.nv := rfl
@[simp] theorem State.setThr_kpr (id : Nat) (t : Thread) : (s.setThr id t).kpr = s.kpr := rfl
@[simp] theorem State.setThr_agent (id : Nat) (t : Thread) : (s.setThr id t).agent = s.agent := rfl
@[simp] theorem State.setThr_lrp (id : Nat) (t : Thread) : (s.setThr id t).lrp = s.lrp := rfl
@[simp] theorem State.setThr_upd (id : Nat) (t : Thread) : (s.setThr id t).upd = s.upd := rfl
@[simp] theorem State.setThr_tap (id : Nat) (t : Thread) : (s.setThr id t).tap = s.tap := rfl
@[simp] theorem State.setThr_reply (id : Nat) (t : Thread) : (s.setThr id t).reply = s.reply := rfl
@[simp] theorem State.setThr_free (id : Nat) (t : Thread) : (s.setThr id t).free = s.free := rfl
@[simp] theorem State.setThr_pending (id : Nat) (t : Thread) : (s.setThr id t).pending = s.pending := rfl
@[simp] theorem State.setThr_clamps (id : Nat) (t : Thread) : (s.setThr id t).clamps = s.clamps := rfl
@[simp] theorem State.setThr_shTurn (id : Nat) (t : Thread) : (s.setThr id t).shTurn = s.shTurn := rfl
@[simp] theorem State.setThr_pins (id : Nat) (t : Thread) : (s.setThr id t).pins = s.pins := rfl
@[simp] theorem State.setThr_same (id : Nat) (t : Thread) : (s.setThr id t).same = s.same := rfl

/-! ### updThr -/

@[simp] theorem State.updThr_cycle (id : Nat) (f : Thread → Thread) : (s.updThr id f).cycle = s.cycle := rfl
@[simp] theorem State.updThr_tb (id : Nat) (f : Thread → Thread) : (s.updThr id f).tb = s.tb := rfl
@[simp] theorem State.updThr_corrections (id : Nat) (f : Thread → Thread) : (s.updThr id f).corrections = s.corrections := rfl
@[simp] theorem State.updThr_regs (id : Nat) (f : Thread → Thread) : (s.updThr id f).regs = s.regs := rfl
@[simp] theorem State.updThr_mem (id : Nat) (f : Thread → Thread) : (s.updThr id f).mem = s.mem := rfl
@[simp] theorem State.updThr_ecc (id : Nat) (f : Thread → Thread) : (s.updThr id f).ecc = s.ecc := rfl
@[simp] theorem State.updThr_threads (id : Nat) (f : Thread → Thread) : (s.updThr id f).threads = tabSet s.threads id (f (s.thr id)) := rfl
@[simp] theorem State.updThr_engines (id : Nat) (f : Thread → Thread) : (s.updThr id f).engines = s.engines := rfl
@[simp] theorem State.updThr_hinge (id : Nat) (f : Thread → Thread) : (s.updThr id f).hinge = s.hinge := rfl
@[simp] theorem State.updThr_timers (id : Nat) (f : Thread → Thread) : (s.updThr id f).timers = s.timers := rfl
@[simp] theorem State.updThr_pads (id : Nat) (f : Thread → Thread) : (s.updThr id f).pads = s.pads := rfl
@[simp] theorem State.updThr_cvts (id : Nat) (f : Thread → Thread) : (s.updThr id f).cvts = s.cvts := rfl
@[simp] theorem State.updThr_tum (id : Nat) (f : Thread → Thread) : (s.updThr id f).tum = s.tum := rfl
@[simp] theorem State.updThr_sys (id : Nat) (f : Thread → Thread) : (s.updThr id f).sys = s.sys := rfl
@[simp] theorem State.updThr_nowh (id : Nat) (f : Thread → Thread) : (s.updThr id f).nowh = s.nowh := rfl
@[simp] theorem State.updThr_lasth (id : Nat) (f : Thread → Thread) : (s.updThr id f).lasth = s.lasth := rfl
@[simp] theorem State.updThr_chain (id : Nat) (f : Thread → Thread) : (s.updThr id f).chain = s.chain := rfl
@[simp] theorem State.updThr_chans (id : Nat) (f : Thread → Thread) : (s.updThr id f).chans = s.chans := rfl
@[simp] theorem State.updThr_scan (id : Nat) (f : Thread → Thread) : (s.updThr id f).scan = s.scan := rfl
@[simp] theorem State.updThr_shk (id : Nat) (f : Thread → Thread) : (s.updThr id f).shk = s.shk := rfl
@[simp] theorem State.updThr_nv (id : Nat) (f : Thread → Thread) : (s.updThr id f).nv = s.nv := rfl
@[simp] theorem State.updThr_kpr (id : Nat) (f : Thread → Thread) : (s.updThr id f).kpr = s.kpr := rfl
@[simp] theorem State.updThr_agent (id : Nat) (f : Thread → Thread) : (s.updThr id f).agent = s.agent := rfl
@[simp] theorem State.updThr_lrp (id : Nat) (f : Thread → Thread) : (s.updThr id f).lrp = s.lrp := rfl
@[simp] theorem State.updThr_upd (id : Nat) (f : Thread → Thread) : (s.updThr id f).upd = s.upd := rfl
@[simp] theorem State.updThr_tap (id : Nat) (f : Thread → Thread) : (s.updThr id f).tap = s.tap := rfl
@[simp] theorem State.updThr_reply (id : Nat) (f : Thread → Thread) : (s.updThr id f).reply = s.reply := rfl
@[simp] theorem State.updThr_free (id : Nat) (f : Thread → Thread) : (s.updThr id f).free = s.free := rfl
@[simp] theorem State.updThr_pending (id : Nat) (f : Thread → Thread) : (s.updThr id f).pending = s.pending := rfl
@[simp] theorem State.updThr_clamps (id : Nat) (f : Thread → Thread) : (s.updThr id f).clamps = s.clamps := rfl
@[simp] theorem State.updThr_shTurn (id : Nat) (f : Thread → Thread) : (s.updThr id f).shTurn = s.shTurn := rfl
@[simp] theorem State.updThr_pins (id : Nat) (f : Thread → Thread) : (s.updThr id f).pins = s.pins := rfl
@[simp] theorem State.updThr_same (id : Nat) (f : Thread → Thread) : (s.updThr id f).same = s.same := rfl

/-! ### setEng -/

@[simp] theorem State.setEng_cycle (k : Nat) (e : Engine) : (s.setEng k e).cycle = s.cycle := rfl
@[simp] theorem State.setEng_tb (k : Nat) (e : Engine) : (s.setEng k e).tb = s.tb := rfl
@[simp] theorem State.setEng_corrections (k : Nat) (e : Engine) : (s.setEng k e).corrections = s.corrections := rfl
@[simp] theorem State.setEng_regs (k : Nat) (e : Engine) : (s.setEng k e).regs = s.regs := rfl
@[simp] theorem State.setEng_mem (k : Nat) (e : Engine) : (s.setEng k e).mem = s.mem := rfl
@[simp] theorem State.setEng_ecc (k : Nat) (e : Engine) : (s.setEng k e).ecc = s.ecc := rfl
@[simp] theorem State.setEng_threads (k : Nat) (e : Engine) : (s.setEng k e).threads = s.threads := rfl
@[simp] theorem State.setEng_engines (k : Nat) (e : Engine) : (s.setEng k e).engines = tabSet s.engines k e := rfl
@[simp] theorem State.setEng_hinge (k : Nat) (e : Engine) : (s.setEng k e).hinge = s.hinge := rfl
@[simp] theorem State.setEng_timers (k : Nat) (e : Engine) : (s.setEng k e).timers = s.timers := rfl
@[simp] theorem State.setEng_pads (k : Nat) (e : Engine) : (s.setEng k e).pads = s.pads := rfl
@[simp] theorem State.setEng_cvts (k : Nat) (e : Engine) : (s.setEng k e).cvts = s.cvts := rfl
@[simp] theorem State.setEng_tum (k : Nat) (e : Engine) : (s.setEng k e).tum = s.tum := rfl
@[simp] theorem State.setEng_sys (k : Nat) (e : Engine) : (s.setEng k e).sys = s.sys := rfl
@[simp] theorem State.setEng_nowh (k : Nat) (e : Engine) : (s.setEng k e).nowh = s.nowh := rfl
@[simp] theorem State.setEng_lasth (k : Nat) (e : Engine) : (s.setEng k e).lasth = s.lasth := rfl
@[simp] theorem State.setEng_chain (k : Nat) (e : Engine) : (s.setEng k e).chain = s.chain := rfl
@[simp] theorem State.setEng_chans (k : Nat) (e : Engine) : (s.setEng k e).chans = s.chans := rfl
@[simp] theorem State.setEng_scan (k : Nat) (e : Engine) : (s.setEng k e).scan = s.scan := rfl
@[simp] theorem State.setEng_shk (k : Nat) (e : Engine) : (s.setEng k e).shk = s.shk := rfl
@[simp] theorem State.setEng_nv (k : Nat) (e : Engine) : (s.setEng k e).nv = s.nv := rfl
@[simp] theorem State.setEng_kpr (k : Nat) (e : Engine) : (s.setEng k e).kpr = s.kpr := rfl
@[simp] theorem State.setEng_agent (k : Nat) (e : Engine) : (s.setEng k e).agent = s.agent := rfl
@[simp] theorem State.setEng_lrp (k : Nat) (e : Engine) : (s.setEng k e).lrp = s.lrp := rfl
@[simp] theorem State.setEng_upd (k : Nat) (e : Engine) : (s.setEng k e).upd = s.upd := rfl
@[simp] theorem State.setEng_tap (k : Nat) (e : Engine) : (s.setEng k e).tap = s.tap := rfl
@[simp] theorem State.setEng_reply (k : Nat) (e : Engine) : (s.setEng k e).reply = s.reply := rfl
@[simp] theorem State.setEng_free (k : Nat) (e : Engine) : (s.setEng k e).free = s.free := rfl
@[simp] theorem State.setEng_pending (k : Nat) (e : Engine) : (s.setEng k e).pending = s.pending := rfl
@[simp] theorem State.setEng_clamps (k : Nat) (e : Engine) : (s.setEng k e).clamps = s.clamps := rfl
@[simp] theorem State.setEng_shTurn (k : Nat) (e : Engine) : (s.setEng k e).shTurn = s.shTurn := rfl
@[simp] theorem State.setEng_pins (k : Nat) (e : Engine) : (s.setEng k e).pins = s.pins := rfl
@[simp] theorem State.setEng_same (k : Nat) (e : Engine) : (s.setEng k e).same = s.same := rfl

/-! ### updEng -/

@[simp] theorem State.updEng_cycle (k : Nat) (f : Engine → Engine) : (s.updEng k f).cycle = s.cycle := rfl
@[simp] theorem State.updEng_tb (k : Nat) (f : Engine → Engine) : (s.updEng k f).tb = s.tb := rfl
@[simp] theorem State.updEng_corrections (k : Nat) (f : Engine → Engine) : (s.updEng k f).corrections = s.corrections := rfl
@[simp] theorem State.updEng_regs (k : Nat) (f : Engine → Engine) : (s.updEng k f).regs = s.regs := rfl
@[simp] theorem State.updEng_mem (k : Nat) (f : Engine → Engine) : (s.updEng k f).mem = s.mem := rfl
@[simp] theorem State.updEng_ecc (k : Nat) (f : Engine → Engine) : (s.updEng k f).ecc = s.ecc := rfl
@[simp] theorem State.updEng_threads (k : Nat) (f : Engine → Engine) : (s.updEng k f).threads = s.threads := rfl
@[simp] theorem State.updEng_engines (k : Nat) (f : Engine → Engine) : (s.updEng k f).engines = tabSet s.engines k (f (s.eng k)) := rfl
@[simp] theorem State.updEng_hinge (k : Nat) (f : Engine → Engine) : (s.updEng k f).hinge = s.hinge := rfl
@[simp] theorem State.updEng_timers (k : Nat) (f : Engine → Engine) : (s.updEng k f).timers = s.timers := rfl
@[simp] theorem State.updEng_pads (k : Nat) (f : Engine → Engine) : (s.updEng k f).pads = s.pads := rfl
@[simp] theorem State.updEng_cvts (k : Nat) (f : Engine → Engine) : (s.updEng k f).cvts = s.cvts := rfl
@[simp] theorem State.updEng_tum (k : Nat) (f : Engine → Engine) : (s.updEng k f).tum = s.tum := rfl
@[simp] theorem State.updEng_sys (k : Nat) (f : Engine → Engine) : (s.updEng k f).sys = s.sys := rfl
@[simp] theorem State.updEng_nowh (k : Nat) (f : Engine → Engine) : (s.updEng k f).nowh = s.nowh := rfl
@[simp] theorem State.updEng_lasth (k : Nat) (f : Engine → Engine) : (s.updEng k f).lasth = s.lasth := rfl
@[simp] theorem State.updEng_chain (k : Nat) (f : Engine → Engine) : (s.updEng k f).chain = s.chain := rfl
@[simp] theorem State.updEng_chans (k : Nat) (f : Engine → Engine) : (s.updEng k f).chans = s.chans := rfl
@[simp] theorem State.updEng_scan (k : Nat) (f : Engine → Engine) : (s.updEng k f).scan = s.scan := rfl
@[simp] theorem State.updEng_shk (k : Nat) (f : Engine → Engine) : (s.updEng k f).shk = s.shk := rfl
@[simp] theorem State.updEng_nv (k : Nat) (f : Engine → Engine) : (s.updEng k f).nv = s.nv := rfl
@[simp] theorem State.updEng_kpr (k : Nat) (f : Engine → Engine) : (s.updEng k f).kpr = s.kpr := rfl
@[simp] theorem State.updEng_agent (k : Nat) (f : Engine → Engine) : (s.updEng k f).agent = s.agent := rfl
@[simp] theorem State.updEng_lrp (k : Nat) (f : Engine → Engine) : (s.updEng k f).lrp = s.lrp := rfl
@[simp] theorem State.updEng_upd (k : Nat) (f : Engine → Engine) : (s.updEng k f).upd = s.upd := rfl
@[simp] theorem State.updEng_tap (k : Nat) (f : Engine → Engine) : (s.updEng k f).tap = s.tap := rfl
@[simp] theorem State.updEng_reply (k : Nat) (f : Engine → Engine) : (s.updEng k f).reply = s.reply := rfl
@[simp] theorem State.updEng_free (k : Nat) (f : Engine → Engine) : (s.updEng k f).free = s.free := rfl
@[simp] theorem State.updEng_pending (k : Nat) (f : Engine → Engine) : (s.updEng k f).pending = s.pending := rfl
@[simp] theorem State.updEng_clamps (k : Nat) (f : Engine → Engine) : (s.updEng k f).clamps = s.clamps := rfl
@[simp] theorem State.updEng_shTurn (k : Nat) (f : Engine → Engine) : (s.updEng k f).shTurn = s.shTurn := rfl
@[simp] theorem State.updEng_pins (k : Nat) (f : Engine → Engine) : (s.updEng k f).pins = s.pins := rfl
@[simp] theorem State.updEng_same (k : Nat) (f : Engine → Engine) : (s.updEng k f).same = s.same := rfl

/-! ### setTmr -/

@[simp] theorem State.setTmr_cycle (n : Nat) (x : Timer) : (s.setTmr n x).cycle = s.cycle := rfl
@[simp] theorem State.setTmr_tb (n : Nat) (x : Timer) : (s.setTmr n x).tb = s.tb := rfl
@[simp] theorem State.setTmr_corrections (n : Nat) (x : Timer) : (s.setTmr n x).corrections = s.corrections := rfl
@[simp] theorem State.setTmr_regs (n : Nat) (x : Timer) : (s.setTmr n x).regs = s.regs := rfl
@[simp] theorem State.setTmr_mem (n : Nat) (x : Timer) : (s.setTmr n x).mem = s.mem := rfl
@[simp] theorem State.setTmr_ecc (n : Nat) (x : Timer) : (s.setTmr n x).ecc = s.ecc := rfl
@[simp] theorem State.setTmr_threads (n : Nat) (x : Timer) : (s.setTmr n x).threads = s.threads := rfl
@[simp] theorem State.setTmr_engines (n : Nat) (x : Timer) : (s.setTmr n x).engines = s.engines := rfl
@[simp] theorem State.setTmr_hinge (n : Nat) (x : Timer) : (s.setTmr n x).hinge = s.hinge := rfl
@[simp] theorem State.setTmr_timers (n : Nat) (x : Timer) : (s.setTmr n x).timers = tabSet s.timers n x := rfl
@[simp] theorem State.setTmr_pads (n : Nat) (x : Timer) : (s.setTmr n x).pads = s.pads := rfl
@[simp] theorem State.setTmr_cvts (n : Nat) (x : Timer) : (s.setTmr n x).cvts = s.cvts := rfl
@[simp] theorem State.setTmr_tum (n : Nat) (x : Timer) : (s.setTmr n x).tum = s.tum := rfl
@[simp] theorem State.setTmr_sys (n : Nat) (x : Timer) : (s.setTmr n x).sys = s.sys := rfl
@[simp] theorem State.setTmr_nowh (n : Nat) (x : Timer) : (s.setTmr n x).nowh = s.nowh := rfl
@[simp] theorem State.setTmr_lasth (n : Nat) (x : Timer) : (s.setTmr n x).lasth = s.lasth := rfl
@[simp] theorem State.setTmr_chain (n : Nat) (x : Timer) : (s.setTmr n x).chain = s.chain := rfl
@[simp] theorem State.setTmr_chans (n : Nat) (x : Timer) : (s.setTmr n x).chans = s.chans := rfl
@[simp] theorem State.setTmr_scan (n : Nat) (x : Timer) : (s.setTmr n x).scan = s.scan := rfl
@[simp] theorem State.setTmr_shk (n : Nat) (x : Timer) : (s.setTmr n x).shk = s.shk := rfl
@[simp] theorem State.setTmr_nv (n : Nat) (x : Timer) : (s.setTmr n x).nv = s.nv := rfl
@[simp] theorem State.setTmr_kpr (n : Nat) (x : Timer) : (s.setTmr n x).kpr = s.kpr := rfl
@[simp] theorem State.setTmr_agent (n : Nat) (x : Timer) : (s.setTmr n x).agent = s.agent := rfl
@[simp] theorem State.setTmr_lrp (n : Nat) (x : Timer) : (s.setTmr n x).lrp = s.lrp := rfl
@[simp] theorem State.setTmr_upd (n : Nat) (x : Timer) : (s.setTmr n x).upd = s.upd := rfl
@[simp] theorem State.setTmr_tap (n : Nat) (x : Timer) : (s.setTmr n x).tap = s.tap := rfl
@[simp] theorem State.setTmr_reply (n : Nat) (x : Timer) : (s.setTmr n x).reply = s.reply := rfl
@[simp] theorem State.setTmr_free (n : Nat) (x : Timer) : (s.setTmr n x).free = s.free := rfl
@[simp] theorem State.setTmr_pending (n : Nat) (x : Timer) : (s.setTmr n x).pending = s.pending := rfl
@[simp] theorem State.setTmr_clamps (n : Nat) (x : Timer) : (s.setTmr n x).clamps = s.clamps := rfl
@[simp] theorem State.setTmr_shTurn (n : Nat) (x : Timer) : (s.setTmr n x).shTurn = s.shTurn := rfl
@[simp] theorem State.setTmr_pins (n : Nat) (x : Timer) : (s.setTmr n x).pins = s.pins := rfl
@[simp] theorem State.setTmr_same (n : Nat) (x : Timer) : (s.setTmr n x).same = s.same := rfl

/-! ### updTmr -/

@[simp] theorem State.updTmr_cycle (n : Nat) (f : Timer → Timer) : (s.updTmr n f).cycle = s.cycle := rfl
@[simp] theorem State.updTmr_tb (n : Nat) (f : Timer → Timer) : (s.updTmr n f).tb = s.tb := rfl
@[simp] theorem State.updTmr_corrections (n : Nat) (f : Timer → Timer) : (s.updTmr n f).corrections = s.corrections := rfl
@[simp] theorem State.updTmr_regs (n : Nat) (f : Timer → Timer) : (s.updTmr n f).regs = s.regs := rfl
@[simp] theorem State.updTmr_mem (n : Nat) (f : Timer → Timer) : (s.updTmr n f).mem = s.mem := rfl
@[simp] theorem State.updTmr_ecc (n : Nat) (f : Timer → Timer) : (s.updTmr n f).ecc = s.ecc := rfl
@[simp] theorem State.updTmr_threads (n : Nat) (f : Timer → Timer) : (s.updTmr n f).threads = s.threads := rfl
@[simp] theorem State.updTmr_engines (n : Nat) (f : Timer → Timer) : (s.updTmr n f).engines = s.engines := rfl
@[simp] theorem State.updTmr_hinge (n : Nat) (f : Timer → Timer) : (s.updTmr n f).hinge = s.hinge := rfl
@[simp] theorem State.updTmr_timers (n : Nat) (f : Timer → Timer) : (s.updTmr n f).timers = tabSet s.timers n (f (s.tmr n)) := rfl
@[simp] theorem State.updTmr_pads (n : Nat) (f : Timer → Timer) : (s.updTmr n f).pads = s.pads := rfl
@[simp] theorem State.updTmr_cvts (n : Nat) (f : Timer → Timer) : (s.updTmr n f).cvts = s.cvts := rfl
@[simp] theorem State.updTmr_tum (n : Nat) (f : Timer → Timer) : (s.updTmr n f).tum = s.tum := rfl
@[simp] theorem State.updTmr_sys (n : Nat) (f : Timer → Timer) : (s.updTmr n f).sys = s.sys := rfl
@[simp] theorem State.updTmr_nowh (n : Nat) (f : Timer → Timer) : (s.updTmr n f).nowh = s.nowh := rfl
@[simp] theorem State.updTmr_lasth (n : Nat) (f : Timer → Timer) : (s.updTmr n f).lasth = s.lasth := rfl
@[simp] theorem State.updTmr_chain (n : Nat) (f : Timer → Timer) : (s.updTmr n f).chain = s.chain := rfl
@[simp] theorem State.updTmr_chans (n : Nat) (f : Timer → Timer) : (s.updTmr n f).chans = s.chans := rfl
@[simp] theorem State.updTmr_scan (n : Nat) (f : Timer → Timer) : (s.updTmr n f).scan = s.scan := rfl
@[simp] theorem State.updTmr_shk (n : Nat) (f : Timer → Timer) : (s.updTmr n f).shk = s.shk := rfl
@[simp] theorem State.updTmr_nv (n : Nat) (f : Timer → Timer) : (s.updTmr n f).nv = s.nv := rfl
@[simp] theorem State.updTmr_kpr (n : Nat) (f : Timer → Timer) : (s.updTmr n f).kpr = s.kpr := rfl
@[simp] theorem State.updTmr_agent (n : Nat) (f : Timer → Timer) : (s.updTmr n f).agent = s.agent := rfl
@[simp] theorem State.updTmr_lrp (n : Nat) (f : Timer → Timer) : (s.updTmr n f).lrp = s.lrp := rfl
@[simp] theorem State.updTmr_upd (n : Nat) (f : Timer → Timer) : (s.updTmr n f).upd = s.upd := rfl
@[simp] theorem State.updTmr_tap (n : Nat) (f : Timer → Timer) : (s.updTmr n f).tap = s.tap := rfl
@[simp] theorem State.updTmr_reply (n : Nat) (f : Timer → Timer) : (s.updTmr n f).reply = s.reply := rfl
@[simp] theorem State.updTmr_free (n : Nat) (f : Timer → Timer) : (s.updTmr n f).free = s.free := rfl
@[simp] theorem State.updTmr_pending (n : Nat) (f : Timer → Timer) : (s.updTmr n f).pending = s.pending := rfl
@[simp] theorem State.updTmr_clamps (n : Nat) (f : Timer → Timer) : (s.updTmr n f).clamps = s.clamps := rfl
@[simp] theorem State.updTmr_shTurn (n : Nat) (f : Timer → Timer) : (s.updTmr n f).shTurn = s.shTurn := rfl
@[simp] theorem State.updTmr_pins (n : Nat) (f : Timer → Timer) : (s.updTmr n f).pins = s.pins := rfl
@[simp] theorem State.updTmr_same (n : Nat) (f : Timer → Timer) : (s.updTmr n f).same = s.same := rfl

/-! ### setPad -/

@[simp] theorem State.setPad_cycle (p : Nat) (x : Pad) : (s.setPad p x).cycle = s.cycle := rfl
@[simp] theorem State.setPad_tb (p : Nat) (x : Pad) : (s.setPad p x).tb = s.tb := rfl
@[simp] theorem State.setPad_corrections (p : Nat) (x : Pad) : (s.setPad p x).corrections = s.corrections := rfl
@[simp] theorem State.setPad_regs (p : Nat) (x : Pad) : (s.setPad p x).regs = s.regs := rfl
@[simp] theorem State.setPad_mem (p : Nat) (x : Pad) : (s.setPad p x).mem = s.mem := rfl
@[simp] theorem State.setPad_ecc (p : Nat) (x : Pad) : (s.setPad p x).ecc = s.ecc := rfl
@[simp] theorem State.setPad_threads (p : Nat) (x : Pad) : (s.setPad p x).threads = s.threads := rfl
@[simp] theorem State.setPad_engines (p : Nat) (x : Pad) : (s.setPad p x).engines = s.engines := rfl
@[simp] theorem State.setPad_hinge (p : Nat) (x : Pad) : (s.setPad p x).hinge = s.hinge := rfl
@[simp] theorem State.setPad_timers (p : Nat) (x : Pad) : (s.setPad p x).timers = s.timers := rfl
@[simp] theorem State.setPad_pads (p : Nat) (x : Pad) : (s.setPad p x).pads = tabSet s.pads p x := rfl
@[simp] theorem State.setPad_cvts (p : Nat) (x : Pad) : (s.setPad p x).cvts = s.cvts := rfl
@[simp] theorem State.setPad_tum (p : Nat) (x : Pad) : (s.setPad p x).tum = s.tum := rfl
@[simp] theorem State.setPad_sys (p : Nat) (x : Pad) : (s.setPad p x).sys = s.sys := rfl
@[simp] theorem State.setPad_nowh (p : Nat) (x : Pad) : (s.setPad p x).nowh = s.nowh := rfl
@[simp] theorem State.setPad_lasth (p : Nat) (x : Pad) : (s.setPad p x).lasth = s.lasth := rfl
@[simp] theorem State.setPad_chain (p : Nat) (x : Pad) : (s.setPad p x).chain = s.chain := rfl
@[simp] theorem State.setPad_chans (p : Nat) (x : Pad) : (s.setPad p x).chans = s.chans := rfl
@[simp] theorem State.setPad_scan (p : Nat) (x : Pad) : (s.setPad p x).scan = s.scan := rfl
@[simp] theorem State.setPad_shk (p : Nat) (x : Pad) : (s.setPad p x).shk = s.shk := rfl
@[simp] theorem State.setPad_nv (p : Nat) (x : Pad) : (s.setPad p x).nv = s.nv := rfl
@[simp] theorem State.setPad_kpr (p : Nat) (x : Pad) : (s.setPad p x).kpr = s.kpr := rfl
@[simp] theorem State.setPad_agent (p : Nat) (x : Pad) : (s.setPad p x).agent = s.agent := rfl
@[simp] theorem State.setPad_lrp (p : Nat) (x : Pad) : (s.setPad p x).lrp = s.lrp := rfl
@[simp] theorem State.setPad_upd (p : Nat) (x : Pad) : (s.setPad p x).upd = s.upd := rfl
@[simp] theorem State.setPad_tap (p : Nat) (x : Pad) : (s.setPad p x).tap = s.tap := rfl
@[simp] theorem State.setPad_reply (p : Nat) (x : Pad) : (s.setPad p x).reply = s.reply := rfl
@[simp] theorem State.setPad_free (p : Nat) (x : Pad) : (s.setPad p x).free = s.free := rfl
@[simp] theorem State.setPad_pending (p : Nat) (x : Pad) : (s.setPad p x).pending = s.pending := rfl
@[simp] theorem State.setPad_clamps (p : Nat) (x : Pad) : (s.setPad p x).clamps = s.clamps := rfl
@[simp] theorem State.setPad_shTurn (p : Nat) (x : Pad) : (s.setPad p x).shTurn = s.shTurn := rfl
@[simp] theorem State.setPad_pins (p : Nat) (x : Pad) : (s.setPad p x).pins = s.pins := rfl
@[simp] theorem State.setPad_same (p : Nat) (x : Pad) : (s.setPad p x).same = s.same := rfl

/-! ### updPad -/

@[simp] theorem State.updPad_cycle (p : Nat) (f : Pad → Pad) : (s.updPad p f).cycle = s.cycle := rfl
@[simp] theorem State.updPad_tb (p : Nat) (f : Pad → Pad) : (s.updPad p f).tb = s.tb := rfl
@[simp] theorem State.updPad_corrections (p : Nat) (f : Pad → Pad) : (s.updPad p f).corrections = s.corrections := rfl
@[simp] theorem State.updPad_regs (p : Nat) (f : Pad → Pad) : (s.updPad p f).regs = s.regs := rfl
@[simp] theorem State.updPad_mem (p : Nat) (f : Pad → Pad) : (s.updPad p f).mem = s.mem := rfl
@[simp] theorem State.updPad_ecc (p : Nat) (f : Pad → Pad) : (s.updPad p f).ecc = s.ecc := rfl
@[simp] theorem State.updPad_threads (p : Nat) (f : Pad → Pad) : (s.updPad p f).threads = s.threads := rfl
@[simp] theorem State.updPad_engines (p : Nat) (f : Pad → Pad) : (s.updPad p f).engines = s.engines := rfl
@[simp] theorem State.updPad_hinge (p : Nat) (f : Pad → Pad) : (s.updPad p f).hinge = s.hinge := rfl
@[simp] theorem State.updPad_timers (p : Nat) (f : Pad → Pad) : (s.updPad p f).timers = s.timers := rfl
@[simp] theorem State.updPad_pads (p : Nat) (f : Pad → Pad) : (s.updPad p f).pads = tabSet s.pads p (f (s.pad p)) := rfl
@[simp] theorem State.updPad_cvts (p : Nat) (f : Pad → Pad) : (s.updPad p f).cvts = s.cvts := rfl
@[simp] theorem State.updPad_tum (p : Nat) (f : Pad → Pad) : (s.updPad p f).tum = s.tum := rfl
@[simp] theorem State.updPad_sys (p : Nat) (f : Pad → Pad) : (s.updPad p f).sys = s.sys := rfl
@[simp] theorem State.updPad_nowh (p : Nat) (f : Pad → Pad) : (s.updPad p f).nowh = s.nowh := rfl
@[simp] theorem State.updPad_lasth (p : Nat) (f : Pad → Pad) : (s.updPad p f).lasth = s.lasth := rfl
@[simp] theorem State.updPad_chain (p : Nat) (f : Pad → Pad) : (s.updPad p f).chain = s.chain := rfl
@[simp] theorem State.updPad_chans (p : Nat) (f : Pad → Pad) : (s.updPad p f).chans = s.chans := rfl
@[simp] theorem State.updPad_scan (p : Nat) (f : Pad → Pad) : (s.updPad p f).scan = s.scan := rfl
@[simp] theorem State.updPad_shk (p : Nat) (f : Pad → Pad) : (s.updPad p f).shk = s.shk := rfl
@[simp] theorem State.updPad_nv (p : Nat) (f : Pad → Pad) : (s.updPad p f).nv = s.nv := rfl
@[simp] theorem State.updPad_kpr (p : Nat) (f : Pad → Pad) : (s.updPad p f).kpr = s.kpr := rfl
@[simp] theorem State.updPad_agent (p : Nat) (f : Pad → Pad) : (s.updPad p f).agent = s.agent := rfl
@[simp] theorem State.updPad_lrp (p : Nat) (f : Pad → Pad) : (s.updPad p f).lrp = s.lrp := rfl
@[simp] theorem State.updPad_upd (p : Nat) (f : Pad → Pad) : (s.updPad p f).upd = s.upd := rfl
@[simp] theorem State.updPad_tap (p : Nat) (f : Pad → Pad) : (s.updPad p f).tap = s.tap := rfl
@[simp] theorem State.updPad_reply (p : Nat) (f : Pad → Pad) : (s.updPad p f).reply = s.reply := rfl
@[simp] theorem State.updPad_free (p : Nat) (f : Pad → Pad) : (s.updPad p f).free = s.free := rfl
@[simp] theorem State.updPad_pending (p : Nat) (f : Pad → Pad) : (s.updPad p f).pending = s.pending := rfl
@[simp] theorem State.updPad_clamps (p : Nat) (f : Pad → Pad) : (s.updPad p f).clamps = s.clamps := rfl
@[simp] theorem State.updPad_shTurn (p : Nat) (f : Pad → Pad) : (s.updPad p f).shTurn = s.shTurn := rfl
@[simp] theorem State.updPad_pins (p : Nat) (f : Pad → Pad) : (s.updPad p f).pins = s.pins := rfl
@[simp] theorem State.updPad_same (p : Nat) (f : Pad → Pad) : (s.updPad p f).same = s.same := rfl

/-! ### setCvt -/

@[simp] theorem State.setCvt_cycle (p : Nat) (x : Cvt) : (s.setCvt p x).cycle = s.cycle := rfl
@[simp] theorem State.setCvt_tb (p : Nat) (x : Cvt) : (s.setCvt p x).tb = s.tb := rfl
@[simp] theorem State.setCvt_corrections (p : Nat) (x : Cvt) : (s.setCvt p x).corrections = s.corrections := rfl
@[simp] theorem State.setCvt_regs (p : Nat) (x : Cvt) : (s.setCvt p x).regs = s.regs := rfl
@[simp] theorem State.setCvt_mem (p : Nat) (x : Cvt) : (s.setCvt p x).mem = s.mem := rfl
@[simp] theorem State.setCvt_ecc (p : Nat) (x : Cvt) : (s.setCvt p x).ecc = s.ecc := rfl
@[simp] theorem State.setCvt_threads (p : Nat) (x : Cvt) : (s.setCvt p x).threads = s.threads := rfl
@[simp] theorem State.setCvt_engines (p : Nat) (x : Cvt) : (s.setCvt p x).engines = s.engines := rfl
@[simp] theorem State.setCvt_hinge (p : Nat) (x : Cvt) : (s.setCvt p x).hinge = s.hinge := rfl
@[simp] theorem State.setCvt_timers (p : Nat) (x : Cvt) : (s.setCvt p x).timers = s.timers := rfl
@[simp] theorem State.setCvt_pads (p : Nat) (x : Cvt) : (s.setCvt p x).pads = s.pads := rfl
@[simp] theorem State.setCvt_cvts (p : Nat) (x : Cvt) : (s.setCvt p x).cvts = tabSet s.cvts p x := rfl
@[simp] theorem State.setCvt_tum (p : Nat) (x : Cvt) : (s.setCvt p x).tum = s.tum := rfl
@[simp] theorem State.setCvt_sys (p : Nat) (x : Cvt) : (s.setCvt p x).sys = s.sys := rfl
@[simp] theorem State.setCvt_nowh (p : Nat) (x : Cvt) : (s.setCvt p x).nowh = s.nowh := rfl
@[simp] theorem State.setCvt_lasth (p : Nat) (x : Cvt) : (s.setCvt p x).lasth = s.lasth := rfl
@[simp] theorem State.setCvt_chain (p : Nat) (x : Cvt) : (s.setCvt p x).chain = s.chain := rfl
@[simp] theorem State.setCvt_chans (p : Nat) (x : Cvt) : (s.setCvt p x).chans = s.chans := rfl
@[simp] theorem State.setCvt_scan (p : Nat) (x : Cvt) : (s.setCvt p x).scan = s.scan := rfl
@[simp] theorem State.setCvt_shk (p : Nat) (x : Cvt) : (s.setCvt p x).shk = s.shk := rfl
@[simp] theorem State.setCvt_nv (p : Nat) (x : Cvt) : (s.setCvt p x).nv = s.nv := rfl
@[simp] theorem State.setCvt_kpr (p : Nat) (x : Cvt) : (s.setCvt p x).kpr = s.kpr := rfl
@[simp] theorem State.setCvt_agent (p : Nat) (x : Cvt) : (s.setCvt p x).agent = s.agent := rfl
@[simp] theorem State.setCvt_lrp (p : Nat) (x : Cvt) : (s.setCvt p x).lrp = s.lrp := rfl
@[simp] theorem State.setCvt_upd (p : Nat) (x : Cvt) : (s.setCvt p x).upd = s.upd := rfl
@[simp] theorem State.setCvt_tap (p : Nat) (x : Cvt) : (s.setCvt p x).tap = s.tap := rfl
@[simp] theorem State.setCvt_reply (p : Nat) (x : Cvt) : (s.setCvt p x).reply = s.reply := rfl
@[simp] theorem State.setCvt_free (p : Nat) (x : Cvt) : (s.setCvt p x).free = s.free := rfl
@[simp] theorem State.setCvt_pending (p : Nat) (x : Cvt) : (s.setCvt p x).pending = s.pending := rfl
@[simp] theorem State.setCvt_clamps (p : Nat) (x : Cvt) : (s.setCvt p x).clamps = s.clamps := rfl
@[simp] theorem State.setCvt_shTurn (p : Nat) (x : Cvt) : (s.setCvt p x).shTurn = s.shTurn := rfl
@[simp] theorem State.setCvt_pins (p : Nat) (x : Cvt) : (s.setCvt p x).pins = s.pins := rfl
@[simp] theorem State.setCvt_same (p : Nat) (x : Cvt) : (s.setCvt p x).same = s.same := rfl

/-! ### updCvt -/

@[simp] theorem State.updCvt_cycle (p : Nat) (f : Cvt → Cvt) : (s.updCvt p f).cycle = s.cycle := rfl
@[simp] theorem State.updCvt_tb (p : Nat) (f : Cvt → Cvt) : (s.updCvt p f).tb = s.tb := rfl
@[simp] theorem State.updCvt_corrections (p : Nat) (f : Cvt → Cvt) : (s.updCvt p f).corrections = s.corrections := rfl
@[simp] theorem State.updCvt_regs (p : Nat) (f : Cvt → Cvt) : (s.updCvt p f).regs = s.regs := rfl
@[simp] theorem State.updCvt_mem (p : Nat) (f : Cvt → Cvt) : (s.updCvt p f).mem = s.mem := rfl
@[simp] theorem State.updCvt_ecc (p : Nat) (f : Cvt → Cvt) : (s.updCvt p f).ecc = s.ecc := rfl
@[simp] theorem State.updCvt_threads (p : Nat) (f : Cvt → Cvt) : (s.updCvt p f).threads = s.threads := rfl
@[simp] theorem State.updCvt_engines (p : Nat) (f : Cvt → Cvt) : (s.updCvt p f).engines = s.engines := rfl
@[simp] theorem State.updCvt_hinge (p : Nat) (f : Cvt → Cvt) : (s.updCvt p f).hinge = s.hinge := rfl
@[simp] theorem State.updCvt_timers (p : Nat) (f : Cvt → Cvt) : (s.updCvt p f).timers = s.timers := rfl
@[simp] theorem State.updCvt_pads (p : Nat) (f : Cvt → Cvt) : (s.updCvt p f).pads = s.pads := rfl
@[simp] theorem State.updCvt_cvts (p : Nat) (f : Cvt → Cvt) : (s.updCvt p f).cvts = tabSet s.cvts p (f (s.cvt p)) := rfl
@[simp] theorem State.updCvt_tum (p : Nat) (f : Cvt → Cvt) : (s.updCvt p f).tum = s.tum := rfl
@[simp] theorem State.updCvt_sys (p : Nat) (f : Cvt → Cvt) : (s.updCvt p f).sys = s.sys := rfl
@[simp] theorem State.updCvt_nowh (p : Nat) (f : Cvt → Cvt) : (s.updCvt p f).nowh = s.nowh := rfl
@[simp] theorem State.updCvt_lasth (p : Nat) (f : Cvt → Cvt) : (s.updCvt p f).lasth = s.lasth := rfl
@[simp] theorem State.updCvt_chain (p : Nat) (f : Cvt → Cvt) : (s.updCvt p f).chain = s.chain := rfl
@[simp] theorem State.updCvt_chans (p : Nat) (f : Cvt → Cvt) : (s.updCvt p f).chans = s.chans := rfl
@[simp] theorem State.updCvt_scan (p : Nat) (f : Cvt → Cvt) : (s.updCvt p f).scan = s.scan := rfl
@[simp] theorem State.updCvt_shk (p : Nat) (f : Cvt → Cvt) : (s.updCvt p f).shk = s.shk := rfl
@[simp] theorem State.updCvt_nv (p : Nat) (f : Cvt → Cvt) : (s.updCvt p f).nv = s.nv := rfl
@[simp] theorem State.updCvt_kpr (p : Nat) (f : Cvt → Cvt) : (s.updCvt p f).kpr = s.kpr := rfl
@[simp] theorem State.updCvt_agent (p : Nat) (f : Cvt → Cvt) : (s.updCvt p f).agent = s.agent := rfl
@[simp] theorem State.updCvt_lrp (p : Nat) (f : Cvt → Cvt) : (s.updCvt p f).lrp = s.lrp := rfl
@[simp] theorem State.updCvt_upd (p : Nat) (f : Cvt → Cvt) : (s.updCvt p f).upd = s.upd := rfl
@[simp] theorem State.updCvt_tap (p : Nat) (f : Cvt → Cvt) : (s.updCvt p f).tap = s.tap := rfl
@[simp] theorem State.updCvt_reply (p : Nat) (f : Cvt → Cvt) : (s.updCvt p f).reply = s.reply := rfl
@[simp] theorem State.updCvt_free (p : Nat) (f : Cvt → Cvt) : (s.updCvt p f).free = s.free := rfl
@[simp] theorem State.updCvt_pending (p : Nat) (f : Cvt → Cvt) : (s.updCvt p f).pending = s.pending := rfl
@[simp] theorem State.updCvt_clamps (p : Nat) (f : Cvt → Cvt) : (s.updCvt p f).clamps = s.clamps := rfl
@[simp] theorem State.updCvt_shTurn (p : Nat) (f : Cvt → Cvt) : (s.updCvt p f).shTurn = s.shTurn := rfl
@[simp] theorem State.updCvt_pins (p : Nat) (f : Cvt → Cvt) : (s.updCvt p f).pins = s.pins := rfl
@[simp] theorem State.updCvt_same (p : Nat) (f : Cvt → Cvt) : (s.updCvt p f).same = s.same := rfl

/-! ### setReg -/

@[simp] theorem State.setReg_cycle (a : Nat) (v : Word) : (s.setReg a v).cycle = s.cycle := rfl
@[simp] theorem State.setReg_tb (a : Nat) (v : Word) : (s.setReg a v).tb = s.tb := rfl
@[simp] theorem State.setReg_corrections (a : Nat) (v : Word) : (s.setReg a v).corrections = s.corrections := rfl
@[simp] theorem State.setReg_regs (a : Nat) (v : Word) : (s.setReg a v).regs = tabSet s.regs a v := rfl
@[simp] theorem State.setReg_mem (a : Nat) (v : Word) : (s.setReg a v).mem = s.mem := rfl
@[simp] theorem State.setReg_ecc (a : Nat) (v : Word) : (s.setReg a v).ecc = s.ecc := rfl
@[simp] theorem State.setReg_threads (a : Nat) (v : Word) : (s.setReg a v).threads = s.threads := rfl
@[simp] theorem State.setReg_engines (a : Nat) (v : Word) : (s.setReg a v).engines = s.engines := rfl
@[simp] theorem State.setReg_hinge (a : Nat) (v : Word) : (s.setReg a v).hinge = s.hinge := rfl
@[simp] theorem State.setReg_timers (a : Nat) (v : Word) : (s.setReg a v).timers = s.timers := rfl
@[simp] theorem State.setReg_pads (a : Nat) (v : Word) : (s.setReg a v).pads = s.pads := rfl
@[simp] theorem State.setReg_cvts (a : Nat) (v : Word) : (s.setReg a v).cvts = s.cvts := rfl
@[simp] theorem State.setReg_tum (a : Nat) (v : Word) : (s.setReg a v).tum = s.tum := rfl
@[simp] theorem State.setReg_sys (a : Nat) (v : Word) : (s.setReg a v).sys = s.sys := rfl
@[simp] theorem State.setReg_nowh (a : Nat) (v : Word) : (s.setReg a v).nowh = s.nowh := rfl
@[simp] theorem State.setReg_lasth (a : Nat) (v : Word) : (s.setReg a v).lasth = s.lasth := rfl
@[simp] theorem State.setReg_chain (a : Nat) (v : Word) : (s.setReg a v).chain = s.chain := rfl
@[simp] theorem State.setReg_chans (a : Nat) (v : Word) : (s.setReg a v).chans = s.chans := rfl
@[simp] theorem State.setReg_scan (a : Nat) (v : Word) : (s.setReg a v).scan = s.scan := rfl
@[simp] theorem State.setReg_shk (a : Nat) (v : Word) : (s.setReg a v).shk = s.shk := rfl
@[simp] theorem State.setReg_nv (a : Nat) (v : Word) : (s.setReg a v).nv = s.nv := rfl
@[simp] theorem State.setReg_kpr (a : Nat) (v : Word) : (s.setReg a v).kpr = s.kpr := rfl
@[simp] theorem State.setReg_agent (a : Nat) (v : Word) : (s.setReg a v).agent = s.agent := rfl
@[simp] theorem State.setReg_lrp (a : Nat) (v : Word) : (s.setReg a v).lrp = s.lrp := rfl
@[simp] theorem State.setReg_upd (a : Nat) (v : Word) : (s.setReg a v).upd = s.upd := rfl
@[simp] theorem State.setReg_tap (a : Nat) (v : Word) : (s.setReg a v).tap = s.tap := rfl
@[simp] theorem State.setReg_reply (a : Nat) (v : Word) : (s.setReg a v).reply = s.reply := rfl
@[simp] theorem State.setReg_free (a : Nat) (v : Word) : (s.setReg a v).free = s.free := rfl
@[simp] theorem State.setReg_pending (a : Nat) (v : Word) : (s.setReg a v).pending = s.pending := rfl
@[simp] theorem State.setReg_clamps (a : Nat) (v : Word) : (s.setReg a v).clamps = s.clamps := rfl
@[simp] theorem State.setReg_shTurn (a : Nat) (v : Word) : (s.setReg a v).shTurn = s.shTurn := rfl
@[simp] theorem State.setReg_pins (a : Nat) (v : Word) : (s.setReg a v).pins = s.pins := rfl
@[simp] theorem State.setReg_same (a : Nat) (v : Word) : (s.setReg a v).same = s.same := rfl

/-! ### setFlag -/

@[simp] theorem State.setFlag_cycle (a i : Nat) : (s.setFlag a i).cycle = s.cycle := rfl
@[simp] theorem State.setFlag_tb (a i : Nat) : (s.setFlag a i).tb = s.tb := rfl
@[simp] theorem State.setFlag_corrections (a i : Nat) : (s.setFlag a i).corrections = s.corrections := rfl
@[simp] theorem State.setFlag_regs (a i : Nat) : (s.setFlag a i).regs = tabSet s.regs a (setBit (s.reg a) i true) := rfl
@[simp] theorem State.setFlag_mem (a i : Nat) : (s.setFlag a i).mem = s.mem := rfl
@[simp] theorem State.setFlag_ecc (a i : Nat) : (s.setFlag a i).ecc = s.ecc := rfl
@[simp] theorem State.setFlag_threads (a i : Nat) : (s.setFlag a i).threads = s.threads := rfl
@[simp] theorem State.setFlag_engines (a i : Nat) : (s.setFlag a i).engines = s.engines := rfl
@[simp] theorem State.setFlag_hinge (a i : Nat) : (s.setFlag a i).hinge = s.hinge := rfl
@[simp] theorem State.setFlag_timers (a i : Nat) : (s.setFlag a i).timers = s.timers := rfl
@[simp] theorem State.setFlag_pads (a i : Nat) : (s.setFlag a i).pads = s.pads := rfl
@[simp] theorem State.setFlag_cvts (a i : Nat) : (s.setFlag a i).cvts = s.cvts := rfl
@[simp] theorem State.setFlag_tum (a i : Nat) : (s.setFlag a i).tum = s.tum := rfl
@[simp] theorem State.setFlag_sys (a i : Nat) : (s.setFlag a i).sys = s.sys := rfl
@[simp] theorem State.setFlag_nowh (a i : Nat) : (s.setFlag a i).nowh = s.nowh := rfl
@[simp] theorem State.setFlag_lasth (a i : Nat) : (s.setFlag a i).lasth = s.lasth := rfl
@[simp] theorem State.setFlag_chain (a i : Nat) : (s.setFlag a i).chain = s.chain := rfl
@[simp] theorem State.setFlag_chans (a i : Nat) : (s.setFlag a i).chans = s.chans := rfl
@[simp] theorem State.setFlag_scan (a i : Nat) : (s.setFlag a i).scan = s.scan := rfl
@[simp] theorem State.setFlag_shk (a i : Nat) : (s.setFlag a i).shk = s.shk := rfl
@[simp] theorem State.setFlag_nv (a i : Nat) : (s.setFlag a i).nv = s.nv := rfl
@[simp] theorem State.setFlag_kpr (a i : Nat) : (s.setFlag a i).kpr = s.kpr := rfl
@[simp] theorem State.setFlag_agent (a i : Nat) : (s.setFlag a i).agent = s.agent := rfl
@[simp] theorem State.setFlag_lrp (a i : Nat) : (s.setFlag a i).lrp = s.lrp := rfl
@[simp] theorem State.setFlag_upd (a i : Nat) : (s.setFlag a i).upd = s.upd := rfl
@[simp] theorem State.setFlag_tap (a i : Nat) : (s.setFlag a i).tap = s.tap := rfl
@[simp] theorem State.setFlag_reply (a i : Nat) : (s.setFlag a i).reply = s.reply := rfl
@[simp] theorem State.setFlag_free (a i : Nat) : (s.setFlag a i).free = s.free := rfl
@[simp] theorem State.setFlag_pending (a i : Nat) : (s.setFlag a i).pending = s.pending := rfl
@[simp] theorem State.setFlag_clamps (a i : Nat) : (s.setFlag a i).clamps = s.clamps := rfl
@[simp] theorem State.setFlag_shTurn (a i : Nat) : (s.setFlag a i).shTurn = s.shTurn := rfl
@[simp] theorem State.setFlag_pins (a i : Nat) : (s.setFlag a i).pins = s.pins := rfl
@[simp] theorem State.setFlag_same (a i : Nat) : (s.setFlag a i).same = (s.noteSet a i).same := rfl

/-! ### setRegFld -/

@[simp] theorem State.setRegFld_cycle (a lo n v : Nat) : (s.setRegFld a lo n v).cycle = s.cycle := rfl
@[simp] theorem State.setRegFld_tb (a lo n v : Nat) : (s.setRegFld a lo n v).tb = s.tb := rfl
@[simp] theorem State.setRegFld_corrections (a lo n v : Nat) : (s.setRegFld a lo n v).corrections = s.corrections := rfl
@[simp] theorem State.setRegFld_regs (a lo n v : Nat) : (s.setRegFld a lo n v).regs = tabSet s.regs a (setFld (s.reg a) lo n v) := rfl
@[simp] theorem State.setRegFld_mem (a lo n v : Nat) : (s.setRegFld a lo n v).mem = s.mem := rfl
@[simp] theorem State.setRegFld_ecc (a lo n v : Nat) : (s.setRegFld a lo n v).ecc = s.ecc := rfl
@[simp] theorem State.setRegFld_threads (a lo n v : Nat) : (s.setRegFld a lo n v).threads = s.threads := rfl
@[simp] theorem State.setRegFld_engines (a lo n v : Nat) : (s.setRegFld a lo n v).engines = s.engines := rfl
@[simp] theorem State.setRegFld_hinge (a lo n v : Nat) : (s.setRegFld a lo n v).hinge = s.hinge := rfl
@[simp] theorem State.setRegFld_timers (a lo n v : Nat) : (s.setRegFld a lo n v).timers = s.timers := rfl
@[simp] theorem State.setRegFld_pads (a lo n v : Nat) : (s.setRegFld a lo n v).pads = s.pads := rfl
@[simp] theorem State.setRegFld_cvts (a lo n v : Nat) : (s.setRegFld a lo n v).cvts = s.cvts := rfl
@[simp] theorem State.setRegFld_tum (a lo n v : Nat) : (s.setRegFld a lo n v).tum = s.tum := rfl
@[simp] theorem State.setRegFld_sys (a lo n v : Nat) : (s.setRegFld a lo n v).sys = s.sys := rfl
@[simp] theorem State.setRegFld_nowh (a lo n v : Nat) : (s.setRegFld a lo n v).nowh = s.nowh := rfl
@[simp] theorem State.setRegFld_lasth (a lo n v : Nat) : (s.setRegFld a lo n v).lasth = s.lasth := rfl
@[simp] theorem State.setRegFld_chain (a lo n v : Nat) : (s.setRegFld a lo n v).chain = s.chain := rfl
@[simp] theorem State.setRegFld_chans (a lo n v : Nat) : (s.setRegFld a lo n v).chans = s.chans := rfl
@[simp] theorem State.setRegFld_scan (a lo n v : Nat) : (s.setRegFld a lo n v).scan = s.scan := rfl
@[simp] theorem State.setRegFld_shk (a lo n v : Nat) : (s.setRegFld a lo n v).shk = s.shk := rfl
@[simp] theorem State.setRegFld_nv (a lo n v : Nat) : (s.setRegFld a lo n v).nv = s.nv := rfl
@[simp] theorem State.setRegFld_kpr (a lo n v : Nat) : (s.setRegFld a lo n v).kpr = s.kpr := rfl
@[simp] theorem State.setRegFld_agent (a lo n v : Nat) : (s.setRegFld a lo n v).agent = s.agent := rfl
@[simp] theorem State.setRegFld_lrp (a lo n v : Nat) : (s.setRegFld a lo n v).lrp = s.lrp := rfl
@[simp] theorem State.setRegFld_upd (a lo n v : Nat) : (s.setRegFld a lo n v).upd = s.upd := rfl
@[simp] theorem State.setRegFld_tap (a lo n v : Nat) : (s.setRegFld a lo n v).tap = s.tap := rfl
@[simp] theorem State.setRegFld_reply (a lo n v : Nat) : (s.setRegFld a lo n v).reply = s.reply := rfl
@[simp] theorem State.setRegFld_free (a lo n v : Nat) : (s.setRegFld a lo n v).free = s.free := rfl
@[simp] theorem State.setRegFld_pending (a lo n v : Nat) : (s.setRegFld a lo n v).pending = s.pending := rfl
@[simp] theorem State.setRegFld_clamps (a lo n v : Nat) : (s.setRegFld a lo n v).clamps = s.clamps := rfl
@[simp] theorem State.setRegFld_shTurn (a lo n v : Nat) : (s.setRegFld a lo n v).shTurn = s.shTurn := rfl
@[simp] theorem State.setRegFld_pins (a lo n v : Nat) : (s.setRegFld a lo n v).pins = s.pins := rfl
@[simp] theorem State.setRegFld_same (a lo n v : Nat) : (s.setRegFld a lo n v).same = s.same := rfl

/-! ### count -/

@[simp] theorem State.count_cycle (a lo n k : Nat) : (s.count a lo n k).cycle = s.cycle := rfl
@[simp] theorem State.count_tb (a lo n k : Nat) : (s.count a lo n k).tb = s.tb := rfl
@[simp] theorem State.count_corrections (a lo n k : Nat) : (s.count a lo n k).corrections = s.corrections := rfl
@[simp] theorem State.count_regs (a lo n k : Nat) : (s.count a lo n k).regs = tabSet s.regs a (setFld (s.reg a) lo n (min (2 ^ n - 1) (fld (s.reg a) lo n + k))) := rfl
@[simp] theorem State.count_mem (a lo n k : Nat) : (s.count a lo n k).mem = s.mem := rfl
@[simp] theorem State.count_ecc (a lo n k : Nat) : (s.count a lo n k).ecc = s.ecc := rfl
@[simp] theorem State.count_threads (a lo n k : Nat) : (s.count a lo n k).threads = s.threads := rfl
@[simp] theorem State.count_engines (a lo n k : Nat) : (s.count a lo n k).engines = s.engines := rfl
@[simp] theorem State.count_hinge (a lo n k : Nat) : (s.count a lo n k).hinge = s.hinge := rfl
@[simp] theorem State.count_timers (a lo n k : Nat) : (s.count a lo n k).timers = s.timers := rfl
@[simp] theorem State.count_pads (a lo n k : Nat) : (s.count a lo n k).pads = s.pads := rfl
@[simp] theorem State.count_cvts (a lo n k : Nat) : (s.count a lo n k).cvts = s.cvts := rfl
@[simp] theorem State.count_tum (a lo n k : Nat) : (s.count a lo n k).tum = s.tum := rfl
@[simp] theorem State.count_sys (a lo n k : Nat) : (s.count a lo n k).sys = s.sys := rfl
@[simp] theorem State.count_nowh (a lo n k : Nat) : (s.count a lo n k).nowh = s.nowh := rfl
@[simp] theorem State.count_lasth (a lo n k : Nat) : (s.count a lo n k).lasth = s.lasth := rfl
@[simp] theorem State.count_chain (a lo n k : Nat) : (s.count a lo n k).chain = s.chain := rfl
@[simp] theorem State.count_chans (a lo n k : Nat) : (s.count a lo n k).chans = s.chans := rfl
@[simp] theorem State.count_scan (a lo n k : Nat) : (s.count a lo n k).scan = s.scan := rfl
@[simp] theorem State.count_shk (a lo n k : Nat) : (s.count a lo n k).shk = s.shk := rfl
@[simp] theorem State.count_nv (a lo n k : Nat) : (s.count a lo n k).nv = s.nv := rfl
@[simp] theorem State.count_kpr (a lo n k : Nat) : (s.count a lo n k).kpr = s.kpr := rfl
@[simp] theorem State.count_agent (a lo n k : Nat) : (s.count a lo n k).agent = s.agent := rfl
@[simp] theorem State.count_lrp (a lo n k : Nat) : (s.count a lo n k).lrp = s.lrp := rfl
@[simp] theorem State.count_upd (a lo n k : Nat) : (s.count a lo n k).upd = s.upd := rfl
@[simp] theorem State.count_tap (a lo n k : Nat) : (s.count a lo n k).tap = s.tap := rfl
@[simp] theorem State.count_reply (a lo n k : Nat) : (s.count a lo n k).reply = s.reply := rfl
@[simp] theorem State.count_free (a lo n k : Nat) : (s.count a lo n k).free = s.free := rfl
@[simp] theorem State.count_pending (a lo n k : Nat) : (s.count a lo n k).pending = s.pending := rfl
@[simp] theorem State.count_clamps (a lo n k : Nat) : (s.count a lo n k).clamps = s.clamps := rfl
@[simp] theorem State.count_shTurn (a lo n k : Nat) : (s.count a lo n k).shTurn = s.shTurn := rfl
@[simp] theorem State.count_pins (a lo n k : Nat) : (s.count a lo n k).pins = s.pins := rfl
@[simp] theorem State.count_same (a lo n k : Nat) : (s.count a lo n k).same = (s.noteCount a lo k).same := rfl

/-! ### note -/

@[simp] theorem State.note_cycle (f : Same → Same) : (s.note f).cycle = s.cycle := rfl
@[simp] theorem State.note_tb (f : Same → Same) : (s.note f).tb = s.tb := rfl
@[simp] theorem State.note_corrections (f : Same → Same) : (s.note f).corrections = s.corrections := rfl
@[simp] theorem State.note_regs (f : Same → Same) : (s.note f).regs = s.regs := rfl
@[simp] theorem State.note_mem (f : Same → Same) : (s.note f).mem = s.mem := rfl
@[simp] theorem State.note_ecc (f : Same → Same) : (s.note f).ecc = s.ecc := rfl
@[simp] theorem State.note_threads (f : Same → Same) : (s.note f).threads = s.threads := rfl
@[simp] theorem State.note_engines (f : Same → Same) : (s.note f).engines = s.engines := rfl
@[simp] theorem State.note_hinge (f : Same → Same) : (s.note f).hinge = s.hinge := rfl
@[simp] theorem State.note_timers (f : Same → Same) : (s.note f).timers = s.timers := rfl
@[simp] theorem State.note_pads (f : Same → Same) : (s.note f).pads = s.pads := rfl
@[simp] theorem State.note_cvts (f : Same → Same) : (s.note f).cvts = s.cvts := rfl
@[simp] theorem State.note_tum (f : Same → Same) : (s.note f).tum = s.tum := rfl
@[simp] theorem State.note_sys (f : Same → Same) : (s.note f).sys = s.sys := rfl
@[simp] theorem State.note_nowh (f : Same → Same) : (s.note f).nowh = s.nowh := rfl
@[simp] theorem State.note_lasth (f : Same → Same) : (s.note f).lasth = s.lasth := rfl
@[simp] theorem State.note_chain (f : Same → Same) : (s.note f).chain = s.chain := rfl
@[simp] theorem State.note_chans (f : Same → Same) : (s.note f).chans = s.chans := rfl
@[simp] theorem State.note_scan (f : Same → Same) : (s.note f).scan = s.scan := rfl
@[simp] theorem State.note_shk (f : Same → Same) : (s.note f).shk = s.shk := rfl
@[simp] theorem State.note_nv (f : Same → Same) : (s.note f).nv = s.nv := rfl
@[simp] theorem State.note_kpr (f : Same → Same) : (s.note f).kpr = s.kpr := rfl
@[simp] theorem State.note_agent (f : Same → Same) : (s.note f).agent = s.agent := rfl
@[simp] theorem State.note_lrp (f : Same → Same) : (s.note f).lrp = s.lrp := rfl
@[simp] theorem State.note_upd (f : Same → Same) : (s.note f).upd = s.upd := rfl
@[simp] theorem State.note_tap (f : Same → Same) : (s.note f).tap = s.tap := rfl
@[simp] theorem State.note_shTurn (f : Same → Same) : (s.note f).shTurn = s.shTurn := rfl
@[simp] theorem State.note_reply (f : Same → Same) : (s.note f).reply = s.reply := rfl
@[simp] theorem State.note_free (f : Same → Same) : (s.note f).free = s.free := rfl
@[simp] theorem State.note_pins (f : Same → Same) : (s.note f).pins = s.pins := rfl
@[simp] theorem State.note_same (f : Same → Same) : (s.note f).same = f s.sameNow := rfl
@[simp] theorem State.note_pending (f : Same → Same) : (s.note f).pending = s.pending := rfl
@[simp] theorem State.note_clamps (f : Same → Same) : (s.note f).clamps = s.clamps := rfl
@[simp] theorem State.note_reg (f : Same → Same) (c : Nat) : (s.note f).reg c = s.reg c := rfl
@[simp] theorem State.note_thr (f : Same → Same) (c : Nat) : (s.note f).thr c = s.thr c := rfl
@[simp] theorem State.note_eng (f : Same → Same) (c : Nat) : (s.note f).eng c = s.eng c := rfl
@[simp] theorem State.note_tmr (f : Same → Same) (c : Nat) : (s.note f).tmr c = s.tmr c := rfl
@[simp] theorem State.note_pad (f : Same → Same) (c : Nat) : (s.note f).pad c = s.pad c := rfl
@[simp] theorem State.note_cvt (f : Same → Same) (c : Nat) : (s.note f).cvt c = s.cvt c := rfl

/-! ### noteSet -/

@[simp] theorem State.noteSet_cycle (a i : Nat) : (s.noteSet a i).cycle = s.cycle := rfl
@[simp] theorem State.noteSet_tb (a i : Nat) : (s.noteSet a i).tb = s.tb := rfl
@[simp] theorem State.noteSet_corrections (a i : Nat) : (s.noteSet a i).corrections = s.corrections := rfl
@[simp] theorem State.noteSet_regs (a i : Nat) : (s.noteSet a i).regs = s.regs := rfl
@[simp] theorem State.noteSet_mem (a i : Nat) : (s.noteSet a i).mem = s.mem := rfl
@[simp] theorem State.noteSet_ecc (a i : Nat) : (s.noteSet a i).ecc = s.ecc := rfl
@[simp] theorem State.noteSet_threads (a i : Nat) : (s.noteSet a i).threads = s.threads := rfl
@[simp] theorem State.noteSet_engines (a i : Nat) : (s.noteSet a i).engines = s.engines := rfl
@[simp] theorem State.noteSet_hinge (a i : Nat) : (s.noteSet a i).hinge = s.hinge := rfl
@[simp] theorem State.noteSet_timers (a i : Nat) : (s.noteSet a i).timers = s.timers := rfl
@[simp] theorem State.noteSet_pads (a i : Nat) : (s.noteSet a i).pads = s.pads := rfl
@[simp] theorem State.noteSet_cvts (a i : Nat) : (s.noteSet a i).cvts = s.cvts := rfl
@[simp] theorem State.noteSet_tum (a i : Nat) : (s.noteSet a i).tum = s.tum := rfl
@[simp] theorem State.noteSet_sys (a i : Nat) : (s.noteSet a i).sys = s.sys := rfl
@[simp] theorem State.noteSet_nowh (a i : Nat) : (s.noteSet a i).nowh = s.nowh := rfl
@[simp] theorem State.noteSet_lasth (a i : Nat) : (s.noteSet a i).lasth = s.lasth := rfl
@[simp] theorem State.noteSet_chain (a i : Nat) : (s.noteSet a i).chain = s.chain := rfl
@[simp] theorem State.noteSet_chans (a i : Nat) : (s.noteSet a i).chans = s.chans := rfl
@[simp] theorem State.noteSet_scan (a i : Nat) : (s.noteSet a i).scan = s.scan := rfl
@[simp] theorem State.noteSet_shk (a i : Nat) : (s.noteSet a i).shk = s.shk := rfl
@[simp] theorem State.noteSet_nv (a i : Nat) : (s.noteSet a i).nv = s.nv := rfl
@[simp] theorem State.noteSet_kpr (a i : Nat) : (s.noteSet a i).kpr = s.kpr := rfl
@[simp] theorem State.noteSet_agent (a i : Nat) : (s.noteSet a i).agent = s.agent := rfl
@[simp] theorem State.noteSet_lrp (a i : Nat) : (s.noteSet a i).lrp = s.lrp := rfl
@[simp] theorem State.noteSet_upd (a i : Nat) : (s.noteSet a i).upd = s.upd := rfl
@[simp] theorem State.noteSet_tap (a i : Nat) : (s.noteSet a i).tap = s.tap := rfl
@[simp] theorem State.noteSet_shTurn (a i : Nat) : (s.noteSet a i).shTurn = s.shTurn := rfl
@[simp] theorem State.noteSet_reply (a i : Nat) : (s.noteSet a i).reply = s.reply := rfl
@[simp] theorem State.noteSet_free (a i : Nat) : (s.noteSet a i).free = s.free := rfl
@[simp] theorem State.noteSet_pins (a i : Nat) : (s.noteSet a i).pins = s.pins := rfl
@[simp] theorem State.noteSet_pending (a i : Nat) : (s.noteSet a i).pending = s.pending := rfl
@[simp] theorem State.noteSet_clamps (a i : Nat) : (s.noteSet a i).clamps = s.clamps := rfl
@[simp] theorem State.noteSet_reg (a i : Nat) (c : Nat) : (s.noteSet a i).reg c = s.reg c := rfl
@[simp] theorem State.noteSet_thr (a i : Nat) (c : Nat) : (s.noteSet a i).thr c = s.thr c := rfl
@[simp] theorem State.noteSet_eng (a i : Nat) (c : Nat) : (s.noteSet a i).eng c = s.eng c := rfl
@[simp] theorem State.noteSet_tmr (a i : Nat) (c : Nat) : (s.noteSet a i).tmr c = s.tmr c := rfl
@[simp] theorem State.noteSet_pad (a i : Nat) (c : Nat) : (s.noteSet a i).pad c = s.pad c := rfl
@[simp] theorem State.noteSet_cvt (a i : Nat) (c : Nat) : (s.noteSet a i).cvt c = s.cvt c := rfl

/-! ### noteCount -/

@[simp] theorem State.noteCount_cycle (a lo k : Nat) : (s.noteCount a lo k).cycle = s.cycle := rfl
@[simp] theorem State.noteCount_tb (a lo k : Nat) : (s.noteCount a lo k).tb = s.tb := rfl
@[simp] theorem State.noteCount_corrections (a lo k : Nat) : (s.noteCount a lo k).corrections = s.corrections := rfl
@[simp] theorem State.noteCount_regs (a lo k : Nat) : (s.noteCount a lo k).regs = s.regs := rfl
@[simp] theorem State.noteCount_mem (a lo k : Nat) : (s.noteCount a lo k).mem = s.mem := rfl
@[simp] theorem State.noteCount_ecc (a lo k : Nat) : (s.noteCount a lo k).ecc = s.ecc := rfl
@[simp] theorem State.noteCount_threads (a lo k : Nat) : (s.noteCount a lo k).threads = s.threads := rfl
@[simp] theorem State.noteCount_engines (a lo k : Nat) : (s.noteCount a lo k).engines = s.engines := rfl
@[simp] theorem State.noteCount_hinge (a lo k : Nat) : (s.noteCount a lo k).hinge = s.hinge := rfl
@[simp] theorem State.noteCount_timers (a lo k : Nat) : (s.noteCount a lo k).timers = s.timers := rfl
@[simp] theorem State.noteCount_pads (a lo k : Nat) : (s.noteCount a lo k).pads = s.pads := rfl
@[simp] theorem State.noteCount_cvts (a lo k : Nat) : (s.noteCount a lo k).cvts = s.cvts := rfl
@[simp] theorem State.noteCount_tum (a lo k : Nat) : (s.noteCount a lo k).tum = s.tum := rfl
@[simp] theorem State.noteCount_sys (a lo k : Nat) : (s.noteCount a lo k).sys = s.sys := rfl
@[simp] theorem State.noteCount_nowh (a lo k : Nat) : (s.noteCount a lo k).nowh = s.nowh := rfl
@[simp] theorem State.noteCount_lasth (a lo k : Nat) : (s.noteCount a lo k).lasth = s.lasth := rfl
@[simp] theorem State.noteCount_chain (a lo k : Nat) : (s.noteCount a lo k).chain = s.chain := rfl
@[simp] theorem State.noteCount_chans (a lo k : Nat) : (s.noteCount a lo k).chans = s.chans := rfl
@[simp] theorem State.noteCount_scan (a lo k : Nat) : (s.noteCount a lo k).scan = s.scan := rfl
@[simp] theorem State.noteCount_shk (a lo k : Nat) : (s.noteCount a lo k).shk = s.shk := rfl
@[simp] theorem State.noteCount_nv (a lo k : Nat) : (s.noteCount a lo k).nv = s.nv := rfl
@[simp] theorem State.noteCount_kpr (a lo k : Nat) : (s.noteCount a lo k).kpr = s.kpr := rfl
@[simp] theorem State.noteCount_agent (a lo k : Nat) : (s.noteCount a lo k).agent = s.agent := rfl
@[simp] theorem State.noteCount_lrp (a lo k : Nat) : (s.noteCount a lo k).lrp = s.lrp := rfl
@[simp] theorem State.noteCount_upd (a lo k : Nat) : (s.noteCount a lo k).upd = s.upd := rfl
@[simp] theorem State.noteCount_tap (a lo k : Nat) : (s.noteCount a lo k).tap = s.tap := rfl
@[simp] theorem State.noteCount_shTurn (a lo k : Nat) : (s.noteCount a lo k).shTurn = s.shTurn := rfl
@[simp] theorem State.noteCount_reply (a lo k : Nat) : (s.noteCount a lo k).reply = s.reply := rfl
@[simp] theorem State.noteCount_free (a lo k : Nat) : (s.noteCount a lo k).free = s.free := rfl
@[simp] theorem State.noteCount_pins (a lo k : Nat) : (s.noteCount a lo k).pins = s.pins := rfl
@[simp] theorem State.noteCount_pending (a lo k : Nat) : (s.noteCount a lo k).pending = s.pending := rfl
@[simp] theorem State.noteCount_clamps (a lo k : Nat) : (s.noteCount a lo k).clamps = s.clamps := rfl
@[simp] theorem State.noteCount_reg (a lo k : Nat) (c : Nat) : (s.noteCount a lo k).reg c = s.reg c := rfl
@[simp] theorem State.noteCount_thr (a lo k : Nat) (c : Nat) : (s.noteCount a lo k).thr c = s.thr c := rfl
@[simp] theorem State.noteCount_eng (a lo k : Nat) (c : Nat) : (s.noteCount a lo k).eng c = s.eng c := rfl
@[simp] theorem State.noteCount_tmr (a lo k : Nat) (c : Nat) : (s.noteCount a lo k).tmr c = s.tmr c := rfl
@[simp] theorem State.noteCount_pad (a lo k : Nat) (c : Nat) : (s.noteCount a lo k).pad c = s.pad c := rfl
@[simp] theorem State.noteCount_cvt (a lo k : Nat) (c : Nat) : (s.noteCount a lo k).cvt c = s.cvt c := rfl

/-! ### noteWrites -/

@[simp] theorem State.noteWrites_cycle (id : Nat) (l : List Nat) : (s.noteWrites id l).cycle = s.cycle := rfl
@[simp] theorem State.noteWrites_tb (id : Nat) (l : List Nat) : (s.noteWrites id l).tb = s.tb := rfl
@[simp] theorem State.noteWrites_corrections (id : Nat) (l : List Nat) : (s.noteWrites id l).corrections = s.corrections := rfl
@[simp] theorem State.noteWrites_regs (id : Nat) (l : List Nat) : (s.noteWrites id l).regs = s.regs := rfl
@[simp] theorem State.noteWrites_mem (id : Nat) (l : List Nat) : (s.noteWrites id l).mem = s.mem := rfl
@[simp] theorem State.noteWrites_ecc (id : Nat) (l : List Nat) : (s.noteWrites id l).ecc = s.ecc := rfl
@[simp] theorem State.noteWrites_threads (id : Nat) (l : List Nat) : (s.noteWrites id l).threads = s.threads := rfl
@[simp] theorem State.noteWrites_engines (id : Nat) (l : List Nat) : (s.noteWrites id l).engines = s.engines := rfl
@[simp] theorem State.noteWrites_hinge (id : Nat) (l : List Nat) : (s.noteWrites id l).hinge = s.hinge := rfl
@[simp] theorem State.noteWrites_timers (id : Nat) (l : List Nat) : (s.noteWrites id l).timers = s.timers := rfl
@[simp] theorem State.noteWrites_pads (id : Nat) (l : List Nat) : (s.noteWrites id l).pads = s.pads := rfl
@[simp] theorem State.noteWrites_cvts (id : Nat) (l : List Nat) : (s.noteWrites id l).cvts = s.cvts := rfl
@[simp] theorem State.noteWrites_tum (id : Nat) (l : List Nat) : (s.noteWrites id l).tum = s.tum := rfl
@[simp] theorem State.noteWrites_sys (id : Nat) (l : List Nat) : (s.noteWrites id l).sys = s.sys := rfl
@[simp] theorem State.noteWrites_nowh (id : Nat) (l : List Nat) : (s.noteWrites id l).nowh = s.nowh := rfl
@[simp] theorem State.noteWrites_lasth (id : Nat) (l : List Nat) : (s.noteWrites id l).lasth = s.lasth := rfl
@[simp] theorem State.noteWrites_chain (id : Nat) (l : List Nat) : (s.noteWrites id l).chain = s.chain := rfl
@[simp] theorem State.noteWrites_chans (id : Nat) (l : List Nat) : (s.noteWrites id l).chans = s.chans := rfl
@[simp] theorem State.noteWrites_scan (id : Nat) (l : List Nat) : (s.noteWrites id l).scan = s.scan := rfl
@[simp] theorem State.noteWrites_shk (id : Nat) (l : List Nat) : (s.noteWrites id l).shk = s.shk := rfl
@[simp] theorem State.noteWrites_nv (id : Nat) (l : List Nat) : (s.noteWrites id l).nv = s.nv := rfl
@[simp] theorem State.noteWrites_kpr (id : Nat) (l : List Nat) : (s.noteWrites id l).kpr = s.kpr := rfl
@[simp] theorem State.noteWrites_agent (id : Nat) (l : List Nat) : (s.noteWrites id l).agent = s.agent := rfl
@[simp] theorem State.noteWrites_lrp (id : Nat) (l : List Nat) : (s.noteWrites id l).lrp = s.lrp := rfl
@[simp] theorem State.noteWrites_upd (id : Nat) (l : List Nat) : (s.noteWrites id l).upd = s.upd := rfl
@[simp] theorem State.noteWrites_tap (id : Nat) (l : List Nat) : (s.noteWrites id l).tap = s.tap := rfl
@[simp] theorem State.noteWrites_shTurn (id : Nat) (l : List Nat) : (s.noteWrites id l).shTurn = s.shTurn := rfl
@[simp] theorem State.noteWrites_reply (id : Nat) (l : List Nat) : (s.noteWrites id l).reply = s.reply := rfl
@[simp] theorem State.noteWrites_free (id : Nat) (l : List Nat) : (s.noteWrites id l).free = s.free := rfl
@[simp] theorem State.noteWrites_pins (id : Nat) (l : List Nat) : (s.noteWrites id l).pins = s.pins := rfl
@[simp] theorem State.noteWrites_pending (id : Nat) (l : List Nat) : (s.noteWrites id l).pending = s.pending := rfl
@[simp] theorem State.noteWrites_clamps (id : Nat) (l : List Nat) : (s.noteWrites id l).clamps = s.clamps := rfl
@[simp] theorem State.noteWrites_reg (id : Nat) (l : List Nat) (c : Nat) : (s.noteWrites id l).reg c = s.reg c := rfl
@[simp] theorem State.noteWrites_thr (id : Nat) (l : List Nat) (c : Nat) : (s.noteWrites id l).thr c = s.thr c := rfl
@[simp] theorem State.noteWrites_eng (id : Nat) (l : List Nat) (c : Nat) : (s.noteWrites id l).eng c = s.eng c := rfl
@[simp] theorem State.noteWrites_tmr (id : Nat) (l : List Nat) (c : Nat) : (s.noteWrites id l).tmr c = s.tmr c := rfl
@[simp] theorem State.noteWrites_pad (id : Nat) (l : List Nat) (c : Nat) : (s.noteWrites id l).pad c = s.pad c := rfl
@[simp] theorem State.noteWrites_cvt (id : Nat) (l : List Nat) (c : Nat) : (s.noteWrites id l).cvt c = s.cvt c := rfl

/-! ### Accessors after updates -/

theorem State.setThr_thr (k j : Nat) (v : Thread) : (s.setThr k v).thr j = if j = k then v else s.thr j := tabGet_tabSet ..
@[simp] theorem State.setThr_thr_same (k : Nat) (v : Thread) : (s.setThr k v).thr k = v := by simp [State.setThr_thr]
theorem State.updThr_thr (k j : Nat) (f : Thread → Thread) : (s.updThr k f).thr j = if j = k then f (s.thr k) else s.thr j :=
  tabGet_tabSet ..
@[simp] theorem State.updThr_thr_same (k : Nat) (f : Thread → Thread) : (s.updThr k f).thr k = f (s.thr k) := by
  simp [State.updThr_thr]
theorem State.setEng_eng (k j : Nat) (v : Engine) : (s.setEng k v).eng j = if j = k then v else s.eng j := tabGet_tabSet ..
@[simp] theorem State.setEng_eng_same (k : Nat) (v : Engine) : (s.setEng k v).eng k = v := by simp [State.setEng_eng]
theorem State.updEng_eng (k j : Nat) (f : Engine → Engine) : (s.updEng k f).eng j = if j = k then f (s.eng k) else s.eng j :=
  tabGet_tabSet ..
@[simp] theorem State.updEng_eng_same (k : Nat) (f : Engine → Engine) : (s.updEng k f).eng k = f (s.eng k) := by
  simp [State.updEng_eng]
theorem State.setTmr_tmr (k j : Nat) (v : Timer) : (s.setTmr k v).tmr j = if j = k then v else s.tmr j := tabGet_tabSet ..
@[simp] theorem State.setTmr_tmr_same (k : Nat) (v : Timer) : (s.setTmr k v).tmr k = v := by simp [State.setTmr_tmr]
theorem State.updTmr_tmr (k j : Nat) (f : Timer → Timer) : (s.updTmr k f).tmr j = if j = k then f (s.tmr k) else s.tmr j :=
  tabGet_tabSet ..
@[simp] theorem State.updTmr_tmr_same (k : Nat) (f : Timer → Timer) : (s.updTmr k f).tmr k = f (s.tmr k) := by
  simp [State.updTmr_tmr]
theorem State.setPad_pad (k j : Nat) (v : Pad) : (s.setPad k v).pad j = if j = k then v else s.pad j := tabGet_tabSet ..
@[simp] theorem State.setPad_pad_same (k : Nat) (v : Pad) : (s.setPad k v).pad k = v := by simp [State.setPad_pad]
theorem State.updPad_pad (k j : Nat) (f : Pad → Pad) : (s.updPad k f).pad j = if j = k then f (s.pad k) else s.pad j :=
  tabGet_tabSet ..
@[simp] theorem State.updPad_pad_same (k : Nat) (f : Pad → Pad) : (s.updPad k f).pad k = f (s.pad k) := by
  simp [State.updPad_pad]
theorem State.setCvt_cvt (k j : Nat) (v : Cvt) : (s.setCvt k v).cvt j = if j = k then v else s.cvt j := tabGet_tabSet ..
@[simp] theorem State.setCvt_cvt_same (k : Nat) (v : Cvt) : (s.setCvt k v).cvt k = v := by simp [State.setCvt_cvt]
theorem State.updCvt_cvt (k j : Nat) (f : Cvt → Cvt) : (s.updCvt k f).cvt j = if j = k then f (s.cvt k) else s.cvt j :=
  tabGet_tabSet ..
@[simp] theorem State.updCvt_cvt_same (k : Nat) (f : Cvt → Cvt) : (s.updCvt k f).cvt k = f (s.cvt k) := by
  simp [State.updCvt_cvt]

theorem State.setReg_reg (a b : Nat) (v : Word) : (s.setReg a v).reg b = if b = a then v else s.reg b := by
  simp only [State.reg, State.setReg_regs, tabFind_tabSet]; split <;> rfl
@[simp] theorem State.setReg_reg_other (a b : Nat) (v : Word) (h : b ≠ a) : (s.setReg a v).reg b = s.reg b := by
  simp [State.setReg_reg, h]
@[simp] theorem State.setReg_reg_same (a : Nat) (v : Word) : (s.setReg a v).reg a = v := by simp [State.setReg_reg]

theorem State.thr_of_threads (s' : State) (h : s'.threads = s.threads) (k : Nat) : s'.thr k = s.thr k := by simp [State.thr, h]
theorem State.eng_of_engines (s' : State) (h : s'.engines = s.engines) (k : Nat) : s'.eng k = s.eng k := by simp [State.eng, h]
theorem State.tmr_of_timers (s' : State) (h : s'.timers = s.timers) (k : Nat) : s'.tmr k = s.tmr k := by simp [State.tmr, h]
theorem State.pad_of_pads (s' : State) (h : s'.pads = s.pads) (k : Nat) : s'.pad k = s.pad k := by simp [State.pad, h]
theorem State.cvt_of_cvts (s' : State) (h : s'.cvts = s.cvts) (k : Nat) : s'.cvt k = s.cvt k := by simp [State.cvt, h]
theorem State.reg_of_regs (s' : State) (h : s'.regs = s.regs) (a : Nat) : s'.reg a = s.reg a := by simp [State.reg, h]

@[simp] theorem State.setEng_thr (k j : Nat) (v : Engine) : (s.setEng k v).thr j = s.thr j := rfl
@[simp] theorem State.updEng_thr (k j : Nat) (f : Engine → Engine) : (s.updEng k f).thr j = s.thr j := rfl
@[simp] theorem State.setTmr_thr (k j : Nat) (v : Timer) : (s.setTmr k v).thr j = s.thr j := rfl
@[simp] theorem State.updTmr_thr (k j : Nat) (f : Timer → Timer) : (s.updTmr k f).thr j = s.thr j := rfl
@[simp] theorem State.setPad_thr (k j : Nat) (v : Pad) : (s.setPad k v).thr j = s.thr j := rfl
@[simp] theorem State.updPad_thr (k j : Nat) (f : Pad → Pad) : (s.updPad k f).thr j = s.thr j := rfl
@[simp] theorem State.setCvt_thr (k j : Nat) (v : Cvt) : (s.setCvt k v).thr j = s.thr j := rfl
@[simp] theorem State.updCvt_thr (k j : Nat) (f : Cvt → Cvt) : (s.updCvt k f).thr j = s.thr j := rfl
@[simp] theorem State.setReg_thr (a j : Nat) (v : Word) : (s.setReg a v).thr j = s.thr j := rfl
@[simp] theorem State.setThr_reg (k a : Nat) (v : Thread) : (s.setThr k v).reg a = s.reg a := rfl
@[simp] theorem State.updThr_reg (k a : Nat) (f : Thread → Thread) : (s.updThr k f).reg a = s.reg a := rfl
@[simp] theorem State.setThr_eng (k j : Nat) (v : Thread) : (s.setThr k v).eng j = s.eng j := rfl
@[simp] theorem State.updThr_eng (k j : Nat) (f : Thread → Thread) : (s.updThr k f).eng j = s.eng j := rfl
@[simp] theorem State.setTmr_eng (k j : Nat) (v : Timer) : (s.setTmr k v).eng j = s.eng j := rfl
@[simp] theorem State.updTmr_eng (k j : Nat) (f : Timer → Timer) : (s.updTmr k f).eng j = s.eng j := rfl
@[simp] theorem State.setPad_eng (k j : Nat) (v : Pad) : (s.setPad k v).eng j = s.eng j := rfl
@[simp] theorem State.updPad_eng (k j : Nat) (f : Pad → Pad) : (s.updPad k f).eng j = s.eng j := rfl
@[simp] theorem State.setCvt_eng (k j : Nat) (v : Cvt) : (s.setCvt k v).eng j = s.eng j := rfl
@[simp] theorem State.updCvt_eng (k j : Nat) (f : Cvt → Cvt) : (s.updCvt k f).eng j = s.eng j := rfl
@[simp] theorem State.setReg_eng (a j : Nat) (v : Word) : (s.setReg a v).eng j = s.eng j := rfl
@[simp] theorem State.setEng_reg (k a : Nat) (v : Engine) : (s.setEng k v).reg a = s.reg a := rfl
@[simp] theorem State.updEng_reg (k a : Nat) (f : Engine → Engine) : (s.updEng k f).reg a = s.reg a := rfl
@[simp] theorem State.setThr_tmr (k j : Nat) (v : Thread) : (s.setThr k v).tmr j = s.tmr j := rfl
@[simp] theorem State.updThr_tmr (k j : Nat) (f : Thread → Thread) : (s.updThr k f).tmr j = s.tmr j := rfl
@[simp] theorem State.setEng_tmr (k j : Nat) (v : Engine) : (s.setEng k v).tmr j = s.tmr j := rfl
@[simp] theorem State.updEng_tmr (k j : Nat) (f : Engine → Engine) : (s.updEng k f).tmr j = s.tmr j := rfl
@[simp] theorem State.setPad_tmr (k j : Nat) (v : Pad) : (s.setPad k v).tmr j = s.tmr j := rfl
@[simp] theorem State.updPad_tmr (k j : Nat) (f : Pad → Pad) : (s.updPad k f).tmr j = s.tmr j := rfl
@[simp] theorem State.setCvt_tmr (k j : Nat) (v : Cvt) : (s.setCvt k v).tmr j = s.tmr j := rfl
@[simp] theorem State.updCvt_tmr (k j : Nat) (f : Cvt → Cvt) : (s.updCvt k f).tmr j = s.tmr j := rfl
@[simp] theorem State.setReg_tmr (a j : Nat) (v : Word) : (s.setReg a v).tmr j = s.tmr j := rfl
@[simp] theorem State.setTmr_reg (k a : Nat) (v : Timer) : (s.setTmr k v).reg a = s.reg a := rfl
@[simp] theorem State.updTmr_reg (k a : Nat) (f : Timer → Timer) : (s.updTmr k f).reg a = s.reg a := rfl
@[simp] theorem State.setThr_pad (k j : Nat) (v : Thread) : (s.setThr k v).pad j = s.pad j := rfl
@[simp] theorem State.updThr_pad (k j : Nat) (f : Thread → Thread) : (s.updThr k f).pad j = s.pad j := rfl
@[simp] theorem State.setEng_pad (k j : Nat) (v : Engine) : (s.setEng k v).pad j = s.pad j := rfl
@[simp] theorem State.updEng_pad (k j : Nat) (f : Engine → Engine) : (s.updEng k f).pad j = s.pad j := rfl
@[simp] theorem State.setTmr_pad (k j : Nat) (v : Timer) : (s.setTmr k v).pad j = s.pad j := rfl
@[simp] theorem State.updTmr_pad (k j : Nat) (f : Timer → Timer) : (s.updTmr k f).pad j = s.pad j := rfl
@[simp] theorem State.setCvt_pad (k j : Nat) (v : Cvt) : (s.setCvt k v).pad j = s.pad j := rfl
@[simp] theorem State.updCvt_pad (k j : Nat) (f : Cvt → Cvt) : (s.updCvt k f).pad j = s.pad j := rfl
@[simp] theorem State.setReg_pad (a j : Nat) (v : Word) : (s.setReg a v).pad j = s.pad j := rfl
@[simp] theorem State.setPad_reg (k a : Nat) (v : Pad) : (s.setPad k v).reg a = s.reg a := rfl
@[simp] theorem State.updPad_reg (k a : Nat) (f : Pad → Pad) : (s.updPad k f).reg a = s.reg a := rfl
@[simp] theorem State.setThr_cvt (k j : Nat) (v : Thread) : (s.setThr k v).cvt j = s.cvt j := rfl
@[simp] theorem State.updThr_cvt (k j : Nat) (f : Thread → Thread) : (s.updThr k f).cvt j = s.cvt j := rfl
@[simp] theorem State.setEng_cvt (k j : Nat) (v : Engine) : (s.setEng k v).cvt j = s.cvt j := rfl
@[simp] theorem State.updEng_cvt (k j : Nat) (f : Engine → Engine) : (s.updEng k f).cvt j = s.cvt j := rfl
@[simp] theorem State.setTmr_cvt (k j : Nat) (v : Timer) : (s.setTmr k v).cvt j = s.cvt j := rfl
@[simp] theorem State.updTmr_cvt (k j : Nat) (f : Timer → Timer) : (s.updTmr k f).cvt j = s.cvt j := rfl
@[simp] theorem State.setPad_cvt (k j : Nat) (v : Pad) : (s.setPad k v).cvt j = s.cvt j := rfl
@[simp] theorem State.updPad_cvt (k j : Nat) (f : Pad → Pad) : (s.updPad k f).cvt j = s.cvt j := rfl
@[simp] theorem State.setReg_cvt (a j : Nat) (v : Word) : (s.setReg a v).cvt j = s.cvt j := rfl
@[simp] theorem State.setCvt_reg (k a : Nat) (v : Cvt) : (s.setCvt k v).reg a = s.reg a := rfl
@[simp] theorem State.updCvt_reg (k a : Nat) (f : Cvt → Cvt) : (s.updCvt k f).reg a = s.reg a := rfl

end Sys2Proof.Machine
end

