-- ==== Sys2Proof/Laws/Ops.lean ====
section
/-! SUPPORT. One law for each shared operation of Sys2Proof/Machine/Ops.lean: what it changes, and what it does where no
code word holds an error. Every operation on memory keeps the canonical form. -/

namespace Sys2Proof

open Machine

/-! ### Frames -/

theorem OnlyIn.refl (ps : List Part) (s : State) : OnlyIn ps s s := fun p _ => by cases p <;> rfl

theorem Part.same_trans (p : Part) {s t u : State} (h : p.same s t) (h' : p.same t u) : p.same s u := by
  cases p <;> exact Eq.trans h' h

theorem OnlyIn.trans {ps : List Part} {s t u : State} (h : OnlyIn ps s t) (h' : OnlyIn ps t u) : OnlyIn ps s u :=
  fun p hp => p.same_trans (h p hp) (h' p hp)

theorem OnlyIn.mono {ps qs : List Part} {s t : State} (h : OnlyIn ps s t) (hs : ∀ p ∈ ps, p ∈ qs) : OnlyIn qs s t :=
  fun p hp => h p fun hm => hp (hs p hm)

theorem SameMemory.of_mem {s t : State} (h : t.mem = s.mem) : SameMemory s t := fun a => by rw [h]

theorem SameMemory.trans {s t u : State} (h : SameMemory s t) (h' : SameMemory t u) : SameMemory s u :=
  fun a => (h' a).trans (h a)

theorem MemoryOutside.trans {lo n : Nat} {s t u : State} (h : MemoryOutside lo n s t) (h' : MemoryOutside lo n t u) :
    MemoryOutside lo n s u := fun a ha => (h' a ha).trans (h a ha)

/-- What a frame says of each part that it does not name. -/
theorem OnlyIn.mem {ps : List Part} {s t : State} (h : OnlyIn ps s t) (hp : Part.mem ∉ ps) : t.mem = s.mem := h .mem hp
theorem OnlyIn.regs {ps : List Part} {s t : State} (h : OnlyIn ps s t) (hp : Part.regs ∉ ps) : t.regs = s.regs := h .regs hp
theorem OnlyIn.threads {ps : List Part} {s t : State} (h : OnlyIn ps s t) (hp : Part.threads ∉ ps) :
    t.threads = s.threads := h .threads hp
theorem OnlyIn.engines {ps : List Part} {s t : State} (h : OnlyIn ps s t) (hp : Part.engines ∉ ps) :
    t.engines = s.engines := h .engines hp
theorem OnlyIn.hinge {ps : List Part} {s t : State} (h : OnlyIn ps s t) (hp : Part.hinge ∉ ps) : t.hinge = s.hinge :=
  h .hinge hp
theorem OnlyIn.sys {ps : List Part} {s t : State} (h : OnlyIn ps s t) (hp : Part.sys ∉ ps) : t.sys = s.sys := h .sys hp

/-- A part is left alone by a frame that does not list it; `rfl` for every update of State. -/
theorem setReg_only (s : State) (a : Nat) (v : Word) : OnlyIn [.regs] s (s.setReg a v) := by
  intro p hp; cases p <;> first | rfl | exact absurd (by simp) hp

theorem setThr_only (s : State) (id : Nat) (t : Thread) : OnlyIn [.threads] s (s.setThr id t) := by
  intro p hp; cases p <;> first | rfl | exact absurd (by simp) hp

theorem setEng_only (s : State) (k : Nat) (e : Engine) : OnlyIn [.engines] s (s.setEng k e) := by
  intro p hp; cases p <;> first | rfl | exact absurd (by simp) hp

theorem setFlag_only (s : State) (a i : Nat) : OnlyIn [.regs] s (s.setFlag a i) := by
  intro p hp; cases p <;> first | rfl | exact absurd (by simp) hp

theorem count_only (s : State) (a lo n k : Nat) : OnlyIn [.regs] s (s.count a lo n k) := by
  intro p hp; cases p <;> first | rfl | exact absurd (by simp) hp

theorem note_only (s : State) (f : Same → Same) : OnlyIn [] s (s.note f) := by
  intro p _; cases p <;> rfl

theorem noteWrites_only (s : State) (id : Nat) (l : List Nat) : OnlyIn [] s (s.noteWrites id l) := note_only s _

theorem clearFlag_only (s : State) (a i : Nat) : OnlyIn [.regs] s (s.clearFlag a i) := by
  simp only [State.clearFlag]; split
  · exact OnlyIn.refl _ s
  · exact setReg_only s _ _

theorem armFlag_only (s : State) (a i : Nat) : OnlyIn [.regs] s (s.armFlag a i) := by
  simp only [State.armFlag]; split
  · intro p _; cases p <;> rfl
  · exact setReg_only s _ _

/-! ### Registers -/

theorem setReg_regsBut (s : State) (a : Nat) (v : Word) : RegsBut [a] s (s.setReg a v) := by
  intro b hb
  rw [State.setReg_reg, if_neg (by simpa using hb)]

/-- A counter counts up and saturates (Tables 1.11 to 16.6). -/
theorem count_reg (s : State) (a lo n k b : Nat) : (s.count a lo n k).reg b =
    if b = a then setFld (s.reg a) lo n (min (2 ^ n - 1) (fld (s.reg a) lo n + k)) else s.reg b :=
  State.setReg_reg ..

theorem setFlag_reg (s : State) (a i b : Nat) :
    (s.setFlag a i).reg b = if b = a then setBit (s.reg a) i true else s.reg b := State.setReg_reg ..

/-- R38: hardware clears a bit unless software has set it anew in the cycle. -/
theorem clearFlag_reg (s : State) (a i b : Nat) :
    (s.clearFlag a i).reg b = if b = a ∧ s.setNow a i = false then setBit (s.reg a) i false else s.reg b := by
  simp only [State.clearFlag]
  cases s.setNow a i <;> simp [State.setReg_reg]

/-- In a cycle that has seen nothing, no write has landed, and hardware has set no bit and counted nothing of a register
that neither the Keeper island nor the always-on island keeps. -/
theorem Fresh.nothing {s : State} (h : Fresh s) :
    s.sameNow.writes = [] ∧ ∀ a i, isKpr a = false → isAon a = false →
      s.setNow a i = false ∧ tabGet 0 (s.sameNow.countsAt a) i = 0 := by
  rw [Fresh] at h
  generalize s.sameNow.kpr = k, s.sameNow.aon = n at h
  refine ⟨by simp [h], fun a i hk hn => ⟨?_, ?_⟩⟩
  · simp [State.setNow, h, Same.setsAt, hk, hn, tabGet, bit]
  · simp [h, Same.countsAt, hk, hn, tabGet]

/-! ### Raises and clamps -/

/-- A raise changes registers and the fabric only. -/
theorem raiseIn_only (s : State) (cyc ch : Nat) (ts : Time64) (route : Bool) :
    OnlyIn [.regs, .hinge] s (s.raiseIn cyc ch ts route) := by
  intro p hp
  simp only [State.raiseIn]
  split
  · cases p <;> rfl
  · split
    · cases p <;> first | rfl | exact absurd (by simp) hp
    · split
      · cases p <;> first | rfl | exact absurd (by simp) hp
      · split <;> (cases p <;> first | rfl | exact absurd (by simp) hp)

theorem raise_only (s : State) (ch : Nat) : OnlyIn [.regs, .hinge] s (s.raise ch) := raiseIn_only s _ _ _ _

theorem raiseLater_only (s : State) (n ch : Nat) : OnlyIn [.regs, .hinge] s (s.raiseLater n ch) :=
  raiseIn_only s _ _ _ _

/-- A raise that the channel takes (R211): it joins the raises, and nothing else changes. -/
theorem raiseIn_taken (s : State) (cyc ch : Nat) (ts : Time64) (route : Bool) (h : s.running = true)
    (hl : bit (s.reg (aHfCh ch)) 31 = false) (hr : ∀ r ∈ s.hinge.raised, ¬ (r.cyc = cyc ∧ r.ch = ch)) :
    s.raiseIn cyc ch ts route =
      { s with hinge := { s.hinge with raised := s.hinge.raised ++ [⟨cyc, ch, ts, false, route⟩] } } := by
  have ha : s.hinge.raised.find? (fun r => r.cyc == cyc && r.ch == ch) = none := by
    rw [List.find?_eq_none]
    intro r hm
    simpa using hr r hm
  simp [State.raiseIn, h, hl, ha]

theorem raise_taken (s : State) (ch : Nat) (h : Raisable ch s) : RaisedNow ch s (s.raise ch) := by
  simp only [RaisedNow, Raised, State.raise]
  rw [raiseIn_taken s s.cycle ch _ _ h.1 h.2.1 h.2.2]

theorem clamp_only (s : State) (n : Nat) : OnlyIn [.regs, .hinge] s (s.clamp n) := by
  simp only [State.clamp]
  split
  · exact OnlyIn.refl _ s
  · exact ((count_only s _ _ _ n).mono (by simp)).trans (raise_only _ _)

@[simp] theorem clamp_zero (s : State) : s.clamp 0 = s := rfl

/-! ### Code words -/

/-- A checked read where no code word holds an error: the data, and no change. -/
theorem readCode_clean (s : State) (key src id : Nat) (h : Clean s) :
    s.readCode key src id = (s, some (leNat (readBytes s.mem key (cwBytes (memNum key))))) := by
  simp [State.readCode, h.1]

/-- No injection is armed: a mark of no error leaves the state as it is. -/
theorem markCode_clean (s : State) (key : Nat) (h : Clean s) : s.markCode key 0 = s := by
  have hi : s.injected (memNum key) = 0 := by simp [State.injected, h.2.1]
  have he : tabErase s.ecc.bad key = s.ecc.bad := by rw [h.1]; rfl
  simp only [State.markCode, hi]
  simp [he]

theorem writeCode_clean (s : State) (key v : Nat) (h : Clean s) : s.writeCode key v =
    { s with mem := writeBytes s.mem key (leBytes (cwBytes (memNum key)) v) } := by
  simp only [State.writeCode]
  exact markCode_clean _ key h

/-- A merge write where no code word holds an error stores the lanes, in the bytes of the word as they were. -/
theorem mergeCode_clean (s : State) (key id : Nat) (lanes : Tab Byte) (h : Clean s) :
    ∃ m, s.mergeCode key id lanes = { s with mem := putLanes m key lanes } ∧ ∀ a, readByte m a = readByte s.mem a := by
  simp only [State.mergeCode]
  split
  · exact ⟨s.mem, markCode_clean _ key h, fun _ => rfl⟩
  · rw [readCode_clean s key 2 id h]
    refine ⟨_, markCode_clean _ key h, fun a => ?_⟩
    have hb := leBytes_leNat (readBytes s.mem key (cwBytes (memNum key)))
    rw [readBytes_length] at hb
    rw [hb, readByte_writeBytes]
    split
    · rw [readBytes_getD _ _ _ _ (by simp at *; omega)]
      congr 1; omega
    · rfl

theorem readByte_putLanes_other (m : Memory) (key : Nat) (ls : Tab Byte) (a : Nat) (h : ∀ l ∈ ls, a ≠ key + l.1) :
    readByte (putLanes m key ls) a = readByte m a := by
  induction ls generalizing m with
  | nil => rfl
  | cons l ls ih =>
    simp only [putLanes]
    rw [ih _ fun x hx => h x (List.mem_cons_of_mem _ hx)]
    exact readByte_writeByte_other m _ (h l (List.mem_cons_self ..))

/-! ### The canonical form -/

theorem corrected_mem (s : State) (key src id bitNo : Nat) : (s.corrected key src id bitNo).mem = s.mem := by
  simp only [State.corrected]
  split <;> split <;> simp [(raise_only _ _).mem]

theorem uncorrectable_mem (s : State) (key src id : Nat) (p : Bool) : (s.uncorrectable key src id p).mem = s.mem := by
  simp only [State.uncorrectable]
  rw [(raise_only _ _).mem (by simp)]
  split <;> simp

/-- A checked read stores nothing. -/
theorem readCode_mem (s : State) (key src id : Nat) : (s.readCode key src id).1.mem = s.mem := by
  simp only [State.readCode]
  split
  · rfl
  · split
    · exact corrected_mem ..
    · split
      · exact uncorrectable_mem ..
      · by_cases h0 : Config.freeNat s.free % 3 = 0
        · simp only [State.drawNat, h0, if_true]; exact uncorrectable_mem ..
        · by_cases h1 : Config.freeNat s.free % 3 = 1
          · simp only [State.drawNat, h1, if_true, Nat.one_ne_zero, if_false]; exact corrected_mem ..
          · simp only [State.drawNat, h0, h1, if_false]

theorem markCode_mem (s : State) (key : Nat) (bad : BitVec 72) : (s.markCode key bad).mem = s.mem := by
  simp only [State.markCode]; split
  · rfl
  · rw [(clearFlag_only _ _ _).mem (by simp)]

theorem wf_writeCode (s : State) (key v : Nat) (h : Memory.wf s.mem = true) : Memory.wf (s.writeCode key v).mem = true := by
  simp only [State.writeCode, markCode_mem]
  exact wf_writeBytes _ _ _ h

theorem wf_mergeCode (s : State) (key id : Nat) (lanes : Tab Byte) (h : Memory.wf s.mem = true) :
    Memory.wf (s.mergeCode key id lanes).mem = true := by
  have hr := readCode_mem s key 2 id
  simp only [State.mergeCode]
  split
  · rw [markCode_mem]; exact wf_putLanes _ _ _ h
  · split
    · rw [markCode_mem]; exact wf_putLanes _ _ _ (wf_writeBytes _ _ _ (hr ▸ h))
    · rw [markCode_mem]; exact wf_putLanes _ _ _ (wf_writeBytes _ _ _ (hr ▸ h))

theorem wf_landLanes (s : State) (key id : Nat) (lanes : Tab Byte) (who : Nat) (h : Memory.wf s.mem = true) :
    Memory.wf (s.landLanes key id lanes who).mem = true := by
  simp only [State.landLanes]
  split
  · exact h
  · exact wf_mergeCode _ _ _ _ h

/-- R42: with no write in this cycle yet, a write's lanes all land. -/
theorem landLanes_first (s : State) (key id : Nat) (lanes : Tab Byte) (h : s.sameNow.writes = []) (hl : lanes ≠ []) :
    s.landLanes key id lanes = (s.noteWrites id (lanes.map fun l => key + l.1)).mergeCode key id lanes := by
  have hf : (lanes.filter fun l => !s.outranked id (key + l.1)) = lanes := by
    rw [List.filter_eq_self]; intro l _; simp [State.outranked, h]
  simp only [State.landLanes, hf]
  rw [if_neg (by simpa using hl)]

theorem wf_storeIn (s : State) (key n v id : Nat) (h : Memory.wf s.mem = true) :
    Memory.wf (s.storeIn key n v id).mem = true := wf_landLanes _ _ _ _ _ h

/-- An invariant of states that each step of a fold keeps, the whole fold keeps. -/
theorem foldl_keeps {α : Type} (P : State → Prop) (f : State → α → State) (l : List α) (s : State) (h : P s)
    (hf : ∀ s a, P s → P (f s a)) : P (l.foldl f s) := by
  induction l generalizing s with
  | nil => exact h
  | cons a l ih => exact ih _ (hf s a h)

theorem wf_storeBytes (s : State) (key id : Nat) (bs : List Byte) (who : Nat) (h : Memory.wf s.mem = true) :
    Memory.wf (s.storeBytes key id bs who).mem = true :=
  foldl_keeps (fun s => Memory.wf s.mem = true) _ _ s h fun s _ h => wf_landLanes s _ _ _ _ h

theorem loadIn_mem (s : State) (key n src id : Nat) : (s.loadIn key n src id).1.mem = s.mem := readCode_mem ..

theorem wf_loseEngine (s : State) (k : Nat) (h : Memory.wf s.mem = true) : Memory.wf (s.loseEngine k).mem = true :=
  wf_eraseRange _ _ _ h

theorem reset_wf : Memory.wf State.reset.mem = true := rfl

end Sys2Proof
end

