-- ==== Sys2Proof/Laws/Beat.lean ====
section
/-! SUPPORT. What a beat does: the law of an instruction that executes, and of the successor that every instruction but a
transfer has. The statements about instructions go through these. -/

namespace Sys2Proof

open Machine

/-! ### The thread as a position begins for it -/

@[simp] theorem enter_w (t : Thread) (c : Nat) (st : ThreadState) : (t.enter c st).w = t.w := by simp only [Thread.enter]; split <;> rfl
@[simp] theorem enter_pc (t : Thread) (c : Nat) (st : ThreadState) : (t.enter c st).pc = t.pc := by simp only [Thread.enter]; split <;> rfl
@[simp] theorem enter_status (t : Thread) (c : Nat) (st : ThreadState) : (t.enter c st).status = t.status := by
  simp only [Thread.enter]; split <;> rfl
@[simp] theorem enter_st (t : Thread) (c : Nat) (st : ThreadState) : (t.enter c st).st = st := by simp only [Thread.enter]; split <;> rfl
@[simp] theorem enter_faBad (t : Thread) (c : Nat) (st : ThreadState) : (t.enter c st).faBad = t.faBad := by
  simp only [Thread.enter]; split <;> rfl
@[simp] theorem enter_faBad2 (t : Thread) (c : Nat) (st : ThreadState) : (t.enter c st).faBad2 = t.faBad2 := by
  simp only [Thread.enter]; split <;> rfl
@[simp] theorem enter_div (t : Thread) (c : Nat) (st : ThreadState) : (t.enter c st).div = t.div := by
  simp only [Thread.enter]; split <;> rfl
@[simp] theorem enter_outst (t : Thread) (c : Nat) (st : ThreadState) : (t.enter c st).outst = t.outst := by
  simp only [Thread.enter]; split <;> rfl
@[simp] theorem enter_stepping (t : Thread) (c : Nat) (st : ThreadState) : (t.enter c st).stepping = t.stepping := by
  simp only [Thread.enter]; split <;> rfl
@[simp] theorem enter_rd (t : Thread) (c : Nat) (st : ThreadState) (r : Reg) : (t.enter c st).rd r = t.rd r := by
  simp [Thread.rd]
@[simp] theorem enter_pendingOn (t : Thread) (c : Nat) (st : ThreadState) (d : Dest) :
    (t.enter c st).pendingOn d = t.pendingOn d := by simp [Thread.pendingOn]

@[simp] theorem noWait_rd (t : Thread) (r : Reg) : Thread.rd { t with wait := .none } r = t.rd r := rfl
@[simp] theorem noWait_pendingOn (t : Thread) (d : Dest) : Thread.pendingOn { t with wait := .none } d = t.pendingOn d := rfl

/-- The thread that takes a position is RUNNING, waits for nothing, and keeps its context. -/
theorem takePosition_thr (s : State) (k p t : Nat) :
    (s.takePosition k p t).thr (16 * k + t) = { (s.thr (16 * k + t)).enter s.cycle .running with wait := .none } := by
  simp only [State.takePosition]
  split <;> simp

theorem takePosition_thr_other (s : State) (k p t j : Nat) (h : j ≠ 16 * k + t) :
    (s.takePosition k p t).thr j = s.thr j := by
  simp only [State.takePosition]
  split <;> simp [State.updThr_thr, h]

/-- A position changes its engine and its thread only. -/
theorem takePosition_only (s : State) (k p t : Nat) : OnlyIn [.engines, .threads] s (s.takePosition k p t) := by
  intro q hq
  simp only [State.takePosition]
  split <;> (cases q <;> first | rfl | exact absurd (by simp) hq)

/-! ### An instruction that executes -/

/-- With a good word, no pending source and room for a request, below the end of the code space, the effect is taken. -/
theorem issue_ready (s : State) (id pos : Nat) (sh : Shape) (body : State → Act)
    (hf : (s.thr id).faBad = false ∧ (s.thr id).faBad2 = false)
    (hr : ∀ d ∈ sh.reads, (s.thr id).pendingOn d = false) (hl : sh.far = true → (s.thr id).outst.length < 8)
    (hp : sh.transfer = false → (s.thr id).pc ≠ 0xFFFC) : s.issue id pos sh body = s.perform id (body s) := by
  have hp' : sh.reads.any (s.thr id).pendingOn = false := by
    rw [List.any_eq_false]; intro d hd; simp [hr d hd]
  have hl' : (sh.far && decide (8 ≤ (s.thr id).outst.length)) = false := by
    cases hfar : sh.far with
    | false => rfl
    | true => have := hl hfar; simp; omega
  have he : ¬ ((s.thr id).pc = 0xFFFC ∧ sh.transfer = false) := fun h => hp h.2 h.1
  simp [State.issue, hf.1, hf.2, hp', hl']
  exact congrArg _ (if_neg he)

/-- R73, R76, R147: a thread that is ready executes the instruction of its beat. -/
theorem beat_ready (b : Beat) (sh : Shape) (body : Nat → State → Act) (s : State)
    (h : Ready b sh.reads sh.far s sh.transfer sh.divide) :
    beat b sh body s = (s.takePosition b.eng.val b.pos.val b.thr.val).perform b.id
      (body b.id (s.takePosition b.eng.val b.pos.val b.thr.val)) := by
  have ht := takePosition_thr s b.eng.val b.pos.val b.thr.val
  have htw : (s.takePosition b.eng.val b.pos.val b.thr.val).twin b.eng.val = false := by
    have := h.single
    simpa [State.twin, State.reg, (takePosition_only s b.eng.val b.pos.val b.thr.val).regs] using this
  have hb : (s.takePosition b.eng.val b.pos.val b.thr.val).boundary (16 * b.eng.val + b.thr.val) = .execute := h.boundary
  have hd : (((s.takePosition b.eng.val b.pos.val b.thr.val).thr (16 * b.eng.val + b.thr.val)).div.isSome && !sh.divide) = false := by
    cases hs : sh.divide with
    | true => simp
    | false => rw [ht]; simp [show (s.thr (16 * b.eng.val + b.thr.val)).div = none from h.undivided hs]
  simp only [beat, h.runs, h.single, h.position]
  simp only [hb, hd, State.pairDiff, htw, Bool.not_true, Bool.not_false, Bool.false_and, Bool.or_self, bne_self_eq_false,
    Bool.false_eq_true, if_false, if_true]
  apply issue_ready
  · rw [ht]; simpa [Beat.id] using h.fetched
  · intro d hd; rw [ht, noWait_pendingOn, enter_pendingOn]; exact h.sources d hd
  · intro hfar; rw [ht]; simpa [Beat.id] using h.room hfar
  · intro hs; rw [ht]; simpa [Beat.id] using h.space hs

/-! ### The successor -/

/-- Filling the fetch-ahead word where no code word holds an error, in an engine of no Twin pair. -/
theorem fill_clean (s : State) (id : Nat) (a : Word) (vec : Bool) (h : Clean s) (ht : s.twin (id / 16) = false) :
    ∃ v, s.fill id a vec =
      s.updThr id fun t =>
        { t with faAddr := a, faWord := v, faBad := false, faVec := vec, faWord2 := v, faBad2 := false } := by
  refine ⟨word (leNat (readBytes s.mem (engKey (id / 16) a.toNat) (cwBytes (memNum (engKey (id / 16) a.toNat))))), ?_⟩
  have hl : s.lead (id / 16) = id / 16 := by simp [State.lead, ht]
  simp only [State.fill, readCode_clean s _ _ _ h, hl, ht]
  rfl

/-- A halt at a step's end changes its thread and its engine, and keeps the context. -/
theorem halt_only (s : State) (id : Nat) : OnlyIn [.engines, .threads] s (s.halt id) := by
  intro q hq
  simp only [State.halt]
  split
  · cases q <;> rfl
  · cases q <;> first | rfl | exact absurd (by simp) hq

theorem halt_other (s : State) (id j : Nat) (h : j ≠ id) : (s.halt id).thr j = s.thr j := by
  simp only [State.halt, State.setSt, State.dropHolder]
  split <;> simp [State.updThr_thr, h]

theorem halt_context (s : State) (id : Nat) : ((s.halt id).thr id).w = (s.thr id).w ∧ ((s.halt id).thr id).pc = (s.thr id).pc
    ∧ ((s.halt id).thr id).status = (s.thr id).status := by
  simp only [State.halt, State.setSt, State.dropHolder]
  split <;> simp

/-- The end of an instruction keeps every context; it changes its thread and its engine only. -/
theorem done_only (s : State) (id : Nat) (pc : Word) : OnlyIn [.engines, .threads] s (s.done id pc) := by
  have h1 : OnlyIn [.engines, .threads] s (s.updThr id fun t => if t.bpSkip = some pc then { t with bpSkip := none } else t) :=
    (setThr_only s id _).mono (by simp)
  simp only [State.done, State.stepEnd]
  split
  · exact h1.trans (halt_only _ id)
  · exact h1

theorem done_other (s : State) (id j : Nat) (pc : Word) (h : j ≠ id) : (s.done id pc).thr j = s.thr j := by
  simp only [State.done, State.stepEnd]
  split
  · rw [halt_other _ _ _ h]; simp [State.updThr_thr, h]
  · simp [State.updThr_thr, h]

theorem done_context (s : State) (id : Nat) (pc : Word) : ((s.done id pc).thr id).w = (s.thr id).w
    ∧ ((s.done id pc).thr id).pc = (s.thr id).pc ∧ ((s.done id pc).thr id).status = (s.thr id).status := by
  have h : ∀ t : Thread, (if t.bpSkip = some pc then { t with bpSkip := none } else t).w = t.w
      ∧ (if t.bpSkip = some pc then { t with bpSkip := none } else t).pc = t.pc
      ∧ (if t.bpSkip = some pc then { t with bpSkip := none } else t).status = t.status := by
    intro t; split <;> exact ⟨rfl, rfl, rfl⟩
  simp only [State.done, State.stepEnd]
  split
  · have := halt_context (s.updThr id fun t => if t.bpSkip = some pc then { t with bpSkip := none } else t) id
    simp only [State.updThr_thr_same] at this
    exact ⟨this.1.trans (h _).1, this.2.1.trans (h _).2.1, this.2.2.trans (h _).2.2⟩
  · simpa using h (s.thr id)

/-- R118: an instruction of a thread of no Twin pair that goes on: its thread has the context that the effect left and
the address of the following word; no other thread, no memory and no unit changes any more. -/
theorem perform_next (s u : State) (id : Nat) (h : Clean u) (ht : u.twin (id / 16) = false) :
    let t := s.perform id (.next u)
    (t.thr id).w = (u.thr id).w ∧ (t.thr id).status = (u.thr id).status ∧ (t.thr id).pc = pcOf ((s.thr id).pc + 4)
      ∧ (∀ j, j ≠ id → t.thr j = u.thr j) ∧ OnlyIn [.engines, .threads] u t := by
  intro t
  obtain ⟨v, hv⟩ := fill_clean (u.updThr id fun t => { t with pc := pcOf ((s.thr id).pc + 4) }) id
    (pcOf ((s.thr id).pc + 4)) false h ht
  have e : t = ((u.updThr id fun t => { t with pc := pcOf ((s.thr id).pc + 4) }).updThr id fun t =>
      { t with faAddr := pcOf ((s.thr id).pc + 4), faWord := v, faBad := false, faVec := false, faWord2 := v, faBad2 := false }).done id
        (s.thr id).pc := by
    simp only [t, State.perform, State.goTo, hv]
  rw [e]
  obtain ⟨c1, c2, c3⟩ := done_context ((u.updThr id fun t => { t with pc := pcOf ((s.thr id).pc + 4) }).updThr id fun t =>
      { t with faAddr := pcOf ((s.thr id).pc + 4), faWord := v, faBad := false, faVec := false, faWord2 := v, faBad2 := false }) id
        (s.thr id).pc
  refine ⟨?_, ?_, ?_, ?_, ?_⟩
  · rw [c1]; simp
  · rw [c3]; simp
  · rw [c2]; simp
  · intro j hj; rw [done_other _ _ _ _ hj]; simp [State.updThr_thr, hj]
  · exact (((setThr_only u id _).mono (by simp)).trans ((setThr_only _ id _).mono (by simp))).trans (done_only _ id _)

end Sys2Proof
end

