-- ==== Sys2Proof/Laws/Bits.lean ====
section
/-! SUPPORT. The laws of fields and bits of words. -/

namespace Sys2Proof.Machine

/-- A number cut at `lo` and `lo + n`. -/
theorem cut (w lo n : Nat) : w = 2 ^ (lo + n) * (w / 2 ^ (lo + n)) + (2 ^ lo * (w / 2 ^ lo % 2 ^ n) + w % 2 ^ lo) := by
  have h1 := (Nat.div_add_mod w (2 ^ lo)).symm
  have h2 := (Nat.div_add_mod (w / 2 ^ lo) (2 ^ n)).symm
  have h3 : w / 2 ^ lo / 2 ^ n = w / 2 ^ (lo + n) := by rw [Nat.pow_add, Nat.div_div_eq_div_mul]
  rw [h3] at h2
  calc w = 2 ^ lo * (w / 2 ^ lo) + w % 2 ^ lo := h1
    _ = 2 ^ lo * (2 ^ n * (w / 2 ^ (lo + n)) + w / 2 ^ lo % 2 ^ n) + w % 2 ^ lo := by rw [← h2]
    _ = _ := by rw [Nat.mul_add, Nat.pow_add, Nat.mul_assoc]; omega

theorem cut_lt (lo n f l : Nat) (hf : f < 2 ^ n) (hl : l < 2 ^ lo) : 2 ^ lo * f + l < 2 ^ (lo + n) := by
  have : 2 ^ lo * f + 2 ^ lo ≤ 2 ^ lo * 2 ^ n := by
    rw [← Nat.mul_succ]; exact Nat.mul_le_mul_left _ hf
  rw [Nat.pow_add]; omega

theorem fld_eq (w : Word) (lo n : Nat) : fld w lo n = w.toNat / 2 ^ lo % 2 ^ n := by
  simp [fld, Nat.shiftRight_eq_div_pow]

theorem fld_lt (w : Word) (lo n : Nat) : fld w lo n < 2 ^ n := Nat.mod_lt _ (Nat.two_pow_pos n)

/-- What the bits of a changed field are: the new value's inside the field, the old word's outside. -/
theorem testBit_setFld (w : Word) (lo n v i : Nat) (hi : i < 32) :
    bit (setFld w lo n v) i = if lo ≤ i ∧ i < lo + n then v.testBit (i - lo) else bit w i := by
  have hc := cut w.toNat lo n
  have hl : w.toNat % 2 ^ lo < 2 ^ lo := Nat.mod_lt _ (Nat.two_pow_pos lo)
  have hv : v % 2 ^ n < 2 ^ n := Nat.mod_lt _ (Nat.two_pow_pos n)
  have hf := fld_lt w lo n
  rw [← fld_eq] at hc
  generalize hH : w.toNat / 2 ^ (lo + n) = H at hc
  generalize hL : w.toNat % 2 ^ lo = L at hc hl
  have e1 : w.toNat - fld w lo n * 2 ^ lo + v % 2 ^ n * 2 ^ lo
      = 2 ^ (lo + n) * H + (2 ^ lo * (v % 2 ^ n) + L) := by
    rw [Nat.mul_comm (fld w lo n), Nat.mul_comm (v % 2 ^ n)]; omega
  have low (f : Nat) (hf : f < 2 ^ n) : (2 ^ (lo + n) * H + (2 ^ lo * f + L)).testBit i =
      if i < lo + n then (if i < lo then L.testBit i else f.testBit (i - lo)) else H.testBit (i - (lo + n)) := by
    rw [Nat.testBit_two_pow_mul_add H (cut_lt lo n f L hf hl)]
    split
    · rw [Nat.testBit_two_pow_mul_add f hl]
    · rfl
  have hb : bit w i = w.toNat.testBit i := by simp [bit, BitVec.getLsbD]
  have hs : bit (setFld w lo n v) i = (w.toNat - fld w lo n * 2 ^ lo + v % 2 ^ n * 2 ^ lo).testBit i := by
    simp only [bit, setFld, BitVec.getLsbD_ofNat, hi, decide_true, Bool.true_and]
  rw [hb, hs, e1, low _ hv, hc, low _ hf]
  by_cases h1 : i < lo + n
  · by_cases h2 : i < lo
    · rw [if_pos h1, if_pos h2, if_neg (by omega), if_pos h1, if_pos h2]
    · rw [if_pos h1, if_neg h2, if_pos (by omega), Nat.testBit_mod_two_pow]
      have : i - lo < n := by omega
      simp [this]
  · rw [if_neg h1, if_neg (by omega), if_neg h1]

/-- The bit that `setBit` names takes its value; the others stay. -/
theorem bit_setBit (w : Word) (k i : Nat) (b : Bool) (hk : k < 32) (hi : i < 32) :
    bit (setBit w k b) i = if i = k then b else bit w i := by
  simp only [setBit]
  rw [testBit_setFld w k 1 _ i hi]
  by_cases h : i = k
  · subst h; cases b <;> simp
  · rw [if_neg (by omega), if_neg h]

/-- A changed field reads back. -/
theorem fld_setFld (w : Word) (lo n v : Nat) (h : lo + n ≤ 32) : fld (setFld w lo n v) lo n = v % 2 ^ n := by
  apply Nat.eq_of_testBit_eq
  intro i
  rw [fld_eq, Nat.testBit_mod_two_pow, Nat.testBit_mod_two_pow]
  by_cases hi : i < n
  · have hb := testBit_setFld w lo n v (lo + i) (by omega)
    rw [if_pos (by omega)] at hb
    have e : lo + i - lo = i := by omega
    rw [e] at hb
    simp only [hi, decide_true, Bool.true_and, Nat.testBit_div_two_pow]
    rw [Nat.add_comm i lo, ← hb]
    simp [bit, BitVec.getLsbD]
  · simp [hi]

/-- A field is what its bits say. -/
theorem testBit_fld (w : Word) (lo n i : Nat) : (fld w lo n).testBit i = (decide (i < n) && bit w (lo + i)) := by
  rw [fld_eq, Nat.testBit_mod_two_pow, Nat.testBit_div_two_pow]
  simp [bit, BitVec.getLsbD, Nat.add_comm]

/-- A field outside the changed one stays. -/
theorem fld_setFld_other (w : Word) (lo n v lo' n' : Nat) (h' : lo' + n' ≤ 32)
    (d : lo' + n' ≤ lo ∨ lo + n ≤ lo') : fld (setFld w lo n v) lo' n' = fld w lo' n' := by
  apply Nat.eq_of_testBit_eq
  intro i
  rw [testBit_fld, testBit_fld]
  by_cases hi : i < n'
  · rw [testBit_setFld w lo n v (lo' + i) (by omega), if_neg (by omega)]
  · simp [hi]

end Sys2Proof.Machine
end

