-- ==== Sys2Proof/Laws/Writes.lean ====
section
/-! SUPPORT. What a register access does: the law of a write that lands, of a read that is answered, and of the common
field rules. -/

namespace Sys2Proof

open Machine

/-- The windows of registers hold no image and no Ward table address. -/
theorem inRegs_not_memory (a : Nat) (h : inRegs a = true) : inImage a = false ∧ inWard a = false := by
  simp [inRegs, inImage, inWard] at *; omega

/-- Nothing asks for a reset and no entry is in progress: an access sets nothing off. -/
theorem settle_settled (s : State) (h : Settled s) : s.settle = s := by
  simp [State.settle, State.tryDoze, h.1, h.2]

/-- R42: a write that lands takes the field rules and its action, or the slow crossing (R28). -/
theorem busWrite_lands (id : Id) (a : Nat) (v : Word) (s : State) (h : Lands id a v s) :
    s.busWrite id.toNat a v = (s.regWrite id.toNat a v, .val 0) := by
  obtain ⟨hi, hw⟩ := inRegs_not_memory a h.window
  simp [State.busWrite, hi, hw, h.window, h.island, h.may]

/-- No stamp is on its way: nothing is settled before a pad access. -/
theorem settlePads_still (s : State) (h : Still s) : s.settlePads = s := by
  have hs (p : Nat) : s.settlePad p = s := by simp [State.settlePad, h p]
  simp only [State.settlePads]
  generalize s.pads.map (·.1) = l
  induction l with
  | nil => rfl
  | cons p l ih => rw [List.foldl_cons, hs p, ih]

/-- Nothing of the master's own is on the way: its access is the first to reach the island. -/
theorem masterTurn_alone (s : State) (id a : Nat) (h : Unsent id s) : s.masterTurn id a = s := by
  simp only [State.masterTurn]
  split
  · rename_i hi
    obtain ⟨hf, hn, hp⟩ := h hi
    have e1 : s.landNotes id = s := by
      have : s.hinge.notes.filter (fun n => n.id == id) = [] := by
        rw [List.filter_eq_nil_iff]; intro n hm; simpa using hn n hm
      simp [State.landNotes, this]
    have e2 : s.flushFar (id / 16) = s := by simp [State.flushFar, hf]
    rw [e1, e2]
    simp only [State.inTurn, State.padCatch]
    split
    · have hx : ((s.eng (id / 16)).padReqs.any fun r => r.thr == id) = false := by
        rw [List.any_eq_false]; intro r hm; simpa using hp r hm
      generalize hl : (s.eng (id / 16)).padReqs = l
      have : ∀ l : List PadReq, l.foldl (fun s _ =>
          if (s.eng (id / 16)).padReqs.any fun r => r.thr == id then s.padLand (id / 16) else s) s = s := by
        intro l
        induction l with
        | nil => rfl
        | cons r l ih => rw [List.foldl_cons, if_neg (by simp [hx]), ih]
      exact this l
    · rfl
  · rfl

theorem writeCmd_lands (id : Id) (a : Nat) (v : Word) (s : State) (h : Lands id a v s) :
    writeCmd id a v s = .next (s.regWrite id.toNat a v).settle := by
  simp [writeCmd, State.masterWrite, h.runs, h.issues, masterTurn_alone s _ a h.alone, busWrite_lands id a v s h]

/-- A write that lands and asks for no reset: the state after the field rules and the action. -/
theorem writeCmd_settled (id : Id) (a : Nat) (v : Word) (s : State) (h : Lands id a v s)
    (hs : Settled (s.regWrite id.toNat a v)) : writeCmd id a v s = .next (s.regWrite id.toNat a v) := by
  rw [writeCmd_lands id a v s h, settle_settled _ hs]

/-- A write of the fabric's own that reaches its register first in its cycle acts as it stands (R42). -/
theorem regWrite_own (s : State) (id a : Nat) (v : Word) (h : s.writeHeld a = false) (ha : a ∉ aonRegs)
    (hs : PadWindow a → Still s) (hf : Fresh s) : s.regWrite id a v = (s.noteWrites id [a]).writeActs id a v := by
  have ho : s.outranked id a = false := by simp [State.outranked, hf.nothing.1]
  have ht : s.sameNow.tasked = false := by rw [hf]
  by_cases hw : a / 0x10000 = 0x5002
  · simp [State.regWrite, State.landsAfter, h, isAon, ha, settlePads_still s (hs hw), ho, ht]
  · simp [State.regWrite, State.landsAfter, h, isAon, ha, ho, ht, hw]

/-- R28: a write to the always-on island joins its crossing. -/
theorem regWrite_aon (s : State) (id a : Nat) (v : Word) (h : s.writeHeld a = false) (ha : a ∈ aonRegs) :
    s.regWrite id a v = { s with sys := { s.sys with aon := s.sys.aon ++ [⟨a, v, if id < 256 then some id else none⟩] } } := by
  simp [State.regWrite, h, isAon, ha]

/-- R13, R14: what the common field rules make of each bit. -/
theorem bit_plainWrite (r : RegRow) (old v : Word) (i : Nat) (hi : i < 32) (hr : r.rw < 2 ^ 32) : bit (plainWrite r old v) i =
    if r.rw.testBit i then bit v i else bit old i && !(r.w1c.testBit i && bit v i) := by
  have sub (x : Nat) (hx : x < 2 ^ 32) : (0xFFFFFFFF - x).testBit i = !x.testBit i := by
    have h := Nat.testBit_two_pow_sub_succ hx i
    have e : (2 : Nat) ^ 32 - (x + 1) = 0xFFFFFFFF - x := by omega
    rw [e] at h; simp [h, hi]
  have hv : (r.w1c &&& v.toNat) < 2 ^ 32 := Nat.lt_of_le_of_lt Nat.and_le_right v.isLt
  have hb (w : Word) : bit w i = w.toNat.testBit i := by simp [bit, BitVec.getLsbD]
  have e : bit (plainWrite r old v) i =
      ((old.toNat &&& (0xFFFFFFFF - r.rw) &&& (0xFFFFFFFF - (r.w1c &&& v.toNat))) ||| (v.toNat &&& r.rw)).testBit i := by
    simp only [bit, plainWrite, word, BitVec.getLsbD_ofNat, hi, decide_true, Bool.true_and]
  rw [e, hb v, hb old]
  simp only [Nat.testBit_or, Nat.testBit_and, sub _ hv]
  rw [sub _ hr]
  cases r.rw.testBit i <;> cases old.toNat.testBit i <;> cases r.w1c.testBit i <;> cases v.toNat.testBit i <;> rfl

/-- The masks of every register fit a word. -/
theorem regRows_rw : regRows.all (fun r => decide (r.rw < 2 ^ 32)) = true := by decide +kernel

theorem regRow_rw (a : Nat) (r : RegRow) (h : regRow a = some r) : r.rw < 2 ^ 32 := by
  simp only [regRow] at h
  split at h
  · cases h; show (51199 : Nat) < 2 ^ 32; decide
  · have hm := List.mem_of_find?_eq_some h
    simpa using (List.all_eq_true.1 regRows_rw) r hm

/-- A read that is answered stores nothing and answers the register's value (R24). -/
theorem readCmd_answers (id : Id) (a : Nat) (s : State) (h : Answers id a s) :
    readCmd id a s = .next { (s.regRead id.toNat a).1 with reply := (s.regRead id.toNat a).2 } := by
  obtain ⟨hr, ho, _, hl, hw, hg⟩ := h
  obtain ⟨hi, hwd⟩ := inRegs_not_memory a hw
  simp [readCmd, State.masterRead, hr, ho, masterTurn_alone s _ a hl, State.busRead, hi, hwd, hw, hg]

end Sys2Proof
end

