-- ==== Sys2Proof/Tests/Slice0.lean ====
section
/-! SUPPORT. The model's own tests: an ill-formed term for each check of WellFormed, single commands with results worked
out by hand from the rules, and for each statement of Certificates/Slice0/Obligations.lean one state (or one per clause)
that meets its hypotheses. -/

namespace Sys2Proof.Tests

/-! Each proof is checked before the next begins, which bounds the memory that this file takes. -/
set_option Elab.async false

open Machine

/-! ### WellFormed refuses -/

/-- A frame of type `ty` with the given payload. -/
def frame (ty dst src : Nat) (pl : List Byte) : Frame :=
  ⟨BitVec.ofNat 8 dst, BitVec.ofNat 8 src, BitVec.ofNat 4 ty, false, false, false, false, 9, 3, true, pl⟩

/-- The header of a request of the chain. -/
def request (ix sub : Nat) (segno : Nat := 0) : DictHeader :=
  ⟨.chain, 9, false, 0x33, BitVec.ofNat 16 ix, BitVec.ofNat 8 sub, BitVec.ofNat 16 segno, false⟩

theorem test_wf_identity : (Instr.bclrall 291).wf = false := by decide +kernel
theorem test_wf_frame : (Instr.dqFrame .a (frame 1 5 3 (List.replicate 1025 0))).wf = false := by decide +kernel
theorem test_wf_port_seq : (Instr.dictRead { request 0x2000 1 with src := .lrp }).wf = false := by decide +kernel
theorem test_wf_image_word : (Instr.lreqAcquire 5 98304).wf = false := by decide +kernel
theorem test_wf_port_alignment : (Instr.lrpReqWrite 2 0).wf = false := by decide +kernel
theorem test_wf_alignment : (Instr.registerWrite 5 0x50010002 0).wf = false := by decide +kernel
theorem test_wf_data : (Instr.dictWrite (request 0x2000 1) (List.replicate 1017 0)).wf = false := by decide +kernel

/-! ### Predicates that a computation decides -/

/-- Every clause of `Ready`, as a computation. -/
def readyB (b : Beat) (reads : List Dest) (far : Bool) (s : State) (transfers divides : Bool := false) : Bool :=
  s.engRuns b.eng.val && !s.twin b.eng.val && (s.atPosition b.eng.val b.pos.val == some b.thr.val)
    && (match (s.takePosition b.eng.val b.pos.val b.thr.val).boundary b.id with | .execute => true | _ => false)
    && (divides || (s.thr b.id).div.isNone) && !(s.thr b.id).faBad && !(s.thr b.id).faBad2
    && (reads.all fun d => !(s.thr b.id).pendingOn d)
    && (!far || decide ((s.thr b.id).outst.length < 8)) && (transfers || decide ((s.thr b.id).pc ≠ 0xFFFC))

theorem ready_of {b : Beat} {reads : List Dest} {far : Bool} {s : State} {transfers divides : Bool}
    (h : readyB b reads far s transfers divides = true) : Ready b reads far s transfers divides := by
  simp only [readyB, Bool.and_eq_true, Bool.not_eq_true', beq_iff_eq, decide_eq_true_eq, List.all_eq_true,
    Bool.or_eq_true, Option.isNone_iff_eq_none] at h
  obtain ⟨⟨⟨⟨⟨⟨⟨⟨⟨h1, h2⟩, h3⟩, h4⟩, h5⟩, h6⟩, h7⟩, h8⟩, h9⟩, h10⟩ := h
  refine ⟨h1, h2, h3, ?_, fun hd => h5.resolve_left (by simp [hd]), ⟨h6, h7⟩, h8,
    fun hf => h9.resolve_left (by simp [hf]), fun ht => h10.resolve_left (by simp [ht])⟩
  cases hb : (s.takePosition b.eng.val b.pos.val b.thr.val).boundary b.id with
  | execute => rfl
  | _ => rw [hb] at h4; exact absurd h4 (by simp)

theorem still_of {s : State} (h : (s.pads.all fun x => x.2.entering.isEmpty) = true) : Still s := by
  intro p
  simp only [State.pad, tabGet]
  cases hf : tabFind s.pads p with
  | none => rfl
  | some x => simpa using List.all_eq_true.mp h _ (mem_of_tabFind _ _ _ hf)

/-- The clauses that `Unsent` asks of a thread's identity. -/
def unsentB (id : Nat) (s : State) : Bool :=
  decide (256 ≤ id) || ((s.eng (id / 16)).farMerge.isNone && (s.hinge.notes.all fun n => n.id != id)
    && ((s.eng (id / 16)).padReqs.all fun r => r.thr != id))

theorem unsent_of {id : Nat} {s : State} (h : unsentB id s = true) : Unsent id s := by
  intro hi
  simp only [unsentB, Bool.or_eq_true, Bool.and_eq_true, List.all_eq_true, decide_eq_true_eq, bne_iff_ne,
    Option.isNone_iff_eq_none] at h
  obtain ⟨⟨h1, h2⟩, h3⟩ := h.resolve_left (by omega)
  exact ⟨h1, h2, h3⟩

def reachesB (id : Id) (a : Nat) (v : Word) (s : State) : Bool :=
  s.running && !s.oddTwin id.toNat && (s.pads.all fun x => x.2.entering.isEmpty) && unsentB id.toNat s && !s.sys.resetReq
    && decide (s.sys.entry = none) && inRegs a && mayWrite id.toNat a v && !s.gated a && !s.writeHeld a

theorem reaches_of {id : Id} {a : Nat} {v : Word} {s : State} (h : reachesB id a v s = true) : Reaches id a v s := by
  simp only [reachesB, Bool.and_eq_true, Bool.not_eq_true', decide_eq_true_eq] at h
  obtain ⟨⟨⟨⟨⟨⟨⟨⟨⟨h1, h2⟩, h3⟩, h0⟩, h4⟩, h5⟩, h6⟩, h7⟩, h8⟩, h9⟩ := h
  exact ⟨h1, h2, fun _ => still_of h3, unsent_of h0, ⟨h4, h5⟩, h6, h7, h8, h9⟩

theorem lands_of {id : Id} {a : Nat} {v : Word} {s : State}
    (h : (reachesB id a v s && decide (s.sameNow = { cyc := s.cycle })) = true) : Lands id a v s := by
  simp only [Bool.and_eq_true, decide_eq_true_eq] at h
  exact ⟨reaches_of h.1, by rw [Fresh, h.2], fun _ => by rw [h.2]; exact ⟨rfl, rfl⟩⟩

def answersB (id : Id) (a : Nat) (s : State) : Bool :=
  s.running && !s.oddTwin id.toNat && (s.pads.all fun x => x.2.entering.isEmpty) && unsentB id.toNat s && inRegs a
    && !s.gated a

theorem answers_of {id : Id} {a : Nat} {s : State} (h : answersB id a s = true) : Answers id a s := by
  simp only [answersB, Bool.and_eq_true, Bool.not_eq_true'] at h
  obtain ⟨⟨⟨⟨⟨h1, h2⟩, h3⟩, h4⟩, h5⟩, h6⟩ := h
  exact ⟨h1, h2, fun _ => still_of h3, unsent_of h4, h5, h6⟩

def askedB (r : DictHeader) (s : State) : Bool :=
  s.running && decide (s.sys.mode ≠ .recall) && decide (s.sys.straps.dictsrc ≠ 1) && s.agent.fw.isNone
    && s.agent.kprReq.isNone && decide (r.src = .chain) && !r.bcast && decide (s.agent.queue = []) && !s.lrp.busy
    && decide (s.lrp.ahead = 0) && decide (s.sameNow = { cyc := s.cycle }) && (s.pads.all fun x => x.2.entering.isEmpty)

theorem asked_of {r : DictHeader} {s : State} (h : askedB r s = true) : Asked r s := by
  simp only [askedB, Bool.and_eq_true, Bool.not_eq_true', decide_eq_true_eq, Option.isNone_iff_eq_none] at h
  obtain ⟨⟨⟨⟨⟨⟨⟨⟨⟨⟨⟨h1, h2⟩, h3⟩, h4⟩, h5⟩, h6⟩, h7⟩, h8⟩, h9⟩, h10⟩, h11⟩, h12⟩ := h
  exact ⟨h1, h2, h3, h4, h5, h6, h7, ⟨h8, h9, h10⟩, by rw [Fresh, h11], still_of h12⟩

theorem clean_of {s : State}
    (h : (decide (s.ecc.bad = []) && !bit (s.reg aEccInj) 31 && decide (s.sameNow.writes = [])) = true) : Clean s := by
  simpa [Clean, and_assoc] using h

/-! ### States -/

/-- Preparation, 800 cycles after the reset, with registers set. -/
def prep (regs : Tab Word := []) : State :=
  { State.reset with cycle := 1000, tb := 0x320000000000, regs := regs, sys := { mode := .preparation } }

/-- Engine 0 on; position 0 of its wheel belongs to thread 1, a timed thread. -/
def withThread (t : Thread) (regs : Tab Word := []) : State :=
  { prep ((0x500F1020, 0x41) :: regs) with engines := [(0, { power := .on })], threads := [(1, t)] }

def thread : Thread := { st := .ready, pc := 0x100, w := [(1, 7), (2, 0xFFFFFFFF), (3, 0x80000000)] }

/-- The beat of that thread. -/
def beat1 : Beat := ⟨0, 1, 0, 0⟩

/-- Thread 1 with `a` in w1. -/
def pointing (a : Word) : State := withThread { thread with w := [(1, a)] }

/-! ### Single commands (chapter 4) -/

/-- A field of the state after a command. -/
def result {α : Type} (c : Instr) (s : State) (f : State → α) : Option α :=
  match exec c s with
  | .next t => some (f t)
  | _ => none

/-- 7 + 0xFFFFFFFF wraps to 6 and carries (R109). -/
theorem test_add_wraps : result (.add beat1 4 1 (.reg 2)) (withThread thread)
    (fun t => ((t.thr 1).rd 4, (t.thr 1).status)) = some (6, 0x20000000) := by decide +kernel

/-- 7 − 7 is zero, without borrow (R109). -/
theorem test_sub_same : result (.sub beat1 1 1 (.reg 1)) (withThread thread)
    (fun t => ((t.thr 1).rd 1, (t.thr 1).status)) = some (0, 0x60000000) := by decide +kernel

/-- 0x80000000 − 1 overflows (R109). -/
theorem test_cmp_overflow : result (.cmp beat1 3 (.imm 1)) (withThread thread) (fun t => (t.thr 1).status)
    = some 0x30000000 := by decide +kernel

/-- A right shift by 1 puts bit 0 into C (R109). -/
theorem test_shr_carry : result (.shr beat1 4 1 (.imm 1)) (withThread thread)
    (fun t => ((t.thr 1).rd 4, (t.thr 1).status)) = some (3, 0x20000000) := by decide +kernel

/-- Table 4.6: −2^31 divided by −1. -/
theorem test_div_corner : result (.divOp beat1 4 3 2 .whole) (withThread thread)
    (fun t => ((t.thr 1).rd 4, (t.thr 1).status)) = some (0x80000000, 0x90000000) := by decide +kernel

/-- Table 4.6: the remainder by 0 is the dividend. -/
theorem test_rem_zero : result (.remu beat1 4 1 5 .whole) (withThread thread) (fun t => (t.thr 1).rd 4) = some 7 := by
  decide +kernel

/-- MOVH keeps the low half (R108). -/
theorem test_movh_low : result (.movh beat1 1 0x1234) (withThread thread) (fun t => (t.thr 1).rd 1) = some 0x12340007 := by
  decide +kernel

/-- A halfword load sign-extends (R114). -/
theorem test_ldh_sign : result (.ldh beat1 4 1 0)
    { pointing 0x10002 with mem := writeWord [] (engKey 0 0x10000) 0x80010000 } (fun t => (t.thr 1).rd 4)
    = some 0xFFFF8001 := by decide +kernel

/-- B.EQ with Z clear falls through (R121). -/
theorem test_branch_not_taken : result (.bCond beat1 0 0x10) (withThread thread) (fun t => (t.thr 1).pc) = some 0x104 := by
  decide +kernel

/-- BL writes the return address to w15 and goes 4 × the offset on (R121). -/
theorem test_call : result (.bl beat1 0x10) (withThread thread) (fun t => ((t.thr 1).pc, (t.thr 1).rd 15))
    = some (0x140, 0x104) := by decide +kernel

/-- LOCK of a free address takes it with code 0 (R192). -/
theorem test_lock_free : result (.lock beat1 4 1 0) (pointing 0x40000010) (fun t => tabFind t.tum.locks 0x40000010)
    = some (some (.held 1)) := by decide +kernel

/-- A step on an empty queue passes one cycle: 256 units of TIME64 (R229). -/
theorem test_idle_step : (match step (prep) with | .next t => some (t.cycle, t.now) | _ => none)
    = some (1001, (prep).now + 256) := by decide +kernel

/-- A 1 written to a W1C bit clears it, a 0 leaves the other one (R13). -/
theorem test_write_w1c : result (.registerWrite 5 0x500F0020 1) (prep [(0x500F0020, 3)]) (fun t => t.reg 0x500F0020)
    = some 2 := by decide +kernel

/-! ### The hypotheses of the statements are met -/

/-- Hypotheses of AddSub, Logic and Compare, for both operand forms. -/
theorem witness_AddSub :
    (Clean (withThread thread) ∧ Ready beat1 (.reg 1 :: opReads (.reg 2)) false (withThread thread))
    ∧ (Clean (withThread thread) ∧ Ready beat1 (.reg 1 :: opReads (.imm 0x3FFF)) false (withThread thread)) := by
  repeat' apply And.intro
  all_goals first | decide +kernel | exact ready_of (by decide +kernel)

/-- Hypotheses of Shifts, for both forms of the amount. -/
theorem witness_Shifts :
    (Clean (withThread thread) ∧ Ready beat1 (.reg 1 :: shiftReads (.reg 2)) false (withThread thread) ∧ shiftAmt thread (.reg 2) = 31)
    ∧ (Ready beat1 (.reg 1 :: shiftReads (.imm 0)) false (withThread thread)) := by
  repeat' apply And.intro
  all_goals first | decide +kernel | exact ready_of (by decide +kernel)

/-- Hypotheses of Moves. -/
theorem witness_Moves :
    (Clean (withThread thread) ∧ Ready beat1 (movReads (.reg 2)) false (withThread thread) ∧ Ready beat1 (movReads (.imm 0x3FFFF)) false (withThread thread))
    ∧ (Ready beat1 [.reg 1] false (withThread thread)) := by
  repeat' apply And.intro
  all_goals first | decide +kernel | exact ready_of (by decide +kernel)

/-- Hypotheses of Multiply. -/
theorem witness_Multiply :
    (Clean (withThread thread) ∧ Ready beat1 [.reg 1, .reg 2] false (withThread thread)) := by
  repeat' apply And.intro
  all_goals first | decide +kernel | exact ready_of (by decide +kernel)

/-- DIVM is 1 and an event waits at the interrupt input 3; a divide is in progress or not. -/
def dividing (d : Option (Word × Word)) : State :=
  { withThread { thread with w := [(14, 0x10020)], div := d } [(aThcfg 0 1, 0x4008)] with hinge := { inputs := [(7, ⟨77, 5, false, false⟩)] } }

/-- Hypotheses of Divide: a zero divisor, the wrapping quotient, and neither; a divide in progress; an event that makes no
interrupt due, and an interrupt that abandons the divide. -/
theorem witness_Divide :
    (Clean (withThread thread) ∧ Ready beat1 [.reg 1, .reg 5] false (withThread thread) (divides := true)
      ∧ ((withThread thread).thr beat1.id).div = none ∧ (((withThread thread).thr beat1.id).rd 5) = 0)
    ∧ (Ready beat1 [.reg 3, .reg 2] false (withThread thread) (divides := true)
      ∧ ((withThread thread).thr beat1.id).rd 3 = 0x80000000 ∧ ((withThread thread).thr beat1.id).rd 2 = 0xFFFFFFFF)
    ∧ (Ready beat1 [.reg 3, .reg 1] false (withThread thread) (divides := true) ∧ ((withThread thread).thr beat1.id).rd 1 ≠ 0
      ∧ ¬ (((withThread thread).thr beat1.id).rd 3 = 0x80000000 ∧ ((withThread thread).thr beat1.id).rd 1 = 0xFFFFFFFF))
    ∧ (Clean (dividing (some (7, 2))) ∧ Ready beat1 [.reg 1, .reg 5] false (dividing (some (7, 2))) (divides := true)
      ∧ ((dividing (some (7, 2))).thr beat1.id).div = some (7, 2) ∧ (dividing (some (7, 2))).ien beat1.id 2 = false
      ∧ (DivCut.event 2 ≠ .part ∧ DivCut.whole ≠ .part))
    ∧ (Ready beat1 [.reg 1, .reg 5] false (dividing none) (divides := true) ∧ bit ((dividing none).reg (aThcfg 0 1)) 14 = true
      ∧ (dividing none).ien beat1.id 3 = true ∧ mergeForm (dividing none) = true ∧ ((dividing none).thr beat1.id).stepping = false
      ∧ ((dividing none).thr beat1.id).inInt = false ∧ ((dividing none).thr beat1.id).inTrap = false
      ∧ (dividing none).frameFits beat1.id = true ∧ Clean (dividing none)
      ∧ tabFind (dividing none).hinge.inputs (4 * beat1.id + 3) = some ⟨77, 5, false, false⟩
      ∧ tabFind ((dividing none).thr beat1.id).ev 3 = none ∧ (dividing none).hinge.notes = [] ∧ ((dividing none).eng 0).twinStop = false) := by
  repeat' apply And.intro
  all_goals first | decide +kernel | exact ready_of (by decide +kernel)

/-- Hypotheses of LocalLoads at the last word, halfword and byte of the SRAM, misaligned and behind it. -/
theorem witness_LocalLoads :
    (Clean (pointing 0x13FFC) ∧ Ready beat1 [.reg 1] false (pointing 0x13FFC) ∧ (((pointing 0x13FFC).thr beat1.id).rd 1 + (0 : BitVec 18).signExtend 32).toNat = 0x13FFC
      ∧ 0x13FFC < 0x14000 ∧ 0x13FFC % 4 = 0)
    ∧ (Ready beat1 [.reg 1] false (pointing 0x14000) ∧ (((pointing 0x14000).thr beat1.id).rd 1 + (-2 : BitVec 18).signExtend 32).toNat = 0x13FFE ∧ 0x13FFE % 2 = 0)
    ∧ ((((pointing 0x14000).thr beat1.id).rd 1 + (-1 : BitVec 18).signExtend 32).toNat = 0x13FFF)
    ∧ (((pointing 0x14000).thr beat1.id).stepping = false ∧ 0x14000 % 4 = 0 ∧ 0x14000 % 2 = 0
      ∧ (((pointing 0x14000).thr beat1.id).rd 1 + (-2 : BitVec 18).signExtend 32).toNat % 4 ≠ 0
      ∧ (((pointing 0x14000).thr beat1.id).rd 1 + (-1 : BitVec 18).signExtend 32).toNat % 2 ≠ 0) := by
  repeat' apply And.intro
  all_goals first | decide +kernel | exact ready_of (by decide +kernel)

/-- Hypotheses of LocalStores at the first word and the last byte of data SRAM, behind it, and at the last byte of code. -/
theorem witness_LocalStores :
    (Clean (pointing 0x10000) ∧ mergeForm (pointing 0x10000) = true ∧ Ready beat1 [.reg 1, .reg 2] false (pointing 0x10000)
      ∧ (((pointing 0x10000).thr beat1.id).rd 1 + (0 : BitVec 18).signExtend 32).toNat = 0x10000 ∧ 0x10000 % 4 = 0)
    ∧ (Clean (pointing 0x14000) ∧ mergeForm (pointing 0x14000) = true ∧ Ready beat1 [.reg 1, .reg 2] false (pointing 0x14000)
      ∧ (((pointing 0x14000).thr beat1.id).rd 1 + (-1 : BitVec 18).signExtend 32).toNat = 0x13FFF)
    ∧ (((pointing 0x14000).thr beat1.id).stepping = false ∧ (((pointing 0x14000).thr beat1.id).rd 1).toNat = 0x14000)
    ∧ (Ready beat1 [.reg 1, .reg 2] false (pointing 0xFFFF) ∧ ((pointing 0xFFFF).thr beat1.id).stepping = false
      ∧ (((pointing 0xFFFF).thr beat1.id).rd 1).toNat = 0xFFFF ∧ 0xFFFF < 0x10000 ∧ 0xFFFF % 2 ≠ 0 ∧ 0xFFFF % 4 ≠ 0) := by
  repeat' apply And.intro
  all_goals first | decide +kernel | exact ready_of (by decide +kernel)

/-- Thread 1 has CODEW and points to the last code word, which thread 3 has fetched ahead. -/
def coding : State :=
  { withThread { thread with w := [(1, 0xFFFC), (2, 5)] } [(aThcfg 0 1, 0x8000)] with
    threads := [(1, { thread with w := [(1, 0xFFFC), (2, 5)] }), (3, { st := .ready, faAddr := 0xFFFC })] }

/-- Hypotheses of CodeStore at the last word of code, with CODEW and without. -/
theorem witness_CodeStore :
    (Clean coding ∧ Ready beat1 [.reg 1, .reg 2] false coding ∧ (coding.thr beat1.id).rd 1 = 0xFFFC
      ∧ 0xFFFC % 4 = 0 ∧ bit (coding.reg (aThcfg 0 1)) 15 = true)
    ∧ ((1 : Fin 16) ≠ 3 ∧ (coding.thr 3).st ≠ .stopped ∧ (coding.thr 3).faAddr.toNat = 0xFFFC)
    ∧ (Clean (pointing 0xFFFC) ∧ Ready beat1 [.reg 1, .reg 2] false (pointing 0xFFFC) ∧ bit ((pointing 0xFFFC).reg (aThcfg 0 1)) 15 = false
      ∧ ((pointing 0xFFFC).thr beat1.id).stepping = false) := by
  repeat' apply And.intro
  all_goals first | decide +kernel | exact ready_of (by decide +kernel)

/-- Hypotheses of FarLoads at the ends of image memory, in the Ward table, at a register, at one of an island that is off, and outside
the far ranges. -/
theorem witness_FarLoads :
    (Clean (pointing 0x40000000) ∧ Settled (pointing 0x40000000) ∧ FarIdle beat1 (pointing 0x40000000)
      ∧ Ready beat1 [.reg 1] true (pointing 0x40000000) ∧ (((pointing 0x40000000).thr beat1.id).rd 1 + (0 : BitVec 14).signExtend 32).toNat = 0x40000000 ∧ inImage 0x40000000 = true)
    ∧ (Ready beat1 [.reg 1] true (pointing 0x40060000) ∧ (((pointing 0x40060000).thr beat1.id).rd 1 + (-1 : BitVec 14).signExtend 32).toNat = 0x4005FFFF
      ∧ inImage 0x4005FFFF = true)
    ∧ (Clean (pointing 0x50080000) ∧ Settled (pointing 0x50080000) ∧ FarIdle beat1 (pointing 0x50080000)
      ∧ Ready beat1 [.reg 1] true (pointing 0x50080000) ∧ ((pointing 0x50080000).thr beat1.id).rd 1 = 0x50080000
      ∧ inWard 0x50080000 = true ∧ inWard 0x500800FC = true)
    ∧ (Clean (pointing 0x500F0020) ∧ Settled (pointing 0x500F0020) ∧ FarIdle beat1 (pointing 0x500F0020)
      ∧ Ready beat1 [.reg 1] true (pointing 0x500F0020) ∧ 0x500F0020 ∈ wordRegs ∧ (pointing 0x500F0020).gated 0x500F0020 = false)
    ∧ (Clean (pointing 0x500F1F00) ∧ Settled (pointing 0x500F1F00) ∧ FarIdle beat1 (pointing 0x500F1F00)
      ∧ Ready beat1 [.reg 1] true (pointing 0x500F1F00) ∧ inRegs 0x500F1F00 = true ∧ 0x500F1F00 % 4 = 0
      ∧ isleOf 0x500F1F00 = .engine ∧ (pointing 0x500F1F00).gated 0x500F1F00 = true ∧ Raisable 666 (pointing 0x500F1F00))
    ∧ (((pointing 0x40060000).thr beat1.id).stepping = false ∧ inFar 0x40060000 = false ∧ inImage 0x40060000 = false
      ∧ 0x40060000 % 4 = 0 ∧ 0x4005FFFF % 2 ≠ 0 ∧ 0x4005FFFF % 4 ≠ 0) := by
  repeat' apply And.intro
  all_goals first | decide +kernel | exact ready_of (by decide +kernel)

/-- The far merge entry of engine 0 holds a byte of thread 1. -/
def merging : State :=
  { pointing 0x4000000C with engines := [(0, { power := .on, farMerge := some ⟨0x40000008, [(1, 0x55)], 1, 990⟩ })] }

/-- Hypotheses of FarStores with the far merge entry empty, and with an entry of the storing thread; a Ward entry, a
register, an always-on one, one that no thread may write so, and an address outside the far ranges. -/
theorem witness_FarStores :
    (Clean (pointing 0x4005FFFC) ∧ Settled (pointing 0x4005FFFC) ∧ mergeForm (pointing 0x4005FFFC) = true
      ∧ (pointing 0x4005FFFC).hinge.notes = [] ∧ (pointing 0x4005FFFC).scan.run = none ∧ Ready beat1 [.reg 1, .reg 2] true (pointing 0x4005FFFC)
      ∧ inImage (((pointing 0x4005FFFC).thr beat1.id).rd 1 + (0 : BitVec 14).signExtend 32).toNat = true ∧ (((pointing 0x4005FFFC).thr beat1.id).rd 1 + (0 : BitVec 14).signExtend 32).toNat % 4 = 0)
    ∧ (Clean merging ∧ Settled merging ∧ mergeForm merging = true ∧ Ready beat1 [.reg 1, .reg 2] true merging
      ∧ (merging.eng 0).farMerge = some ⟨0x40000008, [(1, 0x55)], 1, 990⟩ ∧ merging.hinge.notes = [] ∧ merging.scan.run = none)
    ∧ (FarIdle beat1 (pointing 0x500800FC) ∧ Ready beat1 [.reg 1, .reg 2] true (pointing 0x500800FC) ∧ inWard 0x500800FC = true ∧ 0x500800FC % 4 = 0)
    ∧ (FarIdle beat1 (pointing 0x500F0020) ∧ Ready beat1 [.reg 1, .reg 2] true (pointing 0x500F0020) ∧ 0x500F0020 ∈ wordRegs
      ∧ (regRow 0x500F0020).isSome = true ∧ mayWrite beat1.id 0x500F0020 0 = true ∧ (pointing 0x500F0020).writeHeld 0x500F0020 = false
      ∧ ((pointing 0x500F0020).thr beat1.id).rd 1 = 0x500F0020 ∧ Fresh (pointing 0x500F0020))
    ∧ (FarIdle beat1 (pointing aWakeTmr) ∧ Ready beat1 [.reg 1, .reg 2] true (pointing aWakeTmr) ∧ aWakeTmr ∈ aonRegs
      ∧ mayWrite beat1.id aWakeTmr 0 = true)
    ∧ (FarIdle beat1 (pointing 0x500F0104) ∧ Ready beat1 [.reg 1, .reg 2] true (pointing 0x500F0104) ∧ inRegs 0x500F0104 = true
      ∧ isAon 0x500F0104 = false ∧ isleOf 0x500F0104 = .fabric ∧ mayWrite beat1.id 0x500F0104 0 = false)
    ∧ (((pointing 0x40060000).thr beat1.id).stepping = false ∧ inFar 0x40060000 = false ∧ inImage 0x40060000 = false
      ∧ Ready beat1 [.reg 1, .reg 2] true (pointing 0x40060000) ∧ ((pointing 0x40060000).thr beat1.id).rd 1 = 0x40060000) := by
  repeat' apply And.intro
  all_goals first | decide +kernel | exact ready_of (by decide +kernel) | exact clean_of (by decide +kernel) | (simp only [Fresh, Raisable]; decide +kernel)

/-- Hypotheses of FarBits at the first image word, misaligned and outside. -/
theorem witness_FarBits :
    (Clean (pointing 0x40000010) ∧ Settled (pointing 0x40000010) ∧ FarIdle beat1 (pointing 0x40000010)
      ∧ Ready beat1 [.reg 1, .reg 2] true (pointing 0x40000010)
      ∧ (((pointing 0x40000010).thr beat1.id).rd 1 + 4 * (-4 : BitVec 9).signExtend 32).toNat = 0x40000000 ∧ inImage 0x40000000 = true)
    ∧ (Ready beat1 [.reg 1, .reg 2] true (pointing 0x40060000) ∧ ((pointing 0x40060000).thr beat1.id).rd 1 = 0x40060000
      ∧ inImage 0x40060000 = false ∧ ((pointing 0x40060000).thr beat1.id).stepping = false)
    ∧ (Ready beat1 [.reg 1, .reg 2] true (pointing 0x40000011) ∧ 0x40000011 % 4 ≠ 0) := by
  repeat' apply And.intro
  all_goals first | decide +kernel | exact ready_of (by decide +kernel)

/-- Thread 1 has an answered load, a refused one of another crossing, and replies due to both kinds of frame words. -/
def replied : State :=
  withThread { thread with outst := [⟨0x20, .done, [(.reg 4, 9), (.flagT, 1)], none, .fabric, 0⟩, ⟨0x24, .done, [(.reg 5, 9)], some (.priv, 7), .pad, 1⟩] }
def replying (d : Dest) : State :=
  withThread { thread with outst := [⟨0x20, .done, [(d, 9)], none, .fabric, 0⟩] }

/-- Hypotheses of FarReplies: a reply to a register and T, an error reply, replies to the words of the lowest and the highest
frame. -/
theorem witness_FarReplies :
    ((replied.thr (16 * 0 + 1)).outst[0]? = some ⟨0x20, .done, [(.reg 4, 9), (.flagT, 1)], none, .fabric, 0⟩ ∧ replied.replyOpen (16 * 0 + 1) 0 = true
      ∧ ∀ d ∈ [((.reg 4 : Dest), (9 : Word)), (.flagT, 1)], d.1 = .flagT ∨ ∃ r, d.1 = .reg r)
    ∧ ((replied.thr (16 * 0 + 1)).outst[1]? = some ⟨0x24, .done, [(.reg 5, 9)], some (.priv, 7), .pad, 1⟩
      ∧ replied.replyOpen (16 * 0 + 1) 1 = true ∧ (some (Trap.priv, (7 : Word))).isSome = true)
    ∧ (((replying (.frame 0x10000 3)).thr (16 * 0 + 1)).outst[0]? = some ⟨0x20, .done, [(.frame 0x10000 3, 9)], none, .fabric, 0⟩
      ∧ (replying (.frame 0x10000 3)).replyOpen (16 * 0 + 1) 0 = true ∧ Clean (replying (.frame 0x10000 3))
      ∧ mergeForm (replying (.frame 0x10000 3)) = true ∧ (replying (.frame 0x10000 3)).twin 0 = false
      ∧ (0x10000 : Word).toNat % 4 = 0 ∧ 0x10000 ≤ (0x10000 : Word).toNat)
    ∧ (((replying (.frameT 0x13FE0)).thr (16 * 0 + 1)).outst[0]? = some ⟨0x20, .done, [(.frameT 0x13FE0, 9)], none, .fabric, 0⟩
      ∧ (replying (.frameT 0x13FE0)).replyOpen (16 * 0 + 1) 0 = true ∧ (0x13FE0 : Word).toNat + 32 ≤ 0x14000) := by
  repeat' apply And.intro
  all_goals decide +kernel

def astray (pc ra : Word) : State := withThread { thread with pc := pc, w := [(1, ra)] }
def returning : State := withThread { thread with w := [(1, 0xFFFC), (15, 0)] }

/-- Hypotheses of Transfers: a condition that fails, one that holds, targets at both ends of the code space,
targets behind it and misaligned ones. -/
theorem witness_Transfers :
    (Clean (withThread thread) ∧ Ready beat1 [.reg 1, .reg 15, .flagT] false (withThread thread) (transfers := true) ∧ condHolds 0 ((withThread thread).thr beat1.id).status = false)
    ∧ (condHolds 1 ((withThread thread).thr beat1.id).status = true ∧ (((withThread thread).thr beat1.id).pc + 4 * (0x3FBF : BitVec 22).signExtend 32).toNat = 0xFFFC)
    ∧ (Clean returning ∧ Ready beat1 [.reg 1, .reg 15, .flagT] false returning (transfers := true) ∧ (returning.thr beat1.id).rd 1 = 0xFFFC)
    ∧ ((returning.thr beat1.id).rd 15 = 0)
    ∧ (Clean (astray 0xFFFC 0x10000) ∧ Ready beat1 [.reg 1, .reg 15, .flagT] false (astray 0xFFFC 0x10000) (transfers := true)
      ∧ ((astray 0xFFFC 0x10000).thr beat1.id).pc = 0xFFFC ∧ ((astray 0xFFFC 0x10000).thr beat1.id).stepping = false
      ∧ condHolds 0 ((astray 0xFFFC 0x10000).thr beat1.id).status = false ∧ condHolds 1 ((astray 0xFFFC 0x10000).thr beat1.id).status = true
      ∧ (0xFFFC + 4 * (1 : BitVec 22).signExtend 32 : Word).toNat = 0x10000
      ∧ (((astray 0xFFFC 0x10000).thr beat1.id).rd 1).toNat = 0x10000)
    ∧ (Clean (astray 0x102 0x102) ∧ Ready beat1 [.reg 1, .reg 15, .flagT] false (astray 0x102 0x102) (transfers := true)
      ∧ ((astray 0x102 0x102).thr beat1.id).stepping = false ∧ ((0x102 : Word) + 4 * (0 : BitVec 22).signExtend 32).toNat % 4 ≠ 0
      ∧ (((astray 0x102 0x102).thr beat1.id).rd 1).toNat % 4 ≠ 0) := by
  repeat' apply And.intro
  all_goals first | decide +kernel | exact ready_of (by decide +kernel)

/-- Hypotheses of Conditions: a taken branch to the last word of the code space, and one from there. -/
theorem witness_Conditions :
    Clean (withThread thread) ∧ Ready beat1 [.flagT] false (withThread thread) (transfers := true) ∧ ((withThread thread).thr beat1.id).pc ≠ 0xFFFC
    ∧ (((withThread thread).thr beat1.id).pc + 4 * (0x3FBF : BitVec 22).signExtend 32).toNat = 0xFFFC
    ∧ (Ready beat1 [.flagT] false (astray 0xFFFC 0) (transfers := true) ∧ condHolds 1 ((astray 0xFFFC 0).thr beat1.id).status = true
      ∧ ((0xFFFC : Word) + 4 * (-0x3FFF : BitVec 22).signExtend 32).toNat = 0) := by
  repeat' apply And.intro
  all_goals first | decide +kernel | exact ready_of (by decide +kernel)

def trapping : State := withThread { thread with w := [(14, 0x10020)] } [(aTrp 0 0, 0)]

/-- TRP_POL names the given policy for TRAP n, ILLOP, FAR and STKOV. -/
def policy (pol : Nat) (t : Thread) : State := withThread t [(aTrp 0 0, setFld 0 22 2 pol)]
/-- The far error PRIV of an earlier store is due. -/
def farDue : State :=
  withThread { thread with errs := [⟨.priv, 7, 0xF0, 0, 900⟩] } [(aTrp 0 0, 0xFFFFFFFF &&& 0x55555555)]

/-- Hypotheses of TrapEntry with the lowest stack that holds a frame and with one that does not, for every policy; and a far error
that is due. -/
theorem witness_TrapEntry :
    (Clean trapping ∧ mergeForm trapping = true ∧ Ready beat1 [] false trapping ∧ (trapping.thr beat1.id).inTrap = false
      ∧ fld (trapping.reg (aTrp 0 0)) 22 2 = 0 ∧ trapping.frameFits beat1.id = true ∧ (trapping.thr beat1.id).stepping = false
      ∧ (trapping.thr beat1.id).rd 14 - 32 = 0x10000)
    ∧ (Clean (policy 1 thread) ∧ Ready beat1 [] false (policy 1 thread) ∧ fld ((policy 1 thread).reg (aTrp 0 0)) 22 2 = 1)
    ∧ (Ready beat1 [] false (policy 0 { thread with status := 0x00400000 }) ∧ ((policy 0 { thread with status := 0x00400000 }).thr beat1.id).inTrap = true
      ∧ mergeForm (policy 0 { thread with status := 0x00400000 }) = true ∧ ((policy 0 { thread with status := 0x00400000 }).thr beat1.id).stepping = false)
    ∧ (Clean (policy 2 thread) ∧ Ready beat1 [] false (policy 2 thread) ∧ fld ((policy 2 thread).reg (aTrp 0 0)) 22 2 = 2 ∧ (policy 2 thread).tum.waiters = [])
    ∧ (Clean (policy 3 thread) ∧ Ready beat1 [] false (policy 3 thread) ∧ fld ((policy 3 thread).reg (aTrp 0 0)) 22 2 = 3 ∧ (policy 3 thread).sameNow.req = none)
    ∧ (Ready beat1 [] false (policy 0 { thread with w := [(14, 0x1001C)] }) ∧ (policy 0 { thread with w := [(14, 0x1001C)] }).frameFits beat1.id = false
      ∧ fld ((policy 0 { thread with w := [(14, 0x1001C)] }).reg (aTrp 0 0)) 20 2 ≤ 1)
    ∧ (Clean farDue ∧ mergeForm farDue = true ∧ farDue.engRuns 0 = true ∧ farDue.twin 0 = false ∧ farDue.atPosition 0 0 = some 1
      ∧ (match (farDue.takePosition 0 0 1).boundary beat1.id with
         | .farError e => decide (fld (farDue.reg (aTrp 0 0)) e.code.polBit 2 = 1)
         | _ => false) = true ∧ (farDue.thr beat1.id).stepping = false) := by
  repeat' apply And.intro
  all_goals first | decide +kernel | exact ready_of (by decide +kernel)

def inFrame : State :=
  { withThread { thread with w := [(14, 0x13FE0)] } with mem := writeWord [] (engKey 0 0x13FE0) 0xFFFC }

/-- Hypotheses of ReturnFromInterrupt with the highest frame. -/
theorem witness_ReturnFromInterrupt :
    (Clean inFrame ∧ Ready beat1 [.reg 14] false inFrame (transfers := true) ∧ (inFrame.thr beat1.id).frameAwaits 0x13FE0 = false
      ∧ (inFrame.thr beat1.id).rd 14 = 0x13FE0 ∧ localNat inFrame 0 0x13FE0 4 = 0xFFFC) := by
  repeat' apply And.intro
  all_goals first | decide +kernel | exact ready_of (by decide +kernel)

/-- Thread 0 at position 0, with 15 in w1; thread 15 in the given state, holding a lock. -/
def mastering (st : ThreadState) : State :=
  { prep [(0x500F1020, 0x40)] with
    engines := [(0, { power := .on })], threads := [(0, { thread with w := [(1, 15)] }), (15, { thread with st := st })]
    tum := { locks := [(0x40000000, .held 15)] } }
def beat0 : Beat := ⟨0, 0, 0, 0⟩

/-- Hypotheses of MasterControl: the target stopped, trapped, halted, READY, the master itself; no merge entry held; both ends of the
selectors; a thread that is not the master. -/
theorem witness_MasterControl :
    (Clean (mastering .stopped) ∧ beat0.thr = 0 ∧ Ready beat0 [.reg 1, .reg 2] false (mastering .stopped)
      ∧ (((mastering .stopped).thr beat0.id).rd 1).toNat % 16 = 15 ∧ ((mastering .stopped).thr 15).st = .stopped)
    ∧ (Ready beat0 [.reg 1, .reg 2] false (mastering .trapped) ∧ ((mastering .trapped).thr 15).st = .trapped)
    ∧ (Ready beat0 [.reg 1, .reg 2] false (mastering .halted) ∧ ((mastering .halted).thr 15).st = .halted)
    ∧ (((mastering .stopped).eng 0).localMerge = none ∧ ((mastering .stopped).eng 0).farMerge = none ∧ (mastering .stopped).tum.waiters = [])
    ∧ ((mastering .ready).thr 15).st = .ready ∧ Ready beat0 [.reg 1, .reg 2] false (mastering .ready)
    ∧ ((0x16 : BitVec 8).toNat ≥ 0x14 ∧ (0x17 : BitVec 8).toNat ≥ 0x17)
    ∧ (((mastering .stopped).thr beat0.id).rd 1 = 15 ∧ (15 : Word) &&& 0xFFFC ≠ 15 ∧ Raisable 668 (mastering .stopped))
    ∧ (0xFFFC &&& 0xFFFC = (0xFFFC : Word) ∧ 0xFF00 &&& 0xFF00 = (0xFF00 : Word) ∧ 0x1FFFC &&& 0x1FFFC = (0x1FFFC : Word))
    ∧ (((mastering .stopped).thr beat0.id).rd 5 = 0 ∧ Ready beat0 [.reg 5, .reg 2] false (mastering .stopped))
    ∧ (Clean (withThread thread) ∧ beat1.thr ≠ 0 ∧ Ready beat1 [.reg 1, .reg 2] false (withThread thread)
      ∧ ((withThread thread).thr beat1.id).stepping = false) := by
  repeat' apply And.intro
  all_goals first | decide +kernel | exact ready_of (by decide +kernel)

/-- Position 0 is slack, and thread 1 is the one that is READY. -/
def slack : State := { withThread thread with regs := [(0x500F1020, 0x80)] }

/-- Hypotheses of OwnControl, for a timed thread and for a slack thread, at the last word of code, and for words that trap. -/
theorem witness_OwnControl :
    (Clean (withThread thread) ∧ Ready beat1 [] false (withThread thread) ∧ ((withThread thread).thr beat1.id).stepping = false)
    ∧ (Clean slack ∧ Ready beat1 [] false slack ∧ (slack.thr beat1.id).stepping = false ∧ slack.timed 0 1 = false)
    ∧ (((withThread thread).thr beat1.id).outst = [] ∧ mergeForm (withThread thread) = true ∧ (withThread thread).scan.run = none ∧ ((withThread thread).eng 0).localMerge = none ∧ ((withThread thread).eng 0).farMerge = none)
    ∧ (Clean (astray 0xFFFC 0) ∧ Ready beat1 [] false (astray 0xFFFC 0) (transfers := true) ∧ ((astray 0xFFFC 0).thr beat1.id).pc = 0xFFFC
      ∧ ((astray 0xFFFC 0).thr beat1.id).stepping = false)
    ∧ (fld 0xE7FFFFFF 26 6 = 0x39 ∧ 0xFC000000 < (0xFC000001 : Word).toNat) := by
  repeat' apply And.intro
  all_goals first | decide +kernel | exact ready_of (by decide +kernel)

def event : Ev := ⟨77, 0x1234, true, false⟩
/-- Thread 1 with inputs 0 and 3 armed and the given events. -/
def armed (ev : Tab Ev) : State := withThread { thread with armed := 9, ev := ev }
def slackArmed (ev : Tab Ev) : State := { armed ev with regs := [(0x500F1020, 0x80)] }

/-- Hypotheses of WaitAndSignal: no event, an event at the highest input behind a closed one for a timed thread and for a slack one,
a channel to raise. -/
theorem witness_WaitAndSignal :
    ((armed [(3, event)]).timed 0 1 = true ∧ Ready beat1 [] false (slackArmed [(3, event)]) ∧ Clean (slackArmed [(3, event)])
      ∧ (slackArmed [(3, event)]).timed 0 1 = false ∧ ((slackArmed [(3, event)]).thr beat1.id).stepping = false
      ∧ (((slackArmed [(3, event)]).thr beat1.id).armed.getLsbD 3 && !(slackArmed [(3, event)]).ien beat1.id 3) = true)
    ∧ (Clean (armed []) ∧ Ready beat1 [] false (armed []) ∧ ((armed []).thr beat1.id).stepping = false
      ∧ (∀ k, k < 4 → (((armed []).thr beat1.id).armed.getLsbD k && !(armed []).ien beat1.id k) = true →
        tabFind ((armed []).thr beat1.id).ev k = none))
    ∧ (Clean (armed [(3, event)]) ∧ Ready beat1 [] false (armed [(3, event)])
      ∧ (((armed [(3, event)]).thr beat1.id).armed.getLsbD 3 && !(armed [(3, event)]).ien beat1.id 3) = true
      ∧ tabFind ((armed [(3, event)]).thr beat1.id).ev 3 = some event
      ∧ (∀ j, j < 3 → (((armed [(3, event)]).thr beat1.id).armed.getLsbD j && !(armed [(3, event)]).ien beat1.id j) = true →
        tabFind ((armed [(3, event)]).thr beat1.id).ev j = none))
    ∧ (Settled (armed []) ∧ FarIdle beat1 (armed []) ∧ Ready beat1 [] true (armed []) ∧ (armed []).running = true
      ∧ bit ((armed []).reg (aHfCh (256 + 16 * 0 + 15))) 31 = false ∧ (∀ r ∈ (armed []).hinge.raised, ¬ (r.cyc = (armed []).cycle + 2 ∧ r.ch = 256 + 15))) := by
  repeat' apply And.intro
  all_goals first | decide +kernel | exact ready_of (by decide +kernel)

/-- Thread 1 points behind the last word of image memory; the lock table. -/
def locks (l : Tab Lock) : State := { pointing 0x40060000 with tum := { locks := l } }

/-- Hypotheses of ThreadLocks: the address free, marked, held by another and by the thread itself, misaligned and outside image
memory; a slack thread. -/
theorem witness_ThreadLocks :
    ((locks []).sameNow.tumRank = 0 ∧ ((locks []).thr beat1.id).stepping = false ∧ inImage 0x40060000 = false
      ∧ (((locks []).thr beat1.id).rd 1 + (-1 : BitVec 14).signExtend 32).toNat % 4 ≠ 0 ∧ (locks []).timed 0 1 = true)
    ∧ (Ready beat1 [.reg 1] true { locks [] with regs := [(0x500F1020, 0x80)] } ∧ ({ locks [] with regs := [(0x500F1020, 0x80)] } : State).timed 0 1 = false)
    ∧ (Clean (locks []) ∧ Settled (locks []) ∧ FarIdle beat1 (locks []) ∧ Ready beat1 [.reg 1] true (locks [])
      ∧ inImage 0x4005FFFC = true ∧ tabFind (locks []).tum.locks 0x4005FFFC = none ∧ (locks []).tum.locks.length < 4096
      ∧ (((locks []).thr beat1.id).rd 1 + (-4 : BitVec 14).signExtend 32).toNat = 0x4005FFFC)
    ∧ (Ready beat1 [.reg 1] true (locks [(0x4005FFFC, .marked)])
      ∧ tabFind (locks [(0x4005FFFC, .marked)]).tum.locks 0x4005FFFC = some .marked)
    ∧ (Ready beat1 [.reg 1] true (locks [(0x4005FFFC, .held 0)])
      ∧ tabFind (locks [(0x4005FFFC, .held 0)]).tum.locks 0x4005FFFC = some (.held 0) ∧ 0 ≠ beat1.id
      ∧ ((locks [(0x4005FFFC, .held 0)]).thr beat1.id).stepping = false)
    ∧ (Ready beat1 [.reg 1] true (locks [(0x4005FFFC, .held 1)])
      ∧ tabFind (locks [(0x4005FFFC, .held 1)]).tum.locks 0x4005FFFC = some (.held beat1.id)
      ∧ (∀ x ∈ (locks [(0x4005FFFC, .held 1)]).tum.waiters, x.2 ≠ 0x4005FFFC))
    ∧ (Ready beat1 [.reg 1] true (locks ((upTo 4096).map fun i => (0x40000000 + 4 * i, .held 0)))
      ∧ tabFind (locks ((upTo 4096).map fun i => (0x40000000 + 4 * i, .held 0))).tum.locks 0x4005FFFC = none
      ∧ 4096 ≤ (locks ((upTo 4096).map fun i => (0x40000000 + 4 * i, .held 0))).tum.locks.length) := by
  repeat' apply And.intro
  all_goals first | decide +kernel | exact ready_of (by decide +kernel)

def mailing : State :=
  { withThread thread with tum := { mail := [(63, { half := true, writer := 1, stage := 9 })], latch := [(1, (63, 5))] } }

/-- Hypotheses of ThreadMail at the last channel: half of a message staged by the thread, a word latched for it. -/
theorem witness_ThreadMail :
    (mailing.sameNow.tumRank = 0 ∧ (withThread thread).sameNow.tumRank = 0)
    ∧ (Clean mailing ∧ Settled mailing ∧ FarIdle beat1 mailing ∧ Ready beat1 [.reg 4] true mailing
      ∧ (mailing.mailCh 63).half = true ∧ (mailing.mailCh 63).writer = beat1.id ∧ tabFind mailing.tum.latch beat1.id = some (63, 5))
    ∧ (Clean (withThread thread) ∧ Settled (withThread thread) ∧ FarIdle beat1 (withThread thread) ∧ Ready beat1 [.reg 4] true (withThread thread)
      ∧ ((withThread thread).mailCh 63).half = false ∧ tabFind (withThread thread).tum.latch beat1.id = none) := by
  repeat' apply And.intro
  all_goals first | decide +kernel | exact ready_of (by decide +kernel)

/-- Hypotheses of ThreadPads for both forms of the pad. -/
theorem witness_ThreadPads :
    (Clean (withThread thread) ∧ Settled (withThread thread) ∧ FarIdle beat1 (withThread thread)
      ∧ Ready beat1 (.reg 2 :: padReads (.num 127)) true (withThread thread) ∧ (2 : BitVec 2) ≠ 3 ∧ (14 : Reg).val % 2 = 0)
    ∧ (Ready beat1 (.reg 2 :: padReads (.reg 1)) true (withThread thread) ∧ ((withThread thread).thr beat1.id).stepping = false ∧ (15 : Reg).val % 2 = 1) := by
  repeat' apply And.intro
  all_goals first | decide +kernel | exact ready_of (by decide +kernel)

/-- In this cycle hardware has set bit 0 of SYS_XFLAG; Shuttle channel 31 runs. -/
def meeting : State :=
  { prep [(0x500F0020, 1)] with same := { cyc := 1000, sets := [(0x500F0020, 1)] }, chans := [(31, { run := true })] }
/-- In this cycle identity 290 has written HF_RD0. -/
def clashing : State := { prep with same := { cyc := 1000, writes := [(0x50010010, 290)] } }

/-- Hypotheses of RegisterWrites: a register of its own fields, one that acts, one of the always-on island, a set and a write of
the same cycle, image memory and the Ward table, writes that are refused, the port's status. -/
theorem witness_RegisterWrites :
    (0x500F0020 ∈ plainRegs ∧ (regRow 0x500F0020).isSome = true ∧ Lands 0 0x500F0020 1 (prep [(0x500F0020, 3)]))
    ∧ (0x50010500 ∈ plainRegs ∧ (regRow 0x50010500).isSome = true ∧ Lands 290 0x50010500 0xFFFFFFFF prep)
    ∧ (Lands 290 0x50002000 7 prep ∧ 0x50002000 ∉ aonRegs ∧ 0x50002000 % 4 = 0)
    ∧ (aWakeTmr ∈ aonRegs ∧ Reaches 256 aWakeTmr 7 prep)
    ∧ (0x500F0020 ∈ plainRegs ∧ ((regRow 0x500F0020).any fun x => x.w1c.testBit 0 && !x.rw.testBit 0) = true ∧ Reaches 290 0x500F0020 1 meeting
      ∧ meeting.setNow 0x500F0020 0 = true ∧ bit (meeting.reg 0x500F0020) 0 = true ∧ meeting.sameNow.writes = [])
    ∧ (0x50010010 ∈ wordRegs ∧ ((regRow 0x50010010).any fun x => x.rw.testBit 0) = true ∧ Reaches 288 0x50010010 1 clashing
      ∧ (0x50010010, 290) ∈ clashing.sameNow.writes ∧ (288 : Id).toNat < 290 ∧ 256 ≤ 290)
    ∧ (inImage 0x4005FFFC = true ∧ inWard 0x50080000 = true ∧ prep.running = true ∧ prep.oddTwin 290 = false ∧ Settled prep ∧ Clean prep
      ∧ prep.scan.run = none ∧ Unsent 255 prep)
    ∧ (inRegs 0x500F0104 = true ∧ prep.gated 0x500F0104 = false ∧ mayWrite 255 0x500F0104 3 = false ∧ prep.oddTwin 255 = false
      ∧ prep.sameNow.tumRank = 0)
    ∧ (isShuttle 287 = true ∧ meeting.tum.waiters = [] ∧ (meeting.chan 31).run = true ∧ mayWrite 287 0x500F0104 3 = false ∧ meeting.running = true
      ∧ meeting.oddTwin 287 = false ∧ meeting.sameNow.tumRank = 0)
    ∧ (mayWrite 288 0x500F0104 3 = false ∧ ¬ ((288 : Id) = 288 ∧ 0x500F0104 = aLrpStat) ∧ inRegs 0x500F0104 = true ∧ prep.gated 0x500F0104 = false)
    ∧ (inFar 0x0FFFFFFC = false ∧ prep.gated 0x500F1000 = true ∧ inRegs 0x500F1000 = true ∧ Raisable 666 prep)
    ∧ ((0x90000804 : Word).toNat = aLrpStat ∧ bit 0x20000000 29 = true) := by
  repeat' apply And.intro
  all_goals first | decide +kernel | exact lands_of (by decide +kernel) | exact reaches_of (by decide +kernel) | exact clean_of (by decide +kernel) | exact unsent_of (by decide +kernel)

/-- Engine 15 in the given power state, with a power-up and start in the governor's queue. -/
def powered (p : Power) : State :=
  { prep with engines := [(15, { power := p, admitted := 900, startAtLock := true })]
              sys := { mode := .preparation, gov := [⟨15, true, true, 980⟩] } }
/-- A wake of thread 1 is held until its island runs. -/
def rewoken : State := { powered .powering with threads := [(241, { thread with st := .waiting, wait := .event 3, heldWake := true })] }

/-- Hypotheses of EnginePower: every code of the last engine, a start, the head of the governor's queue, a lock. -/
theorem witness_EnginePower :
    (Lands 290 aEngPwr 0 (powered .on) ∧ fld 0 30 2 = 0 ∧ ((powered .on).eng 15).power ≠ .off)
    ∧ (Lands 290 aEngPwr 0x40000000 (powered .on) ∧ fld 0x40000000 30 2 = 1 ∧ ((powered .on).eng 15).power = .on)
    ∧ (Lands 290 aEngPwr 0x40000000 (powered .powering) ∧ ((powered .powering).eng 15).power = .powering)
    ∧ (Lands 290 aEngPwr 0x40000000 (powered .off) ∧ ((powered .off).eng 15).power = .off)
    ∧ (Lands 290 aEngPwr 0xC0000000 (powered .retained) ∧ 2 ≤ fld 0xC0000000 30 2 ∧ ((powered .retained).eng 15).power = .retained)
    ∧ (Lands 290 aEngStart 0x8000 (powered .off) ∧ bit 0x8000 15 = true ∧ (powered .off).twin 15 = false)
    ∧ ((powered .off).running = true ∧ (powered .off).sys.gov = [⟨15, true, true, 980⟩])
    ∧ (((powered .powering).eng 15).lockHeld = false ∧ (powered .powering).twin 15 = false
      ∧ ((powered .powering).eng 15).retainAtLock = false ∧ ((powered .powering).thr 240).heldWake = false
      ∧ ((powered .powering).eng 15).startAtLock = true ∧ ((powered .powering).thr 240).st = .stopped
      ∧ bit ((powered .powering).reg (aSys 0x3000)) 0 = false)
    ∧ (((powered .on).eng 15).power = .on ∧ ((powered .on).thr (16 * 15)).st = .stopped)
    ∧ (((rewoken).thr 241).heldWake = true ∧ (rewoken.eng 15).power = .powering ∧ rewoken.running = true) := by
  repeat' apply And.intro
  all_goals first | decide +kernel | exact lands_of (by decide +kernel)

/-- Engines 2 and 3 are a Twin pair; thread 1 of engine 2 is at position 0. -/
def pair (bad stop : Bool) : State :=
  { prep [(aTwin, 0x20000), (0x500F1220, 0x41), (aTrp 2 0, 0x100)] with
    engines := [(2, { power := .on, twinStop := stop, commitPend := stop }), (3, { power := .on, twinStop := stop })]
    threads := [(33, { thread with faBad2 := bad })] }
/-- Engine 3 with a wheel commit pending, thread 1 in its position, threads 14 and 15 trapped, 14 halted there. -/
def blocks : State :=
  { prep [(0x500F1310, 0x42), (0x500F1320, 0x41)] with
    engines := [(3, { power := .on, commitPend := true })]
    threads := [(49, { thread with st := .running }), (62, { thread with st := .halted, hprev := .trapped }), (63, { thread with st := .trapped })] }

/-- Hypotheses of EngineBlocks: a keyed reset, an unkeyed one, a commit, its switch, a release; a Twin pair that runs, one whose
odd engine alone finds its word bad, one that has stopped. -/
theorem witness_EngineBlocks :
    ((pair false false).twin 2 = true ∧ Clean (pair false false) ∧ (pair false false).engRuns 2 = true
      ∧ (pair false false).atPosition 2 0 = some 1 ∧ (match ((pair false false).takePosition 2 0 1).boundary 33 with | .execute => true | _ => false) = true
      ∧ ((pair false false).thr 33).faBad = false ∧ ((pair false false).thr 33).faBad2 = false ∧ ((pair false false).thr 33).div = none
      ∧ ((pair false false).thr 33).pc ≠ 0xFFFC ∧ ((pair false false).thr 33).stepping = false
      ∧ ((pair false false).thr 33).faWord = ((pair false false).thr 33).faWord2 ∧ (⟨2, 1, 0, 8⟩ : Beat).diff ≠ 0 ∧ (⟨2, 1, 0, 0⟩ : Beat).diff = 0)
    ∧ (Clean (pair true false) ∧ ((pair true false).thr 33).faBad2 = true ∧ ((pair true false).thr 33).inTrap = false
      ∧ (match ((pair true false).takePosition 2 0 1).boundary 33 with | .execute => true | _ => false) = true
      ∧ fld ((pair true false).reg (aTrp 2 0)) 8 2 = 1 ∧ (pair true false).engRuns 2 = true)
    ∧ (((pair false true).eng 2).twinStop = true ∧ (pair false true).twin 2 = true)
    ∧ (Lands 290 (aEng 2 8) 1 (pair false true) ∧ ((pair false true).eng 2).commitPend = true ∧ (pair false true).islandOn 2 = true)
    ∧ (blocks.setNow (aEng 3 8) 1 = false ∧ (blocks.eng 3).twinStop = false)
    ∧ (Lands 290 (aEng 3 0) 0xE5C20001 blocks ∧ blocks.twin 3 = false ∧ blocks.tum.waiters = [])
    ∧ (Lands 290 (aEng 3 0) 0xE5C20000 blocks ∧ bit 0xE5C20000 0 = false)
    ∧ (Lands 290 (aEng 3 0) 0xE5C30001 blocks ∧ fld 0xE5C30001 16 16 ≠ 0xE5C2)
    ∧ (Lands 290 (aEng 3 8) 1 blocks ∧ bit 1 0 = true)
    ∧ (blocks.running = true ∧ (blocks.eng 3).commitPend = true ∧ blocks.islandOn 3 = true ∧ blocks.timed 3 1 = true
      ∧ (blocks.thr 49).st = .running)
    ∧ (Lands 290 (aTrp 3 4) 0x8000 blocks ∧ Clean blocks ∧ bit 0x8000 15 = true ∧ (blocks.thr 63).st = .trapped)
    ∧ (mergeForm blocks = true ∧ bit 0x4000 14 = true ∧ (blocks.thr 62).st = .halted ∧ (blocks.thr 62).hprev = .trapped ∧ Lands 290 (aTrp 3 4) 0x4000 blocks) := by
  repeat' apply And.intro
  all_goals first | decide +kernel | exact lands_of (by decide +kernel)

/-- Thread 15 of engine 3 in the given state, DBG_CTL, the context selector and the last word of the SRAM selected. -/
def debugged (st : ThreadState) (ctl : Word) : State :=
  { prep [(0x500F3000, ctl), (0x500F3004, 0x3F0F), (0x500F300C, 0x73FFC)] with
    engines := [(3, { power := .on })]
    threads := [(63, { thread with st := st, hprev := .ready, frozen := true })] }
/-- Engine and context selector of DBG_CTXSEL, for thread 15; DBG_MADDR names the same engine. -/
def selecting (k sel : Nat) : State :=
  { debugged .halted 0 with regs := [(0x500F3004, word (0x1000 * k + 0xF00 + sel)), (0x500F300C, word (0x20000 * k))] }
def waitHalted : State :=
  { debugged .halted 0 with threads := [(63, { thread with st := .halted, hprev := .waiting, wait := .event 5 })] }

/-- Hypotheses of Debug: both ways for each change, islands on and off, threads in the states that the clauses name, both ends of the
selectors and the last word of the SRAM. -/
theorem witness_Debug :
    (Lands 290 (aSys 0x3000) 1 (debugged .ready 0) ∧ bit ((debugged .ready 0).reg (aSys 0x3000)) 0 = false
      ∧ ((debugged .ready 0).thr 63).st ≠ .halted ∧ (debugged .ready 0).islandOn 3 = true ∧ (debugged .ready 0).islandOn 4 = false)
    ∧ (Lands 290 (aSys 0x3000) 1 (debugged .running 0) ∧ ((debugged .running 0).thr 63).st = .running)
    ∧ (Lands 290 (aSys 0x3000) 0 (debugged .halted 1) ∧ bit ((debugged .halted 1).reg (aSys 0x3000)) 0 = true
      ∧ ((debugged .halted 1).thr 63).st = .halted ∧ ((debugged .halted 1).thr 63).frozen = true
      ∧ ((debugged .halted 1).thr 63).hprev = .ready ∧ bit ((debugged .halted 1).reg (aSys 0x3000)) 1 = false)
    ∧ (Lands 290 (aSys 0x3000) 3 (debugged .halted 1) ∧ bit ((debugged .halted 1).reg (aSys 0x3000)) 0 = bit 3 0 ∧ bit 3 1 = true)
    ∧ (Lands 290 (0x500F3100 + 0x20 * 3) 0x8000 (debugged .running 0) ∧ bit 0x8000 15 = true)
    ∧ (Lands 290 (0x500F3100 + 0x20 * 3) 0x8000 (debugged .waiting 0) ∧ ((debugged .waiting 0).thr 63).st ≠ .halted)
    ∧ (Lands 290 (0x500F3100 + 0x20 * 4) 0x8000 (debugged .halted 0) ∧ (debugged .halted 0).islandOn 4 = false)
    ∧ (Lands 290 (0x500F3104 + 0x20 * 3) 0x8000 (debugged .halted 0) ∧ ((debugged .halted 0).thr 63).hprev ≠ .waiting)
    ∧ (Lands 290 (0x500F3104 + 0x20 * 3) 0x8000 waitHalted ∧ (waitHalted.thr 63).hprev = .waiting ∧ (waitHalted.thr 63).wait = .event 5 ∧ (waitHalted.thr 63).ev = [])
    ∧ (Lands 290 (0x500F3108 + 0x20 * 3) 0x8000 (debugged .halted 0))
    ∧ ((debugged .halted 0).lead 3 = 3 ∧ fld ((debugged .halted 0).reg (aSys 0x3004)) 8 8 = 0x10 * 3 + 15
      ∧ fld ((debugged .halted 0).reg (aSys 0x3004)) 0 8 = 15 ∧ Answers 290 (aSys 0x3008) (debugged .halted 0))
    ∧ (fld ((selecting 3 0x16).reg (aSys 0x3004)) 0 8 = 0x16 ∧ Answers 290 (aSys 0x3008) (selecting 3 0x16) ∧ Lands 290 (aSys 0x3008) 5 (selecting 3 0x16)
      ∧ 0x14 ≤ 0x16 ∧ ((selecting 3 0x16).thr 63).st = .halted)
    ∧ (fld ((selecting 3 0x10).reg (aSys 0x3004)) 0 8 = 0x10 ∧ (0xFFFC : Word) &&& 0xFFFC = 0xFFFC ∧ Lands 290 (aSys 0x3008) 0xFFFC (selecting 3 0x10))
    ∧ (fld ((selecting 3 0x11).reg (aSys 0x3004)) 0 8 = 0x11 ∧ Lands 290 (aSys 0x3008) 5 (selecting 3 0x11))
    ∧ (Lands 290 (aSys 0x3008) 5 (debugged .stopped 0) ∧ ((debugged .stopped 0).thr 63).st ∈ [.stopped, .trapped, .halted])
    ∧ (Lands 290 (aSys 0x3008) 5 (debugged .waiting 0) ∧ ((debugged .waiting 0).thr 63).st ∈ [.ready, .running, .waiting])
    ∧ ((selecting 4 0).islandOn ((selecting 4 0).lead (fld ((selecting 4 0).reg (aSys 0x3004)) 12 4)) = false ∧ Raisable 666 (selecting 4 0)
      ∧ Answers 290 (aSys 0x3008) (selecting 4 0) ∧ Fresh (selecting 4 0) ∧ Lands 290 (aSys 0x3008) 5 (selecting 4 0))
    ∧ ((selecting 4 0).islandOn (fld ((selecting 4 0).reg (aSys 0x300C)) 17 4) = false ∧ Answers 290 (aSys 0x3010) (selecting 4 0))
    ∧ (4 * fld ((debugged .halted 0).reg (aSys 0x300C)) 2 15 = 0x13FFC ∧ fld ((debugged .halted 0).reg (aSys 0x300C)) 17 4 = 3
      ∧ ((debugged .halted 0).eng 3).localMerge = none ∧ Clean (debugged .halted 0) ∧ Answers 290 (aSys 0x3010) (debugged .halted 0)
      ∧ Lands 290 (aSys 0x3010) 5 (debugged .halted 0)) := by
  repeat' apply And.intro
  all_goals first | decide +kernel | exact lands_of (by decide +kernel) | exact reaches_of (by decide +kernel) | exact answers_of (by decide +kernel) | (simp only [Fresh]; decide +kernel)

/-- The scrubber runs; `bad` inverted bits of the word at position 5 of engine 3's memory; merge entries at both ends. -/
def scrubbed (bad : BitVec 72) : State :=
  { prep [(0x500F4000, 1)] with
    engines := [(3, { power := .on, localMerge := some ⟨0x13FFC, [(1, 0x55), (3, 0x66)], [1], 990⟩
                      farMerge := some ⟨0x4005FFF8, [(7, 0x55)], 49, 990⟩ })]
    ecc := { bad := if bad = 0 then [] else [(cwKey 3 5, bad)], pos := [(3, 5)] } }
/-- The scrubber is off; the repair slot of engine 3's memory names a word. -/
def resting : State := { scrubbed 0 with regs := [(0x500F4000, 0)] }
def repaired : State := { scrubbed 0 with ecc := { repair := [(3, cwKey 3 9)] } }

/-- Hypotheses of MemoryErrors: no step, a repair slot, a clean, a repairable and an uncorrectable word, at an engine's memory and
at the last one; the ends of ECC_INJ; merge entries at both ends. -/
theorem witness_MemoryErrors :
    ((resting.sys.mode.executes && bit (resting.reg (aSys 0x4000)) 0 && resting.memRuns 34 && resting.scrubRoom 34) = false)
    ∧ (((scrubbed 0).sys.mode.executes && bit ((scrubbed 0).reg (aSys 0x4000)) 0 && (scrubbed 0).memRuns 34 && (scrubbed 0).scrubRoom 34) = true
      ∧ tabFind (scrubbed 0).ecc.repair 34 = none ∧ tabGet 0 (scrubbed 0).ecc.pos 34 < cwCount 34
      ∧ tabGet 0 (scrubbed 0).ecc.bad (cwKey 34 (tabGet 0 (scrubbed 0).ecc.pos 34)) = 0)
    ∧ (tabFind repaired.ecc.repair 3 = some (cwKey 3 9) ∧ tabGet 0 repaired.ecc.bad (cwKey 3 9) = 0
      ∧ (repaired.sys.mode.executes && bit (repaired.reg (aSys 0x4000)) 0 && repaired.memRuns 3 && repaired.scrubRoom 3) = true)
    ∧ (((scrubbed 1).memRuns 3 && (scrubbed 1).scrubRoom 3) = true ∧ ones (tabGet 0 (scrubbed 1).ecc.bad (cwKey 3 (tabGet 0 (scrubbed 1).ecc.pos 3))) = 1)
    ∧ (ones (tabGet 0 (scrubbed 5).ecc.bad (cwKey 3 (tabGet 0 (scrubbed 5).ecc.pos 3))) = 2)
    ∧ (Lands 290 (aSys 0x4000) 4 (scrubbed 0) ∧ bit 4 2 = true)
    ∧ (Lands 290 aEccInj 0xA2004747 (scrubbed 0) ∧ bit 0xA2004747 31 = true ∧ fld 0xA2004747 24 6 = 34 ∧ fld 0xA2004747 0 7 = 71
      ∧ fld 0xA2004747 8 7 = 71)
    ∧ (Lands 290 aEccInj 0x9F002626 (scrubbed 0) ∧ fld 0x9F002626 24 6 = 31 ∧ fld 0x9F002626 0 7 = 38)
    ∧ (((scrubbed 0).eng 3).localMerge = some ⟨0x13FFC, [(1, 0x55), (3, 0x66)], [1], 990⟩ ∧ (scrubbed 0).islandOn 3 = true
      ∧ Clean (scrubbed 0) ∧ localForm ⟨0x13FFC, [(1, 0x55), (3, 0x66)], [1], 990⟩ = true)
    ∧ (((scrubbed 0).eng 3).farMerge = some ⟨0x4005FFF8, [(7, 0x55)], 49, 990⟩ ∧ farForm 3 ⟨0x4005FFF8, [(7, 0x55)], 49, 990⟩ = true) := by
  repeat' apply And.intro
  all_goals first | decide +kernel | exact lands_of (by decide +kernel)

/-- A lock table; the detector at its limit; two threads wait for locks. -/
def owned (l : Tab Lock) : State :=
  { prep [(0x50040000, 1)] with
    engines := [(3, { power := .on })], tum := { locks := l, qcyc := 4096 }
    threads := [(48, { st := .waiting, wait := .lock 0x40000010 }), (49, { st := .waiting, wait := .lock 0x40000014 })] }
/-- Each of the two waits for the lock that the other holds. -/
def deadlocked : State := owned [(0x40000010, .held 49), (0x40000014, .held 48)]
def fullTable : State := owned ((upTo 4096).map fun i => (0x40000000 + 4 * i, .held 1))

/-- Hypotheses of LockRegisters at the last word of image memory. -/
theorem witness_LockRegisters :
    ((0x17FFF : BitVec 17).toNat < 0x18000 ∧ Lands 290 0x50040010 (word (0x17FFF * 4)) (owned []) ∧ tabFind (owned []).tum.locks 0x4005FFFC = none
      ∧ (owned []).tum.locks.length < 4096)
    ∧ (tabFind (owned [(0x4005FFFC, .marked)]).tum.locks 0x4005FFFC = some .marked
      ∧ Lands 290 0x50040010 (word (0x17FFF * 4)) (owned [(0x4005FFFC, .marked)]))
    ∧ (Lands 290 0x50040010 (word (0x17FFF * 4)) (owned [(0x4005FFFC, .held 5)]) ∧ 5 < 512
      ∧ tabFind (owned [(0x4005FFFC, .held 5)]).tum.locks 0x4005FFFC = some (.held 5))
    ∧ (tabFind fullTable.tum.locks 0x4005FFFC = none ∧ 4096 ≤ fullTable.tum.locks.length
      ∧ Lands 290 0x50040010 (word (0x17FFF * 4)) fullTable)
    ∧ (Lands 290 0x50040010 (word (2 ^ 30 + 0x17FFF * 4)) (owned [(0x4005FFFC, .held 290)])
      ∧ tabFind (owned [(0x4005FFFC, .held 290)]).tum.locks 0x4005FFFC = some (.held 290)
      ∧ (owned [(0x4005FFFC, .held 290)]).tum.waiters = [])
    ∧ (Lands 290 0x50040010 (word (2 ^ 30 + 0x17FFF * 4)) (owned []) ∧ tabFind (owned []).tum.locks 0x4005FFFC ≠ some (.held 290))
    ∧ (Lands 290 0x50040010 (word (2 * 2 ^ 30 + 0x17FFF * 4)) (owned []))
    ∧ (Lands 290 0x50040018 (word (0x17FFF * 4)) (owned [(0x4005FFFC, .held 290)]))
    ∧ (Lands 290 (aTum 0) ((owned []).keepWith (aTum 0) 2) (owned []) ∧ bit ((owned []).reg (aTum 0)) 0 = true)
    ∧ (Lands 290 (aTum 0) ((owned []).keepWith (aTum 0) 4) (owned []))
    ∧ (deadlocked.running = true ∧ deadlocked.quietHere = true ∧ deadlocked.tum.signalled = false ∧ deadlocked.tum.qcyc = 4096
      ∧ Raisable 659 (deadlocked.pass (4096 - 4096))) := by
  repeat' apply And.intro
  all_goals first | decide +kernel | exact lands_of (by decide +kernel)

def mailbox : State :=
  { prep with tum := { mail := [(63, { half := true, writer := 5, stage := 9 })], latch := [(6, (63, 2))] } }

/-- Hypotheses of MailRegisters at the last channel. -/
theorem witness_MailRegisters :
    (Lands 290 (0x50040404 + 16 * 63) 5 mailbox ∧ (mailbox.mailCh 63).half = true ∧ (mailbox.mailCh 63).writer ≠ 290 ∧ (mailbox.mailCh 62).half = false)
    ∧ (Lands 5 (0x50040408 + 16 * 63) 5 mailbox ∧ (mailbox.mailCh 63).writer = 5 ∧ Raisable (768 + 63) mailbox)
    ∧ (Lands 290 (0x50040408 + 16 * 63) 5 mailbox)
    ∧ (Answers 290 (0x50040404 + 16 * 63) mailbox ∧ Answers 290 (0x50040408 + 16 * 63) mailbox)
    ∧ (tabFind mailbox.tum.latch 6 = some (63, 2) ∧ tabFind mailbox.tum.latch 290 = none) := by
  repeat' apply And.intro
  all_goals first | decide +kernel | exact lands_of (by decide +kernel) | exact reaches_of (by decide +kernel) | exact answers_of (by decide +kernel)

/-- The last route selected, with contents to write. -/
def routing : State := prep [(0x50010008, 4095), (0x50010010, 5), (0x50010014, 7)]
def committing : State := { routing with hinge := { commit := true } }

/-- Hypotheses of HingeRegisters. -/
theorem witness_HingeRegisters :
    (Lands 290 (aHf 0xC) 1 routing ∧ Clean routing ∧ routing.hinge.commit = false
      ∧ (∀ i, i < 8 → taskOk (rTgt (5 + 2 ^ 32 * 7) i) = true) ∧ rLatch (5 + 2 ^ 32 * 7) = false
      ∧ (routing.reg (aHf 0x10)).toNat = 5 ∧ (routing.reg (aHf 0x14)).toNat = 7 ∧ fld (routing.reg (aHf 8)) 0 12 = 4095)
    ∧ (Lands 290 (aHf 0xC) 2 routing)
    ∧ (Lands 290 (aHf 0) (routing.keepWith (aHf 0) 1) routing)
    ∧ (Lands 290 (aHf 0) (committing.keepWith (aHf 0) 1) committing ∧ committing.hinge.commit = true ∧ committing.running = true)
    ∧ (Lands 290 (aHf 0) (routing.keepWith (aHf 0) 2) routing)
    ∧ (Lands 290 (0x50010040 + 4 * 5) 0x80000001 routing ∧ (∀ i, i < 32 → bit 0x80000001 i = true → Raisable (832 + 32 * 5 + i) routing))
    ∧ (Lands 290 (0x50010020 + 4 * 1) 0x7FFFFFFF routing
      ∧ (∀ i, i < 32 → bit (routing.reg (0x50010020 + 4 * 1) ^^^ 0x7FFFFFFF) i = true → Raisable (704 + 32 * 1 + i) routing)) := by
  repeat' apply And.intro
  all_goals first | decide +kernel | exact lands_of (by decide +kernel) | exact reaches_of (by decide +kernel) | (simp only [Raisable]; decide +kernel)

/-- A route of channel 900 and its raise; channel 901 stopped on its loop limit; a latch slot of pad 5 with three targets. -/
def routeBits (src tgt0 tgt1 tgt2 latch : Nat) : Nat :=
  src + 2 ^ 10 + latch * 2 ^ 11 + 3 * 2 ^ 18 + tgt0 * 2 ^ 24 + tgt1 * 2 ^ 37 + tgt2 * 2 ^ 50
    + ((upTo 5).map fun i => 0x1FFF * 2 ^ (63 + 13 * i)).foldl (· + ·) 0
def fabric : State :=
  { prep [(0x500F0114, 0x80000000), (aHfCh 901, 0x80000000), (aPadCfg 5, 0x00200000), (aPadCfg 127, 0x00A00000)] with
    hinge := { raised := [⟨1000, 900, 77, false, false⟩], window := 800
               slots := [(31, BitVec.ofNat 128 (routeBits 5 0x500 (0x501 + 4 * 127) 0x8FF 1))] }
    mem := writeBytes [] (routeKey 3) (leBytes 16 (routeBits 900 0x12 0x1FFF 0x1FFF 0))
    engines := [(15, { power := .on })] }
/-- One fire of the task stands at cycle 1010; timer 31 has the given SRC and runs or not. -/
def timing (task src : Nat) (run : Bool) : State :=
  { fabric with
    regs := [(0x500F0114, 0x80000000), (aTmr 31 0, word src)], timers := [(31, { run := run })]
    hinge := { fires := [⟨1010, 5, 77, [task]⟩] } }
def firing : State := timing 0x3FF 0 false
def occupied : State := { firing with hinge := { firing.hinge with inputs := [(0x3FF, event)] } }
/-- A RELEASE of pad 127 crosses to the pad island. -/
def crossing : State := { fabric with hinge := { padDue := [(1012, 0x6FE, 1)] } }

/-- Hypotheses of HingeEvents: channels at the ends of their ranges with and without a producer, a merging and a discarded
raise, one dispatch, fires at each kind of task, a crossing to the pads, a window's end, a firing slot and one that is not live. -/
theorem witness_HingeEvents :
    (Raisable 1023 fabric ∧ fabric.producer 1023 = true ∧ Raisable 592 fabric ∧ fabric.producer 592 = true ∧ Raisable 639 fabric
      ∧ Raisable 127 fabric ∧ fabric.producer 127 = true ∧ ¬ (1023 < 128 ∨ 592 ≤ 1023 ∧ 1023 < 640))
    ∧ (fabric.running = true ∧ fabric.producer 655 = false ∧ fabric.producer 671 = false)
    ∧ ((fabric.hinge.raised.find? fun q => q.cyc == fabric.cycle && q.ch == 900) = some ⟨1000, 900, 77, false, false⟩
      ∧ fabric.producer 900 = true ∧ bit (fabric.reg (aHfCh 900)) 31 = false)
    ∧ (bit (fabric.reg (aHfCh 901)) 31 = true ∧ fabric.producer 901 = true)
    ∧ (Clean fabric ∧ fabric.hinge.raised ≠ [] ∧ fabric.hinge.spills = [] ∧ (fabric.routesOf 900).length = 1 ∧ Fresh (fabric.atCycle 1001))
    ∧ (firing.running = true ∧ (firing.hinge.fires.map (·.cyc) ++ firing.hinge.padDue.map (·.1)).min? = some 1010
      ∧ firing.hinge.fires = [⟨1010, 5, 77, [0x3FF]⟩] ∧ firing.hinge.padDue = [] ∧ 0x3FF < 0x400 ∧ firing.twin (0x3FF / 64) = false
      ∧ tabFind (firing.atCycle 1010).hinge.inputs 0x3FF = none ∧ (firing.eng (0x3FF / 64)).power = .on
      ∧ (firing.atCycle 1010).engPwr (0x3FF / 64) ≠ 0 ∧ 5 < 1024)
    ∧ (tabFind (occupied.atCycle 1010).hinge.inputs 0x3FF = some event ∧ occupied.twin (0x3FF / 64) = false
      ∧ occupied.hinge.fires = [⟨1010, 5, 77, [0x3FF]⟩])
    ∧ ((timing 0x4FC 0 false).hinge.fires = [⟨1010, 5, 77, [0x4FC]⟩] ∧ ((timing 0x4FC 0 false).atCycle 1010).tmrSrc 31 ≠ 2
      ∧ (((timing 0x4FC 0 false).atCycle 1010).tmr 31).run = false ∧ 0x4FC % 8 = 4 ∧ 0x4FD % 8 = 5)
    ∧ (((timing 0x4FF 1 true).atCycle 1010).tmrSrc 31 = 1 ∧ (((timing 0x4FF 1 true).atCycle 1010).tmr 31).run = true ∧ 0x4FF % 8 = 7)
    ∧ (((timing 0x7BF 0 false).atCycle 1010).groupOn (0x7BF % 64) = decide (0x7BF < 0x7C0)
      ∧ ((timing 0x7FF 0 false).atCycle 1010).groupOn (0x7FF % 64) ≠ decide (0x7FF < 0x7C0))
    ∧ (crossing.running = true ∧ crossing.hinge.fires = [] ∧ crossing.hinge.padDue = [(1012, 0x6FE, 1)] ∧ 0x500 ≤ 0x6FE ∧ 0x6FE < 0x700
      ∧ (crossing.atCycle 1012).islesUp = true ∧ ((crossing.atCycle 1012).pad 127).forceCyc ≠ some (crossing.atCycle 1012).cycle
      ∧ ((crossing.atCycle 1012).pad 127).holdCyc ≠ some (crossing.atCycle 1012).cycle)
    ∧ (fabric.hinge.window % 200 = 0 ∧ fabric.cycle < fabric.hinge.window + 400)
    ∧ (fabric.slotLive 0 = false ∧ fabric.slotLive 31 = true ∧ fabric.slotTasks 31 = some [0x500, 0x501 + 4 * 127, 0x8FF]
      ∧ 0x8C0 ∉ [0x500, 0x501 + 4 * 127, 0x8FF] ∧ (∀ n ∈ [0x500, 0x501 + 4 * 127, 0x8FF], n < 0x900)) := by
  repeat' apply And.intro
  all_goals first | decide +kernel | (simp only [Fresh]; decide +kernel)

/-- An event is latched at input 3 of thread 1, which is in the given state; THCFG. -/
def latched (st : ThreadState) (cfg : Word) : State :=
  { withThread { thread with st := st, wait := .event 4, armed := 8 } [(aThcfg 0 1, cfg)] with
    hinge := { inputs := [(7, event)] } }
def noted : State := { prep with hinge := { notes := [⟨255, 3, 5⟩] } }
/-- The event has reached the thread, whose input 3 is interrupt-enabled. -/
def interrupting : State :=
  withThread { thread with ev := [(3, event)], armed := 8, w := [(14, 0x10020)] } [(aThcfg 0 1, 8)]
def watched : State := withThread { thread with wdFrom := some 3 } [(aThcfg 0 1, 0x20)]

/-- Hypotheses of ThreadEvents: a delivery to a thread that does not wait and to one that does, a note, an interrupt entry, a
watchdog. -/
theorem witness_ThreadEvents :
    ((latched .ready 0).running = true ∧ tabFind (latched .ready 0).hinge.inputs (4 * 1 + 3) = some event
      ∧ (latched .ready 0).islandOn 0 = true ∧ ((latched .ready 0).eng 0).twinStop = false
      ∧ tabFind ((latched .ready 0).thr 1).ev 3 = none ∧ (latched .ready 0).hinge.notes = [] ∧ ((latched .ready 0).thr 1).inWait = false)
    ∧ (((latched .waiting 0).thr 1).st = .waiting ∧ ((latched .waiting 0).thr 1).wait = .event 4 ∧ ((latched .waiting 0).thr 1).ev = []
      ∧ ((latched .waiting 0).thr 1).armed.getLsbD 3 = true ∧ (latched .waiting 0).ien 1 3 = false ∧ (latched .waiting 0).hinge.notes = [])
    ∧ (noted.running = true ∧ noted.hinge.notes = [⟨16 * 15 + 15, 3, 5⟩]
      ∧ (∀ m ∈ noted.sameNow.missed, m.input ≠ 4 * (16 * 15 + 15) + 3))
    ∧ (interrupting.engRuns 0 = true ∧ interrupting.twin 0 = false ∧ (interrupting.thr 1).st = .ready
      ∧ (interrupting.thr 1).stepping = false ∧ interrupting.owns 0 0 1 = true ∧ interrupting.frameFits 1 = true
      ∧ mergeForm interrupting = true ∧ Clean interrupting)
    ∧ ((∃ p, p < 16 ∧ interrupting.owns 0 p 1 = true) ∧ interrupting.boundary 1 = .interrupt 3 event)
    ∧ (watched.running = true ∧ (watched.thr 1).wdFrom = some 3 ∧ watched.wdt 1 ≠ 0 ∧ (watched.thr 1).wdDue = false
      ∧ (watched.thr 1).st.counting = true ∧ watched.islandOn 0 = true) := by
  repeat' apply And.intro
  all_goals decide +kernel

/-- Timer 31 runs with the given MODE, slot 3 MODE, PRESC and count below a top of 10; slot 3 is armed at `cmp` unless 0. -/
def timed (mode smode presc cnt cmp : Nat) : State :=
  { prep [(aTmr 31 0, word (mode * 16)), (aTmr 31 8, word presc), (aSlot 31 3, word smode)] with
    timers := [(31, { run := true, cnt := BitVec.ofNat 48 cnt, top := 10
                      slots := [(3, { armed := cmp != 0, cmp := BitVec.ofNat 48 cmp })] })] }
def asleep (m : Mode) : State :=
  { prep [(aWakeTmr, 1), (aWakeCfg, 3), (aTmr 31 12, 5)] with
    sys := { mode := m }, timers := [(31, { run := true, cnt := 4, top := 10 })] }
/-- Timer 31 counts steps, two of which have come. -/
def counting (run : Bool) : State :=
  { prep [(aTmr 31 0, 1)] with timers := [(31, { run := run, cnt := 8, top := 10, steps := 2 })] }
def followed : State := prep [(aTmr 31 0, 2)]

/-- Hypotheses of Timers: a phase that counts, a step of each mode, at the ends of the count, a match, a wrap, the wake timer. -/
theorem witness_Timers :
    ((timed 0 0 3 9 0).running = true ∧ (timed 0 0 3 9 0).sys.mode ≠ .recall ∧ ((timed 0 0 3 9 0).tmr 31).steps = 0
      ∧ ((timed 0 0 3 9 0).atCycle (max 1000 (((timed 0 0 3 9 0).tmr 31).stepped + 1))).cycle = (timed 0 0 3 9 0).cycle ∧ (timed 0 0 3 9 0).tmrSrc 31 = 0
      ∧ (timed 0 0 3 9 0).lfRunning 31 = false ∧ ((timed 0 0 3 9 0).tmr 31).run = true
      ∧ ((timed 0 0 3 9 0).tmr 31).written ≠ ((timed 0 0 3 9 0).atCycle (max 1000 1)).cycle
      ∧ ((timed 0 0 3 9 0).tmr 31).phase.toNat < fld ((timed 0 0 3 9 0).reg (aTmr 31 8)) 0 16)
    ∧ (fld ((timed 0 0 0 9 0).reg (aTmr 31 8)) 0 16 ≤ ((timed 0 0 0 9 0).tmr 31).phase.toNat ∧ (timed 0 0 0 9 0).tmrMode 31 = 0
      ∧ ((timed 0 0 0 9 0).atCycle 1000).cycle = 1000
      ∧ (∀ j, j < 4 → j ≠ 4 → (timed 0 0 0 9 0).armedAt 31 j = false ∧ (timed 0 0 0 9 0).smode 31 j ≠ 3))
    ∧ ((timed 1 0 0 0 0).tmrMode 31 = 1 ∧ ((timed 1 0 0 0 0).tmr 31).cnt = 0)
    ∧ ((timed 2 0 0 10 0).tmrMode 31 = 2 ∧ (timed 2 0 0 10 0).tmrOne 31 = false ∧ (0 : BitVec 48) < ((timed 2 0 0 10 0).tmr 31).top
      ∧ ((timed 2 0 0 10 0).tmr 31).cnt = ((timed 2 0 0 10 0).tmr 31).top)
    ∧ ((∀ j, j < 4 → j ≠ 3 → (timed 0 1 0 9 10).armedAt 31 j = false ∧ (timed 0 1 0 9 10).smode 31 j ≠ 3)
      ∧ (timed 0 1 0 9 10).armedAt 31 3 = true ∧ ((timed 0 1 0 9 10).tmr 31).cnt < ((timed 0 1 0 9 10).tmr 31).top
      ∧ (((timed 0 1 0 9 10).tmr 31).slot 3).cmp = ((timed 0 1 0 9 10).tmr 31).cnt + 1 ∧ (timed 0 1 0 9 10).dozing = false
      ∧ bit ((timed 0 1 0 9 10).reg (aHfCh (128 + 4 * 31 + 3))) 31 = false ∧ (timed 0 1 0 9 10).hinge.raised = [])
    ∧ (((timed 0 0 0 10 0).tmr 31).top ≤ ((timed 0 0 0 10 0).tmr 31).cnt)
    ∧ ((timed 1 1 0 9 8).tmrMode 31 = 1 ∧ ((timed 1 1 0 9 8).tmr 31).cnt ≠ 0 ∧ ((timed 1 1 0 9 8).tmr 31).cnt ≤ ((timed 1 1 0 9 8).tmr 31).top
      ∧ (((timed 1 1 0 9 8).tmr 31).slot 3).cmp = ((timed 1 1 0 9 8).tmr 31).cnt - 1 ∧ (timed 1 1 0 9 8).armedAt 31 3 = true)
    ∧ ((counting false).tmrSrc 31 = 1 ∧ ((counting false).tmr 31).run = false ∧ (counting false).lfRunning 31 = false)
    ∧ ((counting true).tmrSrc 31 = 1 ∧ ((counting true).tmr 31).run = true ∧ (counting true).tmrMode 31 = 0 ∧ (counting true).lfRunning 31 = false
      ∧ ((counting true).tmr 31).cnt.toNat + ((counting true).tmr 31).steps ≤ ((counting true).tmr 31).top.toNat
      ∧ (∀ j, j < 4 → j ≠ 4 → (counting true).armedAt 31 j = false ∧ (counting true).smode 31 j ≠ 3))
    ∧ (followed.tmrSrc 31 = 2 ∧ (∀ j, j < 4 → j ≠ 4 → followed.armedAt 31 j = false ∧ followed.smode 31 j ≠ 3)
      ∧ followed.lfRunning 31 = false ∧ (followed.tmr 31).steps = 0 ∧ followed.sys.mode ≠ .recall)
    ∧ ((timed 0 0 0 9 0).armedAt 31 3 = false ∧ ((timed 0 0 0 9 0).tmr 31).stopped ≠ (timed 0 0 0 9 0).cycle)
    ∧ (Lands 290 0x50002000 0x80000000 (timed 0 0 0 9 0) ∧ Lands 290 0x50002004 0x80000000 (timed 0 0 0 9 0))
    ∧ ((asleep .dormant).sys.mode = .dormant ∧ (asleep .doze).sys.mode = .doze ∧ (asleep .doze).hinge.lfcaps = [] ∧ (asleep .doze).tmrSrc 31 = 0
      ∧ ((asleep .doze).tmr 31).run = true ∧ (asleep .doze).tmrMode 31 = 0
      ∧ ((asleep .doze).tmr 31).cnt.toNat + ((asleep .doze).reg (aTmr 31 12)).toNat ≤ ((asleep .doze).tmr 31).top.toNat)
    ∧ (prep.sys.mode ≠ .doze ∧ prep.sys.mode ≠ .dormant ∧ prep.hinge.lfcaps = [] ∧ bit (prep.reg aDbgCtl) 0 = false) := by
  repeat' apply And.intro
  all_goals first | decide +kernel | exact lands_of (by decide +kernel)

/-- A RELOAD has landed in this cycle. -/
def reloading : State := { prep with timers := [(31, { run := true, top := 10, reloaded := 1000 })] }
def paired : State := { prep with timers := [(31, { slots := [(3, { pair := some 999, pend := some 7 })] })] }

/-- Hypotheses of TimerRegisters: values at, just above and beyond the count and the top. -/
theorem witness_TimerRegisters :
    (Lands 290 (aTmr 31 0x10) 5 (timed 0 1 0 9 0) ∧ (timed 0 1 0 9 0).tmrSrc 31 ≠ 2 ∧ Lands 290 (aTmr 31 0x18) 5 (timed 0 1 0 9 0))
    ∧ (Lands 290 (aTmr 31 0x10) 5 followed ∧ followed.tmrSrc 31 = 2)
    ∧ (Answers 290 (aTmr 31 0x10) (timed 0 1 0 9 0) ∧ Answers 290 (aSlot 31 3 + 0x14) (timed 0 1 0 9 0) ∧ Answers 290 (aSlot 31 3 + 0x18) (timed 0 1 0 9 0)
      ∧ ((timed 0 1 0 9 0).tmr 31).reloaded ≠ (timed 0 1 0 9 0).cycle)
    ∧ (Lands 290 (aTmr 31 0x10) 5 reloading ∧ (reloading.tmr 31).reloaded = reloading.cycle ∧ reloading.tmrSrc 31 ≠ 2)
    ∧ (Lands 290 (aSlot 31 3 + 4) 5 (timed 0 0 0 9 0) ∧ (timed 0 0 0 9 0).smode 31 3 ≠ 1)
    ∧ (Lands 290 (aSlot 31 3 + 4) 10 (timed 0 1 0 9 0) ∧ (timed 0 1 0 9 0).smode 31 3 = 1 ∧ (timed 0 1 0 9 0).tmrSrc 31 ≠ 2
      ∧ (timed 0 1 0 9 0).tmrMode 31 = 0 ∧ fld ((timed 0 1 0 9 0).reg (aSlot 31 3 + 8)) 0 16 = 0 ∧ ((timed 0 1 0 9 0).tmr 31).cnt < 10
      ∧ 10 ≤ ((timed 0 1 0 9 0).tmr 31).top ∧ ((10 : BitVec 48) - ((timed 0 1 0 9 0).tmr 31).cnt).toNat ≤ 2 ^ 47)
    ∧ (Lands 290 (aSlot 31 3 + 4) 11 (timed 0 1 0 9 0) ∧ (11 : BitVec 48) ≠ ((timed 0 1 0 9 0).tmr 31).cnt
      ∧ ((timed 0 1 0 9 0).tmr 31).top < 11)
    ∧ (Lands 290 (aSlot 31 3 + 4) 9 (timed 0 1 0 9 0) ∧ (9 : BitVec 48) = ((timed 0 1 0 9 0).tmr 31).cnt ∧ (timed 0 1 0 9 0).dozing = false
      ∧ bit ((timed 0 1 0 9 0).reg (aHfCh (128 + 4 * 31 + 3))) 31 = false ∧ (timed 0 1 0 9 0).hinge.raised = [])
    ∧ (((paired.tmr 31).slot 3).pair = some 999 ∧ 999 < paired.cycle) := by
  repeat' apply And.intro
  all_goals first | decide +kernel | exact lands_of (by decide +kernel) | exact reaches_of (by decide +kernel) | exact answers_of (by decide +kernel)

/-- TB_CTL, TB_STAT and the corrections on their way. -/
def corrected (ctl stat : Word) (l : List Correction) : State := { prep [(aTbCtl, ctl), (aTbStat, stat)] with corrections := l }

/-- Hypotheses of Timebase: a correction at the limit of the rate, with TB_CTL selecting and not; SYNC set. -/
theorem witness_Timebase :
    (Lands 290 0x50002020 0x80000 (corrected 1 0 []) ∧ bit ((corrected 1 0 []).reg aTbCtl) 0 = true ∧ (0x80000 : Word).toInt = 524288)
    ∧ (Lands 290 0x50002020 0xFFF80000 (corrected 1 0 []) ∧ (0xFFF80000 : Word).toInt = -524288)
    ∧ (Lands 290 0x50002020 7 (corrected 0 0 []) ∧ bit ((corrected 0 0 []).reg aTbCtl) 0 = false ∧ Lands 290 0x50002024 7 (corrected 0 0 []))
    ∧ (Lands 290 0x50002024 7 (corrected 1 0 []))
    ∧ (Lands 290 aTbCtl 0 (corrected 0 0x80000000 []) ∧ bit 0 0 = false)
    ∧ (Lands 290 aTbCtl 1 (corrected 0 0x80000000 []) ∧ bit 1 0 = true ∧ bit ((corrected 0 0x80000000 []).reg aTbStat) 31 = true
      ∧ Raisable 580 (corrected 0 0x80000000 []))
    ∧ (Answers 290 0x50002018 (corrected 0 0 []))
    ∧ (Answers 290 0x5000201C (corrected 0 0 []))
    ∧ ((corrected 0 0 [⟨1004, some 7, none⟩]).running = true ∧ (corrected 0 0 [⟨1004, some 7, none⟩]).corrections = [⟨1004, some 7, none⟩])
    ∧ ((corrected 0 0 [⟨1004, none, some 7⟩]).corrections = [⟨1004, none, some 7⟩] ∧ (corrected 0 0 [⟨1004, none, some 7⟩]).chain.sched = none) := by
  repeat' apply And.intro
  all_goals first | decide +kernel | exact lands_of (by decide +kernel) | exact reaches_of (by decide +kernel) | exact answers_of (by decide +kernel)

/-- Pad 127: its configuration, the requests of engine 0 on the way, its edge queue; two stamps wait. -/
def padded (cfg : Word) (rq : List PadReq) (q : List Edge) : State :=
  { prep [(aPadCfg 127, cfg), (aCal, 0x80000000)] with
    engines := [(0, { power := .on, padReqs := rq })], pads := [(127, { queue := q, fifo := [5, 9] })] }
/-- Stamps on their way into the empty FIFO of pad 127, a PCAP before it. -/
def stamping (l : List (Nat × Time64)) : State :=
  { padded 0 [⟨1, 127, none, 4, 0x24⟩] [] with pads := [(127, { entering := l })] }
def close : State := { padded 0x00E00000 [] [] with pads := [(127, { stampCyc := some 1000 })] }
def slotted : State :=
  { padded 0x00E00000 [] [] with hinge := { slots := [(31, BitVec.ofNat 128 (routeBits 127 0x500 (0x501 + 4 * 127) 0x8FF 1))] } }

/-- Hypotheses of Pads: a PSET with room, in commit mode, at a full queue; PCAPs of a waiting, an entering and no stamp; a head
edge late and in time; edges that are stamped, raised, too close, unselected, and at a latch slot. -/
theorem witness_Pads :
    ((padded 0 [⟨1, 127, some (1, 0x40), 0, 0x20⟩] []).islesUp = true ∧ ((padded 0 [⟨1, 127, some (1, 0x40), 0, 0x20⟩] []).eng 0).padReqs = [⟨1, 127, some (1, 0x40), 0, 0x20⟩]
      ∧ bit ((padded 0 [⟨1, 127, some (1, 0x40), 0, 0x20⟩] []).reg (aPadCfg 127)) 19 = false
      ∧ ((padded 0 [⟨1, 127, some (1, 0x40), 0, 0x20⟩] []).pad 127).queue.length < 8)
    ∧ (bit ((padded 0x80000 [⟨1, 127, some (1, 0x40), 0, 0x20⟩] []).reg (aPadCfg 127)) 19 = true)
    ∧ (8 ≤ ((padded 0 [⟨1, 127, some (1, 0x40), 0, 0x20⟩] (List.replicate 8 ⟨1, 5, 990⟩)).pad 127).queue.length)
    ∧ (((padded 0 [⟨1, 127, none, 4, 0x24⟩] []).eng 0).padReqs = [⟨1, 127, none, 4, 0x24⟩] ∧ ((padded 0 [⟨1, 127, none, 4, 0x24⟩] []).pad 127).fifo = [5, 9]
      ∧ ((padded 0 [⟨1, 127, none, 4, 0x24⟩] []).pad 127).entering = [])
    ∧ (((stamping []).pad 127).fifo = [] ∧ ((stamping []).pad 127).entering = [] ∧ ((stamping [(999, 7)]).pad 127).entering = [(999, 7)]
      ∧ 999 < (stamping [(999, 7)]).cycle ∧ (∀ e ∈ ((stamping [(1000, 7)]).pad 127).entering, (stamping [(1000, 7)]).cycle ≤ e.1))
    ∧ (((padded 0 [] [⟨1, 5, 990⟩]).pad 127).queue = [⟨1, 5, 990⟩] ∧ ((padded 0 [] [⟨1, 5, 990⟩]).pad 127).prev = none
      ∧ ((padded 0 [] [⟨1, 5, 990⟩]).pad 127).decided = none ∧ (padded 0 [] [⟨1, 5, 990⟩]).settled = true
      ∧ (padded 0 [] [⟨1, 5, 990⟩]).decideIn (spaced 5 none) = 0
      ∧ later (spaced 5 none) ((padded 0 [] [⟨1, 5, 990⟩]).nowIn 2) = false)
    ∧ (((padded 0 [] [⟨1, 0x400000000, 990⟩]).pass ((padded 0 [] [⟨1, 0x400000000, 990⟩]).decideIn (spaced 0x400000000 none))).decideIn (spaced 0x400000000 none) = 0
      ∧ later (spaced 0x400000000 none)
        (((padded 0 [] [⟨1, 0x400000000, 990⟩]).pass ((padded 0 [] [⟨1, 0x400000000, 990⟩]).decideIn (spaced 0x400000000 none))).nowIn 2) = true)
    ∧ (((padded 0x00E00000 [] []).pad 127).pin ≠ true ∧ (padded 0x00E00000 [] []).selects 127 true = true
      ∧ ((padded 0x00E00000 [] []).pad 127).stampCyc ≠ some (padded 0x00E00000 [] []).cycle
      ∧ (padded 0x00E00000 [] []).hinge.slots = [] ∧ bit ((padded 0x00E00000 [] []).reg (aPadCfg 127)) 23 = true
      ∧ bit ((padded 0x00E00000 [] []).reg (aHfCh 127)) 31 = false ∧ (padded 0x00E00000 [] []).hinge.raised = [])
    ∧ ((padded 0x00600000 [] []).selects 127 true = true ∧ bit ((padded 0x00600000 [] []).reg (aPadCfg 127)) 23 = false)
    ∧ ((close.pad 127).stampCyc = some close.cycle ∧ close.selects 127 true = true ∧ (close.pad 127).pin ≠ true ∧ close.islesUp = true)
    ∧ (slotted.hinge.slots = [(31, BitVec.ofNat 128 (routeBits 127 0x500 (0x501 + 4 * 127) 0x8FF 1))] ∧ slotted.selects 127 true = true
      ∧ rSrc (BitVec.ofNat 128 (routeBits 127 0x500 (0x501 + 4 * 127) 0x8FF 1)).toNat = 127
      ∧ 0x8C0 ∉ rTasks (BitVec.ofNat 128 (routeBits 127 0x500 (0x501 + 4 * 127) 0x8FF 1)).toNat ∧ slotted.running = true)
    ∧ ((padded 0 [] []).selects 127 true = false ∧ ((padded 0 [] []).pad 127).pin = false)
    ∧ (Answers 290 (0x50020010 + 0x20 * 127) (padded 0 [] []) ∧ Answers 290 (0x50020010 + 0x20 * 127) (stamping []) ∧ Lands 290 (0x50020008 + 0x20 * 127) 16 (padded 0 [] [])) := by
  repeat' apply And.intro
  all_goals first | decide +kernel | exact lands_of (by decide +kernel) | exact reaches_of (by decide +kernel) | exact answers_of (by decide +kernel)

/-- An SFORCE of this cycle has set the force latch of pad 127. -/
def forced : State := { prep with pads := [(127, { force := some 1, forceCyc := some 1000 })] }
/-- Unit 0 serves pad 127. -/
def serving : State := prep [(aFpu 0, 0x8000007F)]

/-- Hypotheses of PadRegisters: the last pad; a filter unit whose pad is free and whose pad is served. -/
theorem witness_PadRegisters :
    (Lands 290 (0x50020008 + 0x20 * 127) 8 (padded 0 [] []) ∧ Lands 290 (0x50020008 + 0x20 * 127) 4 (padded 0 [] [])
      ∧ Lands 290 (0x50020008 + 0x20 * 127) 2 (padded 0 [] []) ∧ Lands 290 (0x50020008 + 0x20 * 127) 1 (padded 0 [] [])
      ∧ ((padded 0 [] []).pad 127).forceCyc ≠ some (padded 0 [] []).cycle ∧ ((padded 0 [] []).pad 127).holdCyc ≠ some (padded 0 [] []).cycle)
    ∧ (Lands 290 (0x50020008 + 0x20 * 127) 4 forced ∧ (forced.pad 127).forceCyc = some forced.cycle)
    ∧ (Lands 290 (aPadCfg 127) 0x80000 (padded 0 [] []))
    ∧ (Lands 290 (aFpu 63) 0x7F serving ∧ bit 0x7F 31 = false)
    ∧ (Lands 290 (aFpu 63) 0x8000007E serving ∧ bit 0x8000007E 31 = true
      ∧ ¬ ∃ i, i < 64 ∧ i ≠ 63 ∧ bit (serving.reg (aFpu i)) 31 = true ∧ fld (serving.reg (aFpu i)) 0 7 = fld 0x8000007E 0 7)
    ∧ (Lands 290 (aFpu 63) 0x8000007F serving
      ∧ ∃ i, i < 64 ∧ i ≠ 63 ∧ bit (serving.reg (aFpu i)) 31 = true ∧ fld (serving.reg (aFpu i)) 0 7 = fld 0x8000007F 0 7) := by
  repeat' apply And.intro
  all_goals first | decide +kernel | exact lands_of (by decide +kernel)

/-- A schedule, a commit buffer on its way, a change of OWN_OUT and the end of its hold time ahead. -/
def instants : State :=
  { prep [(aPadCfg 127, 0x80000)] with
    chain := { sched := some ⟨5, 2000, 5, false, false, 0⟩ }, scan := { bufs := [⟨[(127, 1), (0, 0)], 77, 1004⟩] }
    shk := { outAt := some (true, 0x140000), holdEnd := some 1010 } }

/-- Hypotheses of PadInstants. -/
theorem witness_PadInstants :
    (instants.islesUp = true ∧ instants.chain.sched = some ⟨5, 2000, 5, false, false, 0⟩ ∧ instants.paired = false ∧ instants.shk.modeDue = none
      ∧ instants.shk.outDue = none ∧ bit (instants.reg (aHfCh 578)) 31 = false)
    ∧ (instants.scan.bufs = [⟨[(127, 1), (0, 0)], 77, 1004⟩])
    ∧ (instants.settled = false ∧ Raisable 670 instants)
    ∧ ((padded 0 [] []).settled = true)
    ∧ (instants.shk.outAt = some (true, 0x140000) ∧ bit (instants.reg aOwnStat) 0 ≠ true)
    ∧ (instants.shk.holdEnd = some 1010) := by
  repeat' apply And.intro
  all_goals decide +kernel

/-- Port 7 with CVT_CFG of mode 1; busy, its request, the end of its pulse; three samples wait. -/
def converting (busy : Bool) (rq : Option CvtReq) (till : Option Nat) : State :=
  { prep [(aCvt 7 0, 0xB1010005)] with
    cvts := [(7, { busy := busy, req := rq, fall := till, rise := 990, fifo := [(1, 5), (2, 6), (3, 7)] })] }
def full : State := { converting true none none with cvts := [(7, { fifo := [(1, 5), (2, 6), (3, 7), (4, 8)] })] }

/-- Hypotheses of Converters at the last port. -/
theorem witness_Converters :
    (Lands 290 (aCvt 7 0xC) 5 (converting false none none) ∧ bit ((converting false none none).reg (aCvt 7 0)) 31 = true
      ∧ fld ((converting false none none).reg (aCvt 7 0)) 29 2 = 1 ∧ ((converting false none none).cvt 7).req = none
      ∧ (converting false none none).cvtBusy 7 = false)
    ∧ (Lands 290 (aCvt 7 0xC) 5 (converting true none none) ∧ (converting true none none).cvtBusy 7 = true ∧ ((converting true none none).cvt 7).req = none)
    ∧ (Lands 290 (aCvt 7 0) 0xA1000001 (converting false none none) ∧ fld 0xA1000001 29 2 ≠ 3 ∧ fld 0xA1000001 24 4 = 1 ∧ fld 0xA1000001 0 16 = 1)
    ∧ (Lands 290 (aCvt 7 0) 0x3FFFFFFF (converting true none (some 1010)) ∧ fld 0x3FFFFFFF 29 2 ≠ 3 ∧ bit 0x3FFFFFFF 28 = true ∧ bit 0x3FFFFFFF 31 = false)
    ∧ (((converting false (some ⟨5, true, true, 990⟩) none).cvt 7).req = some ⟨5, true, true, 990⟩ ∧ (converting false (some ⟨5, true, true, 990⟩) none).islesUp = true
      ∧ (converting false (some ⟨5, true, true, 990⟩) none).decideIn (spaced 5 none) = 0
      ∧ bit ((converting false (some ⟨5, true, true, 990⟩) none).reg (aHfCh (640 + 7))) 31 = false
      ∧ (converting false (some ⟨5, true, true, 990⟩) none).hinge.raised = [] ∧ ((converting false (some ⟨5, true, true, 990⟩) none).cvt 7).prev = none)
    ∧ (((converting true none (some 1010)).cvt 7).fall = some 1010 ∧ (converting true none (some 1010)).islesUp = true ∧ ((converting true none none).cvt 7).req = none)
    ∧ (((converting true none none).cvt 7).busy = true ∧ bit ((converting true none none).reg (aCvt 7 0)) 28 = true ∧ (converting true none none).islesUp = true)
    ∧ (((converting false none none).cvt 7).busy = false ∧ bit (prep.reg (aCvt 7 0)) 28 = false)
    ∧ (((converting true none none).cvt 7).fifo.length = 3 ∧ (converting true none none).islesUp = true ∧ bit ((converting true none none).reg (aHfCh (648 + 7))) 31 = false
      ∧ bit ((converting true none none).reg (aCvt 7 0)) 31 = true ∧ (converting true none none).hinge.raised = [])
    ∧ (Answers 290 (aCvt 7 0x1C) (converting true none none) ∧ Answers 290 (aCvt 7 0x14) (converting true none none))
    ∧ (4 ≤ (full.cvt 7).fifo.length ∧ bit (prep.reg (aCvt 7 0)) 31 = false ∧ bit (full.reg (aCvt 7 0)) 31 = true) := by
  repeat' apply And.intro
  all_goals first | decide +kernel | exact lands_of (by decide +kernel) | exact reaches_of (by decide +kernel) | exact answers_of (by decide +kernel)

/-- A flip is due for the last two threads, of which one waits for an event. -/
def flipping : State :=
  { prep [(aScn 0x6C, 0xC0000000)] with
    scan := { flip := some 7, flipDue := true }, engines := [(15, { power := .on })]
    threads := [(254, thread), (255, { thread with st := .waiting, wait := .event 3 })] }

/-- Hypotheses of BankFlips. -/
theorem witness_BankFlips :
    (Lands 290 (aScn 0x44) 5 flipping ∧ Lands 290 (aScn 0x4C) (flipping.keepWith (aScn 0x4C) 0x20000000) flipping
      ∧ Lands 290 (aScn 0) (flipping.keepWith (aScn 0) 2) flipping)
    ∧ (flipping.running = true ∧ flipping.upd.due = false ∧ flipping.scan.flipDue = true ∧ flipping.relocatable 255 = true
      ∧ flipping.relocatable 254 = false ∧ flipping.flipIds = [254, 255]) := by
  repeat' apply And.intro
  all_goals first | decide +kernel | exact lands_of (by decide +kernel)

/-- Ward entries of a digital input and of a digital output at pad 9. -/
def wardIn : Nat := 2 ^ 62 + 2 ^ 57 + 9 * 2 ^ 36 + 0x6010 / 4 * 2 ^ 16 + 5 * 2 ^ 11
def wardOut : Nat := 2 * 2 ^ 62 + 9 * 2 ^ 36 + 0x6010 / 4 * 2 ^ 16 + 5 * 2 ^ 11
def dueIn : PassDue := ⟨.localIn, 0x3200, 0x4000, false, false⟩
def dueOut : PassDue := ⟨.output, 0x3200, 0x4000, false, false⟩
def dueChain : PassDue := ⟨.chainIn, 0x3200, 0x4000, false, false⟩
def dueMiss : PassDue := ⟨.chainIn, 0x3200, 0x4000, true, false⟩
/-- One pass is due; entry 3 of the Ward table is the only point of both lists. -/
def scanning (d : PassDue) (e n : Nat) : State :=
  { prep [(aScn 8, 0x01020202), (aScn 0xC, word (3 * 2 ^ 16 + n)), (aScn 0x10, 0x30001), (aScn 0x2C, 0x100), (aScn 0x28, 4)] with
    sys := { mode := .run }, scan := { passes := [d], latch := 0x200, on := true }
    mem := writeBytes [] (wardKey 3) (leBytes 8 e) }
/-- A local input pass has started with one entry to go. -/
def walking : PassRun := { kind := .localIn, c := 0x4000, miss := false, todo := [.entry 3, .tail], q := [], buf := [], cost := 4, start := 990, regs := [] }
def inPass (cuts : List Nat) : State := { scanning dueIn wardIn 1 with scan := { run := some walking, cuts := cuts } }
/-- The flip of the tick has not acted. -/
def stalled : State := { scanning dueIn wardIn 1 with scan := { passes := [dueIn], flipDue := true } }
/-- A local input pass is due and its first command only starts it. -/
def cutIn : State := { scanning dueIn wardIn 1 with scan := { passes := [dueIn], cuts := [0] } }

/-- Hypotheses of Passes: each kind of pass as it is due, a local input, an output, a chain input pass with and without a good
copy; a pass that runs, and another kind beside it. -/
theorem witness_Passes :
    ((scanning dueIn wardIn 1).running = true ∧ Clean (scanning dueIn wardIn 1) ∧ (scanning dueIn wardIn 1).paired = false ∧ (scanning dueIn wardIn 1).scan.passes = [dueIn] ∧ (scanning dueIn wardIn 1).scan.run = none ∧ (scanning dueIn wardIn 1).scan.cuts = [] ∧ (scanning dueIn wardIn 1).scan.flipDue = false ∧ (scanning dueIn wardIn 1).upd.due = false
      ∧ (scanning dueIn wardIn 1).ward 3 = wardIn ∧ (scanning dueIn wardIn 1).isExt 3 = false ∧ (scanning dueIn wardIn 1).invalid 3 wardIn = false ∧ wType wardIn = 0 ∧ wSrc wardIn = 0
      ∧ wLoc wardIn / 8 ≠ 0x100 / 8 ∧ (0x100 + 8 * (3 / 64)) % 8 = 0 ∧ ((scanning dueIn wardIn 1).reg (aScn 0x2C)).toNat = 0x100
      ∧ wKind wardIn = 1 ∧ fld ((scanning dueIn wardIn 1).reg (aScn 0xC)) 0 15 = 1 ∧ fld ((scanning dueIn wardIn 1).reg (aScn 0xC)) 16 14 = 3
      ∧ (tabGet {} (scanning dueIn wardIn 1).scan.filt 3).seen = false ∧ dueIn.kind = .localIn)
    ∧ ((scanning dueOut wardOut 1).running = true ∧ Clean (scanning dueOut wardOut 1) ∧ (scanning dueOut wardOut 1).paired = false ∧ (scanning dueOut wardOut 1).scan.passes = [dueOut] ∧ (scanning dueOut wardOut 1).scan.run = none ∧ (scanning dueOut wardOut 1).scan.cuts = [] ∧ (scanning dueOut wardOut 1).scan.flipDue = false ∧ (scanning dueOut wardOut 1).upd.due = false
      ∧ (scanning dueOut wardOut 1).ward 3 = wardOut ∧ (scanning dueOut wardOut 1).isExt 3 = false ∧ (scanning dueOut wardOut 1).invalid 3 wardOut = false ∧ wType wardOut = 0 ∧ wSrc wardOut = 0
      ∧ wLoc wardOut / 8 ≠ 0x100 / 8 ∧ (0x100 + 8 * (3 / 64)) % 8 = 0 ∧ ((scanning dueOut wardOut 1).reg (aScn 0x2C)).toNat = 0x100
      ∧ wKind wardOut = 2 ∧ (scanning dueOut wardOut 1).sys.mode = .run ∧ (scanning dueOut wardOut 1).scan.bufs = [] ∧ dueOut.kind = .output
      ∧ fld ((scanning dueOut wardOut 1).reg (aScn 0x10)) 0 15 = 1 ∧ fld ((scanning dueOut wardOut 1).reg (aScn 0x10)) 16 14 = 3)
    ∧ ((scanning dueChain wardIn 0).running = true ∧ Clean (scanning dueChain wardIn 0) ∧ (scanning dueChain wardIn 0).paired = false ∧ (scanning dueChain wardIn 0).scan.passes = [dueChain] ∧ (scanning dueChain wardIn 0).scan.run = none ∧ (scanning dueChain wardIn 0).scan.cuts = [] ∧ (scanning dueChain wardIn 0).scan.flipDue = false ∧ (scanning dueChain wardIn 0).upd.due = false
      ∧ (scanning dueChain wardIn 0).ward 3 = wardIn ∧ (scanning dueChain wardIn 0).isExt 3 = false ∧ (scanning dueChain wardIn 0).invalid 3 wardIn = false ∧ wType wardIn = 0 ∧ wSrc wardIn = 0
      ∧ wLoc wardIn / 8 ≠ 0x100 / 8 ∧ (0x100 + 8 * (3 / 64)) % 8 = 0 ∧ ((scanning dueChain wardIn 0).reg (aScn 0x2C)).toNat = 0x100
      ∧ fld ((scanning dueChain wardIn 0).reg (aScn 0xC)) 0 15 = 0 ∧ dueChain.kind = .chainIn ∧ dueChain.miss = false
      ∧ (scanning dueChain wardIn 0).window 0x24 + (scanning dueChain wardIn 0).rxLen ≤ (scanning dueChain wardIn 0).layout.2.1 ∧ (scanning dueChain wardIn 0).layout.2.1 ≤ 0x60000)
    ∧ ((scanning dueMiss wardIn 0).running = true ∧ Clean (scanning dueMiss wardIn 0) ∧ (scanning dueMiss wardIn 0).paired = false ∧ (scanning dueMiss wardIn 0).scan.passes = [dueMiss] ∧ (scanning dueMiss wardIn 0).scan.run = none ∧ (scanning dueMiss wardIn 0).scan.cuts = [] ∧ (scanning dueMiss wardIn 0).scan.flipDue = false ∧ (scanning dueMiss wardIn 0).upd.due = false
      ∧ (scanning dueMiss wardIn 0).ward 3 = wardIn ∧ (scanning dueMiss wardIn 0).isExt 3 = false ∧ (scanning dueMiss wardIn 0).invalid 3 wardIn = false ∧ wType wardIn = 0 ∧ wSrc wardIn = 0
      ∧ wLoc wardIn / 8 ≠ 0x100 / 8 ∧ (0x100 + 8 * (3 / 64)) % 8 = 0 ∧ ((scanning dueMiss wardIn 0).reg (aScn 0x2C)).toNat = 0x100
      ∧ dueMiss.kind = .chainIn ∧ dueMiss.miss = true)
    ∧ ((inPass []).running = true ∧ (inPass []).scan.run = some walking ∧ walking.kind = .localIn ∧ (inPass []).paired = false
      ∧ (inPass []).scan.cuts = [] ∧ walking.kind ≠ .output ∧ (inPass [1]).scan.cuts = 1 :: [] ∧ (inPass [1]).scan.run = some walking
      ∧ .tail ∉ walking.todo.take 1)
    ∧ (stalled.running = true ∧ stalled.scan.flipDue = true ∧ stalled.scan.run = none)
    ∧ (cutIn.running = true ∧ cutIn.scan.flipDue = false ∧ cutIn.scan.run = none ∧ cutIn.scan.passes = [dueIn] ∧ cutIn.scan.cuts = 0 :: [])
    ∧ (prep.scan.run = none ∧ (∀ y ∈ prep.scan.passes, y.kind ≠ .output)) := by
  repeat' apply And.intro
  all_goals decide +kernel

/-- A descriptor of one word with release and last, at the end of image memory; `acq` adds the acquisition. -/
def moved : Desc := descOf 0x40000100 0x40000200 0x00010090 0
def inside : Chan := { run := true, desc := some moved }
/-- Descriptors into the SRAM of engine 15 and from an address that no range holds. -/
def local_ : Chan := { inside with desc := some (descOf 0x40000100 0x1F010000 0x00010090 0) }
def nowhere : Chan := { inside with desc := some (descOf 0x30000000 0x40000200 0x00010090 0) }
def between : Chan := { run := true }
def retrying : Chan := { run := true, lockw := true, retryAt := 1010 }
def moving (c : Chan) (l : Tab Lock) (acq : Word) : State :=
  { prep [(aSh 31 8, 0x4005FFF0), (aSh 31 0xC, 0x40000500)] with
    engines := [(15, { power := .on })], chans := [(31, c)], tum := { locks := l }
    mem := writeWord (writeWord (writeWord [] 0x4005FFF0 0x40000100) 0x4005FFF4 0x40000200) 0x4005FFF8 (0x00010090 + acq) }

/-- Hypotheses of Shuttle for the last channel. -/
theorem witness_Shuttle :
    ((moving {} [] 0).sameNow.tumRank = 0 ∧ (moving {} [] 0).running = true ∧ Settled (moving {} [] 0) ∧ Lands 290 (aSh 31 0) 1 (moving {} [] 0) ∧ ((moving {} [] 0).chan 31).run = false)
    ∧ (Lands 290 (aSh 31 0) 2 (moving inside [] 0) ∧ ((moving inside [] 0).chan 31).run = true ∧ ((moving inside [] 0).chan 31).lockw = false
      ∧ ((moving inside [] 0).chan 31).desc.isSome = true)
    ∧ (Lands 290 (aSh 31 0) 2 (moving between [] 0) ∧ ((moving between [] 0).chan 31).desc = none ∧ ((moving between [] 0).chan 31).lock = none)
    ∧ (Lands 290 (aSh 31 0) 4 (moving {} [] 0) ∧ (moving {} [] 0).tum.waiters = [])
    ∧ (Clean (moving between [] 0) ∧ ((moving between [] 0).reg (aSh 31 8)).toNat = 0x4005FFF0 ∧ inImage 0x4005FFF0 = true ∧ 0x4005FFF0 % 16 = 0
      ∧ moved.ok 0x00010090 = true ∧ readWord (moving between [] 0).mem (0x4005FFF0 + 8) = 0x00010090 ∧ moved.acq = false)
    ∧ (readWord (moving between [] 0x40).mem (0x4005FFF0 + 8) = 0x000100D0 ∧ (descOf 0x40000100 0x40000200 0x000100D0 0).acq = true
      ∧ (descOf 0x40000100 0x40000200 0x000100D0 0).ok 0x000100D0 = true
      ∧ tabFind (moving between [] 0x40).tum.locks ((moving between [] 0x40).shLock 31) = none ∧ (moving between [] 0x40).tum.locks.length < 4096)
    ∧ (inside.desc = some moved ∧ (moving inside [] 0).shNext = some 31 ∧ inside.stopReq = false ∧ Clean (moving inside [] 0) ∧ inImage (moved.srcAt 0) = true
      ∧ moved.srcAt 0 % moved.size = 0 ∧ inImage (moved.dstAt 0) = true ∧ moved.dstAt 0 % moved.size = 0)
    ∧ ((moving local_ [] 0).shNext = some 31 ∧ engAddr ((descOf 0x40000100 0x1F010000 0x00010090 0).dstAt 0) = some (15, 0x10000)
      ∧ (moving local_ [] 0).islandOn 15 = true ∧ ((moving local_ [] 0).eng 15).localMerge = none ∧ local_.desc = some (descOf 0x40000100 0x1F010000 0x00010090 0))
    ∧ ((moving nowhere [] 0).shNext = some 31 ∧ nowhere.lock = none ∧ Raisable (513 + 2 * 31) (moving nowhere [] 0)
      ∧ inRegs ((descOf 0x30000000 0x40000200 0x00010090 0).srcAt 0) = false ∧ inImage ((descOf 0x30000000 0x40000200 0x00010090 0).srcAt 0) = false
      ∧ inWard ((descOf 0x30000000 0x40000200 0x00010090 0).srcAt 0) = false ∧ engAddr ((descOf 0x30000000 0x40000200 0x00010090 0).srcAt 0) = none)
    ∧ ((moving {} [] 0).shNext ≠ some 31)
    ∧ (moved.count ≤ ({ inside with done := 1 } : Chan).done ∧ Raisable (512 + 2 * 31) (moving { inside with done := 1 } [] 0)
      ∧ ({ inside with done := 1 } : Chan).lockw = false ∧ ({ inside with done := 1 } : Chan).stopReq = false
      ∧ (moving { inside with done := 1 } [] 0).tum.waiters = [] ∧ ({ inside with done := 1 } : Chan).run = true)
    ∧ (((moving retrying [] 0).chan 31).lockw = true ∧ tabFind (moving retrying [] 0).tum.locks ((moving retrying [] 0).shLock 31) = none)
    ∧ (tabFind (moving retrying [(0x40000500, .held 1)] 0).tum.locks ((moving retrying [(0x40000500, .held 1)] 0).shLock 31) = some (.held 1)
      ∧ 1 ≠ 256 + 31) := by
  repeat' apply And.intro
  all_goals first | decide +kernel | exact lands_of (by decide +kernel)

/-- Both ports enabled; the mode, the address, which ports are up. -/
def chained (m : Mode) (addr : Word) (a b : Bool) : State :=
  { prep [(aCh 8, addr), (aCh 0, 0x303)] with chain := { upA := a, upB := b }, sys := { mode := m } }

/-- Hypotheses of ChainPorts: both states of the ports, hop counts at the limit, addresses at both ends. -/
theorem witness_ChainPorts :
    ((chained .preparation 5 false true).portEn .a = true ∧ (chained .preparation 5 false true).portUp .a = false ∧ Raisable 581 (chained .preparation 5 false true))
    ∧ ((chained .preparation 5 true true).portUp .a = true ∧ Raisable 581 (chained .preparation 5 true true))
    ∧ ((chained .preparation 5 true true).hears .a = true ∧ (frame 7 9 3 []).type ∈ [1, 2, 3, 5, 6, 7]
      ∧ (chained .preparation 5 true true).consumes (frame 7 9 3 []) = false ∧ ({ frame 7 9 3 [] with hops := 599 } : Frame).hops.toNat < 600
      ∧ (chained .preparation 5 true true).portUp .b = true)
    ∧ ((chained .preparation 5 true false).portUp (otherPort .a) = false ∧ (chained .preparation 5 true false).hears .a = true)
    ∧ (600 ≤ ({ frame 7 9 3 [] with hops := 600 } : Frame).hops.toNat)
    ∧ ((chained .preparation 5 true true).consumes (frame 7 5 3 []) = true ∧ (chained .preparation 5 true true).hears .a = true
      ∧ (frame 7 5 3 []).good = true)
    ∧ (({ frame 7 5 3 [] with good := false } : Frame).good = false ∧ ({ frame 7 5 3 [] with good := false } : Frame).type ∈ [1, 2, 3, 5, 6, 7]
      ∧ (chained .preparation 5 true true).portUp .b = true)
    ∧ ((chained .preparation 5 true true).consumes (frame 0 5 3 [1, 0]) = true ∧ (chained .unaddressed 0 true true).consumes (frame 0 255 0 [254, 0]) = false
      ∧ (chained .preparation 5 true true).consumes (frame 0 255 3 [1, 0]) = false)
    ∧ ((frame 8 5 3 []).good = true ∧ 8 ≤ (frame 8 5 3 []).type.toNat ∧ (frame 8 5 3 []).hops.toNat < 600 ∧ (frame 7 5 3 []).type.toNat < 8)
    ∧ ((chained .unaddressed 0 true true).sys.mode = .unaddressed ∧ field (frame 0 255 0 [254, 0]).payload 0 1 = 254
      ∧ (chained .unaddressed 0 true true).portUp (otherPort .a) = true ∧ (frame 0 255 0 [254, 0]).wrap = false)
    ∧ (field (frame 0 255 0 [1, 0]).payload 0 1 = 1 ∧ ¬ field (frame 0 255 0 [1, 0]).payload 1 1 % 2 = 1
      ∧ (chained .preparation 5 true true).sys.mode ≠ .unaddressed) := by
  repeat' apply And.intro
  all_goals decide +kernel

/-- A TICK frame with period and offset. -/
def tick (per coff : Nat) : Frame :=
  frame 3 255 3 (leBytes 8 0x1000 ++ leBytes 4 9 ++ leBytes 4 per ++ leBytes 4 coff ++ [3, 0, 0, 0] ++ [1, 2, 3])
def plan : Sched := { i := 0x1000, p := 2000, coff := 5 }
/-- In Run with the schedule and the count of lost ticks; LOSSLIM is 3. -/
def ticking (x : Option Sched) (lost : Nat) : State :=
  { prep [(aCh 8, 5), (aCh 0, 0x303), (aChStat, word (lost * 2 ^ 20))] with
    chain := { upA := true, upB := true, sched := x, ti := 0x1000, per := 2000, coff := 7 }, sys := { mode := .run } }
def collected : State := { ticking (some plan) 0 with chain := { (ticking (some plan) 0).chain with good := true, done := true } }

/-- Hypotheses of TickSchedule: period and offset at their bounds, a malformed frame, a repeat, a record of the last address, the
instants, a lost tick below and at the limit, a complete exchange. -/
theorem witness_TickSchedule :
    ((ticking none 0).hears .a = true ∧ (ticking none 0).localSched = false ∧ (ticking none 0).chain.good = false ∧ (ticking none 0).chain.sched = none
      ∧ (tick 2000 1999).good = true ∧ (tick 2000 1999).record = false ∧ (tick 2000 1999).type = 3
      ∧ 24 ≤ (tick 2000 1999).payload.length ∧ field (tick 2000 1999).payload 12 4 = 2000 ∧ field (tick 2000 1999).payload 16 4 = 1999)
    ∧ (field (tick 2000000 1).payload 12 4 = 2000000 ∧ field (tick 2000000 1).payload 16 4 = 1)
    ∧ ((ticking (some plan) 0).chain.sched = some plan ∧ plan.i = BitVec.ofNat 64 (field (tick 2000 1999).payload 0 8))
    ∧ ((ticking (some { plan with i := 0x999 }) 0).chain.sched = some { plan with i := 0x999 } ∧ ({ plan with i := 0x999 } : Sched).i ≠ BitVec.ofNat 64 (field (tick 2000 1999).payload 0 8))
    ∧ (field (tick 1999 5).payload 12 4 = 1999 ∧ ¬ 2000 ≤ 1999)
    ∧ (({ frame 3 255 254 [1, 2] with record := true } : Frame).record = true ∧ (254 : Byte).toNat ≠ (ticking none 0).addr
      ∧ (ticking none 0).chain.done = false ∧ 254 ∉ (ticking none 0).chain.got ∧ 254 ≤ 254)
    ∧ ((ticking (some { plan with half := true, commit := true }) 0).running = true ∧ (ticking (some { plan with half := true, commit := true }) 0).paired = false
      ∧ (ticking (some { plan with half := true, commit := true }) 0).upd.due = false
      ∧ (ticking (some { plan with half := true, commit := true }) 0).upd.armed = none
      ∧ bit ((ticking (some { plan with half := true, commit := true }) 0).reg (aHfCh 576)) 31 = false)
    ∧ (plan.half = false ∧ collected.chain.good = true ∧ collected.chain.done = true ∧ bit (collected.reg (aHfCh 577)) 31 = false
      ∧ collected.chain.sched = some plan ∧ collected.localSched = false
      ∧ { collected with chain := { collected.chain with done := false } }.chain.done = false)
    ∧ ((ticking (some plan) 1).chain.good = false ∧ min 15 (fld ((ticking (some plan) 1).reg aChStat) 20 4 + 1) < fld ((ticking (some plan) 1).reg (aCh 0)) 8 4)
    ∧ (fld ((ticking (some plan) 2).reg (aCh 0)) 8 4 ≤ min 15 (fld ((ticking (some plan) 2).reg aChStat) 20 4 + 1) ∧ (ticking (some plan) 2).sys.mode = .run
      ∧ bit ((ticking (some plan) 2).reg (aHfCh 577)) 31 = false)
    ∧ ({ collected with chain := { collected.chain with done := false } }.allCollected = true ∧ 1 ≤ collected.addr ∧ collected.addr ≤ 254
      ∧ collected.scan.tx.length ≤ 256) := by
  repeat' apply And.intro
  all_goals decide +kernel

/-- A TIME frame of the kind. -/
def distribution (kind : Nat) : Frame := frame 4 255 3 (timePayload kind 0 0x100 0x200 0x300)
/-- Port A with the delay samples and a probe under way; TB_STAT. -/
def measuring (l : List Int) (stat : Word) : State :=
  { prep [(aCh 8, 5), (aCh 0, 0x303), (aTbStat, stat)] with
    chain := { upA := true, upB := true, probeA := { samples := l, sent := some 100 }, servo := { since := 500 } } }
/-- The own-frame window has opened in the given cycle. -/
def windowed (c : Nat) : State :=
  { measuring [] 0 with
    chain := { (measuring [] 0).chain with sched := some { i := 0, p := 2000000, coff := 5, half := true }, opened := c } }

/-- Hypotheses of ChainTime: a port with and without a measured delay, the applied frame, probes, SYNC's end. -/
theorem witness_ChainTime :
    ((measuring [5, 6, 7, 8] 0).hears .a = true ∧ (distribution 0).type = 4 ∧ field (distribution 0).payload 0 1 = 0 ∧ (distribution 0).hops.toNat < 600
      ∧ (measuring [5, 6, 7, 8] 0).portUp (otherPort .a) = true ∧ (measuring [5, 6, 7, 8] 0).measured .a = true
      ∧ (measuring [5, 6, 7, 8] 0).consumes (distribution 0) = false
      ∧ (measuring [5, 6, 7, 8] 0).consumes { distribution 0 with dst := 5 } = true)
    ∧ ((measuring [5, 6, 7] 0).measured .a = false ∧ (measuring [5, 6, 7] 0).consumes (distribution 0) = false
      ∧ ({ distribution 0 with good := false } : Frame).good = false)
    ∧ (field (distribution 0).payload 1 1 % 2 = 0 ∧ bit ((measuring [5, 6, 7, 8] 0).reg aTbCtl) 0 = false ∧ (measuring [5, 6, 7, 8] 0).chain.servo.t0 = none)
    ∧ ((measuring [5, 6, 7] 0).measures .a = true ∧ (measuring [5, 6, 7] 0).chain.sched = none)
    ∧ ((windowed 300000).inWindow 32 = true ∧ (windowed 300000).measures .a = true
      ∧ ((windowed 300000).probe .a).sent.elim 0 (· + 200000) ≤ (windowed 300000).chain.opened)
    ∧ ((windowed 900).chain.sched ≠ none ∧ (windowed 900).chain.opened < ((windowed 900).probe .a).sent.elim 0 (· + 200000) ∧ (windowed 900).measures .a = true)
    ∧ (field (distribution 1).payload 0 1 = 1 ∧ field (distribution 2).payload 0 1 = 2 ∧ field (distribution 3).payload 0 1 = 3 ∧ ((measuring [5, 6, 7] 0).probe .a).sent.isSome = true)
    ∧ (bit ((measuring [] 0x80000000).reg aTbStat) 31 = true ∧ bit ((measuring [] 0x80000000).reg aTbCtl) 0 = false ∧ (measuring [] 0x80000000).untilUp = 0
      ∧ Raisable 580 ((measuring [] 0x80000000).atCycle (500 + 20000000))) := by
  repeat' apply And.intro
  all_goals decide +kernel

def queued (l : List OwnFrame) : State :=
  { prep [(aCh 8, 5), (aCh 0, 0x303)] with chain := { upA := true, upB := true, own := l, ti := 0x123456789A } }
/-- The window of the own frames has not opened. -/
def shut : State :=
  { queued [⟨1, 3, 4, [1, 2]⟩] with
    chain := { (queued [⟨1, 3, 4, [1, 2]⟩]).chain with sched := some { i := 0x1000, p := 2000, coff := 5 } } }
def evented : Frame := frame 5 255 3 ([47, 0, 0, 0, 0, 0, 0, 0] ++ leBytes 8 0x1234 ++ [1, 2, 3, 4, 5, 6, 7, 8])
def firmware : Frame := frame 6 255 3 [1, 0, 0, 0, 0, 0, 0, 0, 0x80, 0, 0, 0]

/-- Hypotheses of ChainFrames: a new event of the last number and a repeat, room for an EVENT frame and none, an own frame to
send, a frame for firmware. -/
theorem witness_ChainFrames :
    ((queued []).hears .a = true ∧ (evented).type = 5 ∧ evented.dst = 255 ∧ evented.src.toNat ≠ (queued []).addr ∧ field evented.payload 0 1 = 47
      ∧ evented.payload.length = 24 ∧ evented.seq ∉ tabGet [] (queued []).chain.dups (256 * 5 + 3) ∧ Raisable (592 + 47) (queued []))
    ∧ ((9 : Byte) ∈ tabGet [] ({ queued [] with chain := { (queued []).chain with dups := [(256 * 5 + 3, [9])] } } : State).chain.dups (256 * 5 + 3))
    ∧ (Lands 290 (aCh 0x40) 0x12F (queued [⟨5, 3, 4, []⟩, ⟨5, 3, 4, []⟩, ⟨5, 3, 4, []⟩]) ∧ fld 0x12F 0 6 = 47
      ∧ ((queued [⟨5, 3, 4, []⟩, ⟨5, 3, 4, []⟩, ⟨5, 3, 4, []⟩]).chain.own.filter fun x => x.type == 5).length < 4)
    ∧ (Lands 290 (aCh 0x40) 0x2F (queued (List.replicate 4 ⟨5, 3, 4, []⟩))
      ∧ 4 ≤ ((queued (List.replicate 4 ⟨5, 3, 4, []⟩)).chain.own.filter fun x => x.type == 5).length)
    ∧ ((queued [⟨1, 3, 4, [1, 2]⟩]).chain.own = [⟨1, 3, 4, [1, 2]⟩] ∧ (queued [⟨1, 3, 4, [1, 2]⟩]).inWindow 2 = true
      ∧ (queued [⟨1, 3, 4, [1, 2]⟩]).chain.train = [] ∧ (queued [⟨1, 3, 4, [1, 2]⟩]).islesUp = true
      ∧ (queued [⟨1, 3, 4, [1, 2]⟩]).chain.upA = true ∧ (queued [⟨1, 3, 4, [1, 2]⟩]).chain.upB = true ∧ (1 : BitVec 4) ≠ 5)
    ∧ ((queued [⟨2, 3, 4, [1, 2]⟩]).chain.own = [⟨2, 3, 4, [1, 2]⟩] ∧ (queued [⟨2, 3, 4, [1, 2]⟩]).inWindow 2 = true)
    ∧ ((queued [⟨5, 255, 4, [47]⟩]).chain.own = [⟨5, 255, 4, [47]⟩] ∧ Raisable (592 + field [47] 0 1) (queued [⟨5, 255, 4, [47]⟩]))
    ∧ (shut.chain.own = [⟨1, 3, 4, [1, 2]⟩] ∧ shut.chain.train = [] ∧ shut.inWindow 2 = false)
    ∧ ((firmware).type = 6 ∧ firmware.dst = 255 ∧ firmware.payload.length = 12 ∧ 128 ≤ field firmware.payload 8 1
      ∧ bit ((queued []).reg (aCh 0x54)) 31 = false ∧ Raisable 584 (queued []) ∧ firmware.seq ∉ tabGet [] (queued []).chain.dups (256 * 6 + 3))
    ∧ (Lands 290 (aCh 0x54) 1 (queued []) ∧ Lands 290 (aCh 0) ((queued []).keepWith (aCh 0) 8) (queued []) ∧ (queued []).portEn .a = true
      ∧ (queued []).portEn .b = true ∧ fld ((queued []).reg (aCh 0)) 8 4 ≠ 0)
    ∧ (Answers 290 (aCh 0x10) (queued [])) := by
  repeat' apply And.intro
  all_goals first | decide +kernel | exact lands_of (by decide +kernel) | exact reaches_of (by decide +kernel) | exact answers_of (by decide +kernel)

/-- A frame of the partner: offset, flags, length of its data. -/
def mirror (off flags n : Nat) : Frame :=
  frame 7 5 3 ([9, 0, 0, 0] ++ leBytes 2 off ++ [BitVec.ofNat 8 flags, 0] ++ List.replicate n 1)
def partner : Peer := ⟨9, 3, false, false, false, 0, 16, 0, 0⟩
/-- A paired unit past its half-tick instant. -/
def shackled (m : Mode) (dead : Word) (p : Option Peer) : State :=
  { prep [(aCh 8, 5), (aCh 0, 0x307), (aCh 0xC, 9), (aShk 0, 1), (aShk 4, 3), (aShk 8, dead), (aShk 0xC, 0x00080010),
      (aShk 0x10, 0x00080020)] with
    chain := { upA := true, upB := true, sched := some { i := 0x1000, p := 200000, coff := 5, half := true }, ti := 0x1000, tn := 9 }
    sys := { mode := m }, shk := { snap := true, peer := p, localDone := true, ranges := [(0, 32)] } }
/-- The tick instant has passed and its TICK frame has not come. -/
def between9 : State :=
  { shackled .run 0 none with chain := { (shackled .run 0 none).chain with tn := 10 } }

/-- Hypotheses of ShackleUnit: a partial frame at the end of the buffer and the final one, a train to send, a mirror to apply, the
deadline. -/
theorem witness_ShackleUnit :
    ((shackled .run 0 none).hears .a = true ∧ (mirror (16384 - 3) 0 3).type = 7 ∧ (mirror (16384 - 3) 0 3).dst.toNat = (shackled .run 0 none).addr
      ∧ (mirror (16384 - 3) 0 3).seq ∉ tabGet [] (shackled .run 0 none).chain.dups (256 * 7 + 3) ∧ (3 : Nat) = (shackled .run 0 none).paddr
      ∧ word (field (mirror (16384 - 3) 0 3).payload 0 4) = (shackled .run 0 none).reg (aCh 0xC)
      ∧ field (mirror (16384 - 3) 0 3).payload 4 2 + ((mirror (16384 - 3) 0 3).payload.length - 8) = 16384
      ∧ field (mirror (16384 - 3) 0 3).payload 6 1 % 2 = 0)
    ∧ (field (mirror 0 1 16).payload 6 1 % 2 = 1 ∧ field (mirror 0 1 16).payload 4 2 = 0 ∧ (mirror 0 1 16).payload.length - 8 = 16
      ∧ (shackled .run 0 none).chain.tn = (shackled .run 0 none).reg (aCh 0xC) ∧ (between9.chain.tn ≠ between9.reg (aCh 0xC)))
    ∧ ((mirror 0 1 16).src.toNat ≠ 4 ∧ word (field ({ mirror 0 1 16 with payload := 8 :: (mirror 0 1 16).payload.drop 1 } : Frame).payload 0 4) ≠ (shackled .run 0 none).reg (aCh 0xC))
    ∧ ((shackled .run 0 none).paired = true ∧ (shackled .run 0 none).shk.snap = true ∧ ((shackled .run 0 none).chain.sched.any fun x => x.half) = true
      ∧ field (readBytes (shackled .run 0 none).mem aShTx 16) 4 2 = 0 ∧ (shackled .run 0 none).inWindow 24 = true ∧ (shackled .run 0 none).islesUp = true
      ∧ (shackled .run 0 none).chain.upA = true ∧ (shackled .run 0 none).chain.upB = true ∧ (shackled .run 0 none).sys.mode.scans = true ∧ (shackled .run 0 none).chain.train = [])
    ∧ ((shackled .tracking 0xFFFFF (some partner)).shk.peer = some partner ∧ partner.mode = 3 ∧ partner.tn = (shackled .tracking 0xFFFFF (some partner)).chain.tn ∧ (shackled .tracking 0xFFFFF (some partner)).shkWin 0xC = (16, 8)
      ∧ (shackled .tracking 0xFFFFF (some partner)).shkWin 0x10 = (32, 8) ∧ partner.mirlen = 8 + 8
      ∧ (shackled .tracking 0xFFFFF (some partner)).shk.localDone = true
      ∧ covered (shackled .tracking 0xFFFFF (some partner)).shk.ranges 16 (16 + partner.mirlen) = true
      ∧ later (shackled .tracking 0xFFFFF (some partner)).now (shackled .tracking 0xFFFFF (some partner)).deadline = false
      ∧ Clean (shackled .tracking 0xFFFFF (some partner)) ∧ 16 + 8 ≤ 32 ∧ (shackled .tracking 0xFFFFF (some partner)).shk.applied = false
      ∧ (shackled .tracking 0xFFFFF (some partner)).shk.late = false ∧ (shackled .tracking 0xFFFFF (some partner)).running = true)
    ∧ ((shackled .tracking 0 none).shk.applied = false ∧ (shackled .tracking 0 none).shk.late = false ∧ (shackled .tracking 0 none).chain.sched.isSome = true)
    ∧ (Lands 290 (aShk 0) ((shackled .run 0 none).keepWith (aShk 0) 2) (shackled .run 0 none)
      ∧ Lands 290 (aShk 0) ((shackled .run 0 none).keepWith (aShk 0) 8) (shackled .run 0 none)
      ∧ Lands 290 (aShk 0) ((shackled .run 0 none).keepWith (aShk 0) 4) (shackled .run 0 none)) := by
  repeat' apply And.intro
  all_goals first | decide +kernel | exact lands_of (by decide +kernel)

/-- Addressed, both ports up; open transfers; the firmware buffer enabled. -/
def served (l : List Transfer) (regs : Tab Word) : State :=
  { prep ((aCh 8, 5) :: regs) with chain := { upA := true, upB := true }, agent := { transfers := l } }
def ranServed (l : List Transfer) : State := { served l [] with sys := { mode := .run } }
/-- The frame of a read of 0x2000 with the subindex, waiting; an earlier request is served by firmware or none is. -/
def readBytesOf (sub : Nat) : Byte × Bool × List Byte := (9, false, dictPayload (request 0x2000 sub) 1 false 0 [])
def waitsFor (sub : Nat) (free : Bool) : State :=
  { served [] [] with
    agent := { queue := [readBytesOf sub], fw := if free then none else some ⟨request 0xA000 1, 1, 900⟩ } }
/-- The subindex is the object. -/
def found (s : State) (ix sub : Nat) (o : Obj) : Bool := match s.lookup ix sub with | .ok x => x == o | .error _ => false

/-- Hypotheses of Dictionary: listed and unlisted commands, an absent index, both ways for a subindex to be absent, the number of
subindices, each access code, a register. -/
theorem witness_Dictionary :
    ((served [] []).hears .a = true ∧ (frame 1 5 3 [6, 1, 0, 0x20, 1, 0, 0, 0]).type = 1 ∧ (5 : Nat) = (served [] []).addr ∧ (served [] []).sys.straps.dictsrc ≠ 1
      ∧ (9 : Byte) ∉ tabGet [] (served [] []).chain.dups (256 + 3) ∧ field (frame 1 5 3 [6, 1, 0, 0x20, 1, 0, 0, 0]).payload 0 1 % 16 = 6)
    ∧ (field (frame 1 5 3 [7, 1, 0, 0x20, 1, 0, 0, 0]).payload 0 1 % 16 = 7 ∧ 8 ≤ (frame 1 5 3 [6, 1, 0, 0x20, 1, 0, 0, 0]).payload.length)
    ∧ ((waitsFor 0 false).agentReady .chain = false ∧ (waitsFor 1 true).agentReady .chain = true ∧ (waitsFor 1 true).sys.mode ≠ .recall
      ∧ (waitsFor 1 true).agent.queue = [readBytesOf 1] ∧ (waitsFor 1 true).lrp.busy = false
      ∧ requestKey (readBytesOf 1) = requestKey (9, false, dictPayload (request 0x2000 1) 1 false 0 [])
      ∧ requestKey (readBytesOf 2) ≠ requestKey (9, false, dictPayload (request 0x2000 1) 1 false 0 []))
    ∧ (Asked (request 0x3FFF 0) (served [] []) ∧ ((served [] []).object 0x3FFF).isNone = true ∧ ¬ (0xA000 ≤ 0x3FFF ∧ 0x3FFF < 0xC000))
    ∧ ((served [] []).object 0x2010 = some (.one ⟨.wo, .fixed 4, .reset⟩) ∧ (request 0x2010 1).sub.toNat ≠ 0)
    ∧ (((served [] []).object 0x2000).any (fun o => match o with | .recd top _ => top == 4 | _ => false) = true ∧ 4 < (request 0x2000 5).sub.toNat)
    ∧ (Asked (request 0x2000 1) (served [] []) ∧ (request 0x2000 1).index = 0x2000 ∧ (request 0x2000 1).sub = 1)
    ∧ (found (served [] []) 0x2010 0 ⟨.wo, .fixed 4, .reset⟩ = true ∧ found (served [] []) 0x1013 0 ⟨.ro, .domain 16384, .buf aShRx 16384⟩ = true
      ∧ found (served [] []) 0x3003 0 ⟨.rwp, .domain 65536, .eng 0 0 65536⟩ = true ∧ found (served [] []) 0x1014 0 ⟨.rw, .domain 16384, .shtx⟩ = true)
    ∧ (found (served [] []) 0x6100 1 ⟨.rw, .fixed 4, .session⟩ = true ∧ (served [] []).sys.mode = .preparation ∧ (ranServed []).sys.mode ≠ .preparation)
    ∧ (found (served [] []) 0x3800 2 ⟨.rw, .fixed 4, .reg 0x500F3004⟩ = true ∧ found (served [] []) 0x2000 1 ⟨.ro, .fixed 1, .val [2] false⟩ = true
      ∧ 0x500F3004 ∈ plainRegs ∧ (regRow 0x500F3004).isSome = true
      ∧ (served [] []).gated 0x500F3004 = false ∧ (served [] []).writeHeld 0x500F3004 = false ∧ mayWrite 288 0x500F3004 5 = true
      ∧ (served [] []).kpr.save = none) := by
  repeat' apply And.intro
  all_goals first | decide +kernel | exact asked_of (by decide +kernel) | rfl

/-- A transfer of 2,000 bytes of which one segment of 1,016 has been served. -/
def opened (tag : Byte) (ix : Nat) (write : Bool) : Transfer :=
  { src := .chain, tag := tag, index := ix, sub := 0, write := write, total := 2000, pos := 1016, seg := 1, segAt := 0
    segLen := 1016, staged := [], since := 5 }

/-- Hypotheses of DictionarySegments: initiates with three and with four open transfers, totals of 0 and at the maximum, the
next, the repeated and a wrong segment, the last one, an abort, a timeout. -/
theorem witness_DictionarySegments :
    (Asked (request 0x1013 0) (served [opened 1 0x1010 false] []) ∧ found (served [opened 1 0x1010 false] []) 0x1013 0 ⟨.ro, .domain 16384, .buf aShRx 16384⟩ = true
      ∧ ([opened 1 0x1010 false].filter fun t => !(t.src == .chain && t.tag == 0x33)).length < 4
      ∧ (∀ t ∈ [opened 1 0x1010 false], t.index ≠ (request 0x1013 0).index.toNat) ∧ 16384 < 2 ^ 32 ∧ 0 < 16384)
    ∧ (found (served [] []) 0x1010 0 ⟨.ro, .domain 1000, .buf (aCh 0x1000) 0⟩ = true)
    ∧ (found (served [] []) 0x1014 0 ⟨.rw, .domain 16384, .shtx⟩ = true ∧ leNat [0, 0x40, 0, 0] = 16384 ∧ leNat [1, 0x40, 0, 0] = 16385)
    ∧ (4 ≤ ([opened 1 1 false, opened 2 2 false, opened 3 3 false, opened 4 4 false].filter fun t => !(t.src == .chain && t.tag == 0x33)).length)
    ∧ (∃ t ∈ [opened 1 0x1013 false], t.index = (request 0x1013 0).index.toNat)
    ∧ ((served [opened 0x33 0x1013 false] []).agent.transfers.find? (fun t => t.src == .chain && t.tag == 0x33) = some (opened 0x33 0x1013 false)
      ∧ (opened 0x33 0x1013 false).write = false ∧ (request 0x1013 0 2).segno.toNat = (opened 0x33 0x1013 false).seg + 1)
    ∧ ((request 0x1013 0 1).segno.toNat = (opened 0x33 0x1013 false).seg ∧ (opened 0x33 0x1013 false).seg ≠ 0)
    ∧ ((request 0x1013 0 3).segno.toNat ≠ (opened 0x33 0x1013 false).seg + 1 ∧ (request 0x1013 0 3).segno.toNat ≠ (opened 0x33 0x1013 false).seg)
    ∧ ((opened 0x33 0x1014 true).write = true ∧ (opened 0x33 0x1014 true).pos + 984 = (opened 0x33 0x1014 true).total)
    ∧ ((opened 0x33 0x1014 true).total < (opened 0x33 0x1014 true).pos + 985)
    ∧ (((served [opened 0x33 0x1013 false] []).agent.transfers.any fun t => t.src == .chain && t.tag == 0x33) = true
      ∧ ((served [] []).agent.transfers.any fun t => t.src == .chain && t.tag == 0x33) = false)
    ∧ ((served [opened 0x33 0x1013 false] []).running = true ∧ (served [opened 0x33 0x1013 false] []).agent.kprReq = none) := by
  repeat' apply And.intro
  all_goals first | decide +kernel | exact asked_of (by decide +kernel)

/-- Firmware has a request; the port in the given state with an abort in its buffer. -/
def answering : State := { served [] [] with agent := { fw := some ⟨request 0xA000 1, 1, 900⟩ } }
def requested : List Byte := dictPayload (request 0x2000 1) 1 false 0 []
/-- DBGEN, the access in flight, DONE, and whether RST_N holds the unit. -/
def tapped (en : Bool) (a : Option (Word × Option Word)) (done held : Bool) (ir : BitVec 5 := 1) : State :=
  { prep with
    tap := { dbgen := en, access := a, done := done, addr := 0x50010011, ir := ir }, sys := { mode := .preparation, held := held } }
def ported (x : Lrp) : State :=
  { prep with lrp := x, sys := { mode := .preparation, straps := ⟨2, 0, 0, 0⟩ }, mem := writeBytes [] aLrpReq [6] }

/-- Hypotheses of FirmwareAndPort: the ends of the firmware range with the service on and off, an answer of either length, no
request, a timeout, the port free, busy, done and off. -/
theorem witness_FirmwareAndPort :
    (Asked (request 0xA000 1) (served [] [(aDfwCtl, 0x101)]) ∧ 0xA000 ≤ (request 0xA000 1).index.toNat ∧ (request 0xBFFF 1).index.toNat < 0xC000
      ∧ bit ((served [] [(aDfwCtl, 0x101)]).reg aDfwCtl) 0 = true ∧ (drBytes (request 0xA000 1) 1 false 0 (List.replicate 1016 0)).length = 1024
      ∧ Clean (served [] [(aDfwCtl, 0x101)]) ∧ bit ((served [] [(aDfwCtl, 0x101)]).reg (aHfCh 583)) 31 = false
      ∧ (∀ q ∈ (served [] [(aDfwCtl, 0x101)]).hinge.raised, ¬ (q.cyc = 1001 ∧ q.ch = 583)))
    ∧ (bit ((served [] []).reg aDfwCtl) 0 = false)
    ∧ (Lands 290 0x500F600C 0x00080000 (served [] []) ∧ fld 0x00080000 16 11 = 8 ∧ fld 0x04000000 16 11 = 1024 ∧ (served [] []).agent.fw = none)
    ∧ (Lands 290 0x500F600C 0x04000000 answering ∧ answering.agent.fw = some ⟨request 0xA000 1, 1, 900⟩ ∧ (request 0xA000 1).bcast = false ∧ Clean answering
      ∧ (readByte answering.mem (0x40000000 + 8 * fld (answering.reg aDfwBuf) 3 16 + 5)).toNat ∈ [0, 1, 0x10, 0x11, 0x12, 0x20, 0x21, 0x22, 0x23, 0x24, 0x25, 0x30])
    ∧ ((ported {} ).running = true ∧ (ported {}).lrp.busy = false ∧ (ported {}).lrp.done = false ∧ (ported {}).sys.straps.dictsrc ≠ 0
      ∧ (readByte (ported {}).mem aLrpReq).toNat % 16 = 6)
    ∧ ((ported { done := true }).lrp.done = true ∧ bit 3 1 = true ∧ bit 2 0 = false ∧ (ported { done := true }).lrp.busy = false)
    ∧ ((ported { busy := true, req := requested }).running = true ∧ (ported { busy := true, req := requested }).lrp.busy = true ∧ requested ≠ []
      ∧ requestKey (9, false, requested) = requestKey (9, false, dictPayload { request 0x2000 1 with src := .lrp } 1 false 0 [])
      ∧ (ported { busy := true, req := requested }).lrp.done = false ∧ (ported { busy := true, req := requested, ahead := 1 }).lrp.ahead ≠ 0)
    ∧ ((ported {}).running = true ∧ (tapped true none true true).running = false ∧ 0x3FC % 4 = 0 ∧ 0x3FC < 0x400 ∧ 0x800 ≤ 0x808 ∧ 0x808 ≠ 0x804
      ∧ (ported { rlen := 1024 }).lrp.rlen < 2048)
    ∧ ((ported { busy := true }).lrp.busy = true ∧ (ported { done := true }).lrp.done = true ∧ bit 0x00080001 1 = false)
    ∧ ((0 : BitVec 10).toNat % 4 = 0 ∧ (1020 : BitVec 10).toNat % 4 = 0 ∧ (ported { resp := some (List.replicate 1024 1) }).lrp.resp = some (List.replicate 1024 1))
    ∧ ((ported {}).sys.mode ≠ .recall ∧ (ported {}).agent.fw = none ∧ (ported {}).agent.kprReq = none ∧ (ported {}).lrp.resp = none
      ∧ (ported {}).agent.queue = [] ∧ (ported {}).lrp.ahead = 0
      ∧ ({ request 0x2000 1 with src := .lrp } : DictHeader).src = .lrp ∧ (request 0x2000 1).index = 0x2000) := by
  repeat' apply And.intro
  all_goals first | decide +kernel | exact lands_of (by decide +kernel) | exact reaches_of (by decide +kernel) | exact asked_of (by decide +kernel)

/-- A formatted macro with four raw pages and ring item 0 of four slots; the command in progress and the ring queue. -/
def keeping (c : Option KprCmd) (store : Tab (List Byte)) (q : List (Nat × List Byte)) : State :=
  { prep with kpr := { scan := false, cmd := c, queue := q }, nv := { formatted := true, rawcnt := 4, rings := [(0, ⟨0, 4, store⟩)] } }
def asked (op arg : Nat) : KprCmd :=
  { op := op, arg := arg, start := 250, lenm1 := 255, id := 5, own := false
    data := [4, 0, 0, 0, 0x40, 0] ++ List.replicate 250 0 }
/-- A ring write ends while the slot write of the oldest queued value is known to be in progress. -/
def writing_ (q : List (Nat × List Byte)) : State :=
  { keeping (some (asked 4 0)) [] q with kpr := { scan := false, cmd := some (asked 4 0), queue := q, writing := true } }
def rescanning : State := { prep with kpr := {} }
/-- A saved profile whose extents pass their checks (R406). -/
def stored1 : Profile := ({ config := true, mask := 8, ward := [(1, 5)], grp0 := 1 } : Profile).sealed
/-- Recall with a selected profile whose mask names engine 3, which runs, or waits for its power-up. -/
def recalling : State :=
  { State.reset with
    kpr := { nvReady := true }, engines := [(3, { power := .on })], nv := { formatted := true, profiles := [(0, stored1)] } }
theorem stored1_sound : stored1.sound = true := by
  simp only [Profile.sound, stored1, Profile.sealed, Profile.valuesExtent, BEq.rfl, Bool.and_self, Bool.or_true, List.all_nil]
theorem recalling_selected : recalling.selected.2 = some stored1 := by
  have h : stored1.badAbi = false := by decide +kernel
  have h1 : (if recalling.nv.formatted && recalling.kpr.nvReady then tabFind recalling.nv.profiles recalling.sys.keepSel
    else none) = some stored1 := rfl
  unfold State.selected
  rw [h1]
  simp only [stored1_sound, h]
  rfl
def booting : State := { recalling with kpr := {}, engines := [] }
def saving : State := { keeping none [] [] with kpr := { scan := false, save := some 3 } }

/-- Hypotheses of Keeper: a command with the path free and busy, raw pages at the end of the range and beyond, rings empty and at
the last slot, the queue full and not, formats, a save, the scans. -/
theorem witness_Keeper :
    (Lands 290 0x50060008 (BitVec.ofNat 32 (1 * 2 ^ 28 + 4095 * 2 ^ 16 + 255 * 2 ^ 8 + 255)) (keeping none [] []) ∧ (keeping none [] []).sys.mode ≠ .recall
      ∧ (keeping none [] []).kpr.scan = false ∧ (keeping none [] []).kpr.cmd = none ∧ (keeping none [] []).kpr.save = none ∧ (keeping none [] []).upd.state ≠ 2)
    ∧ (Lands 290 0x50060008 (BitVec.ofNat 32 (5 * 2 ^ 28)) (keeping (some (asked 1 3)) [] []) ∧ (keeping (some (asked 1 3)) [] []).kpr.cmd.isSome = true)
    ∧ ((keeping (some (asked 1 3)) [] []).kpr.cmd = some (asked 1 3) ∧ (asked 1 3).own = false ∧ (asked 1 3).lenm1 = 255 ∧ (keeping (some (asked 1 3)) [] []).kpr.noNv = false
      ∧ Settled (keeping (some (asked 1 3)) [] []) ∧ bit ((keeping (some (asked 1 3)) [] []).reg (aHfCh 662)) 31 = false
      ∧ (asked 1 3).arg < (keeping (some (asked 1 3)) [] []).nv.rawcnt)
    ∧ ((asked 2 3).op = 2 ∧ (keeping none [] []).nv.rawcnt ≤ (asked 2 4).arg)
    ∧ (tabFind (keeping none [] []).nv.rings (asked 3 0).arg = some ⟨0, 4, []⟩ ∧ (keeping none [] []).kpr.queue = [] ∧ (keeping none [] []).kpr.copies = [])
    ∧ (tabFind (keeping none [(3, slotBytes [1, 2, 3, 4] 7)] []).nv.rings 0 = some ⟨0, 4, [(3, slotBytes [1, 2, 3, 4] 7)]⟩
      ∧ (slotBytes [1, 2, 3, 4] 7).length = (⟨0, 4, []⟩ : RingItem).bytes + 8 ∧ (⟨0, 4, []⟩ : RingItem).good (slotBytes [1, 2, 3, 4] 7) = true)
    ∧ ((⟨0, 4, []⟩ : RingItem).good (List.replicate 12 9) = false
      ∧ seqLater ((⟨0, 4, []⟩ : RingItem).seqOf (slotBytes [1, 2, 3, 4] 7)) ((⟨0, 4, []⟩ : RingItem).seqOf (slotBytes [5, 6, 7, 8] 6)) = true)
    ∧ ((writing_ [(0, [9]), (0, [8])]).kpr.writing = true ∧ (writing_ [(1, [9]), (0, [8])]).kpr.queue = [(1, [9]), (0, [8])]
      ∧ (writing_ [(0, [8])]).kpr.queue = [(0, [8])] ∧ (writing_ [(0, [8])]).kpr.cmd = some (asked 4 0))
    ∧ ((keeping none [] (List.replicate 7 (1, [9]))).kpr.queue.length < 8 ∧ (∀ q ∈ (keeping none [] (List.replicate 8 (1, [9]))).kpr.queue, q.1 ≠ 0)
      ∧ 8 ≤ (keeping none [] (List.replicate 8 (1, [9]))).kpr.queue.length)
    ∧ (tabFind (keeping none [] []).nv.rings 63 = none ∧ (asked 5 0).op = 5 ∧ (ranServed []).sys.mode ≠ .preparation)
    ∧ (field (asked 5 0).data 4 2 / 16 % 128 = 4 ∧ (∀ j, j < 64 → 1 ≤ j → field (asked 5 0).data (4 + 2 * j) 2 / 16 % 128 = 0) ∧ field (asked 5 0).data 0 4 < 2 ^ 13
      ∧ 4 + (4 * (4 * (field (asked 5 0).data 4 2 % 16 + 1) + 8) + 255) / 256 + field (asked 5 0).data 0 4 ≤ (keeping none [] []).nvLimit)
    ∧ ((keeping none [] [(0, [9, 9, 9, 9])]).sys.mode.executes = true ∧ (keeping none [] [(0, [9, 9, 9, 9])]).kpr.queue = [(0, [9, 9, 9, 9])]
      ∧ (2 : Nat) ≤ (⟨0, 4, []⟩ : RingItem).slots ∧ (keeping none [] [(0, [9, 9, 9, 9])]).kpr.scan = false
      ∧ (keeping none [] [(0, [9, 9, 9, 9])]).kpr.noNv = false ∧ (0 : Nat) < (⟨0, 4, []⟩ : RingItem).slots ∧ 3 < (⟨0, 4, []⟩ : RingItem).slots)
    ∧ (Lands 290 0x50060000 ((keeping none [] []).keepWith 0x50060000 2) (keeping none [] []) ∧ Lands 290 0x50060000 ((keeping none [] []).keepWith 0x50060000 4) (keeping none [] []))
    ∧ (rescanning.running = true ∧ rescanning.sys.mode ≠ .recall ∧ rescanning.kpr.scan = true ∧ rescanning.nv.journal = none ∧ bit (rescanning.reg aKprStat) 28 = false)
    ∧ (saving.kpr.save = some 3 ∧ saving.kpr.noNv = false ∧ saving.upd.commit = none ∧ saving.upd.state ≠ 2 ∧ saving.upd.state ≠ 3 ∧ saving.upd.state ≠ 4 ∧ Settled saving ∧ Clean saving)
    ∧ (recalling.running = true ∧ recalling.sys.mode = .recall ∧ recalling.kpr.nvReady = true ∧ recalling.maskLocked = true
      ∧ recalling.selected.2 = some stored1 ∧ memoryForm recalling = true ∧ bit (recalling.reg (aHfCh 656)) 31 = false)
    ∧ (booting.running = true ∧ booting.sys.mode = .recall ∧ booting.mask.testBit 3 = true ∧ booting.engPwr 3 ≠ 2)
    ∧ (State.reset.selected.2 = none)
    ∧ (State.reset.running = true ∧ State.reset.sys.mode = .recall ∧ State.reset.kpr.nvReady = false ∧ bit (State.reset.reg (aHfCh 656)) 31 = false) := by
  repeat' apply And.intro
  all_goals first | decide +kernel | exact lands_of (by decide +kernel)

/-- A 64-byte header for engine 15 and a payload of one word, with its tag under the key 5. -/
def image : List Byte := [0x11, 0x22, 0x33, 0x44]
def headerBody : List Byte := leBytes 4 0x4A4B3256 ++ [1, 1, 0, 0, 0, 0, 0, 0, 1, 1] ++ leBytes 2 0x8000 ++ leBytes 4 4 ++ List.replicate 12 0
def header : List Byte := headerBody ++ hmac256 (leBytes 32 5) (headerBody ++ image)
def transfer (kind : Nat) (data : List Byte) : Frame :=
  frame 6 255 3 ([0, 0, 0, 0, 0, 0, 0, 0, BitVec.ofNat 8 kind, 0, 0, 0] ++ data)
/-- The stager in a state of Table 16.2, the image in the inactive bank. -/
def updating (st : Nat) : State :=
  { prep [(aCh 8, 5)] with
    chain := { upA := true, sched := if st = 4 then some ⟨0, 40000, 0, false, false, 0⟩ else none }, engines := [(15, { power := .on })], kpr := { scan := false, key := some 5 }
    mem := writeBytes [] (engKey 15 0x8000) image
    upd := { state := st, header := header, due := st == 4, profile := 1, commit := if st = 4 then some (1, header, [(15, {})]) else none } }
/-- The check of the activation tick has found a reason; the activation time lies before the next tick. -/
def refusing : State := { updating 4 with upd := { (updating 4).upd with verdict := 5 } }
def judging : State :=
  { updating 4 with
    upd := { (updating 4).upd with due := false, armed := some 5 }, chain := { sched := some ⟨0x1000, 40000, 5, true, true, 0⟩ } }

/-- Hypotheses of Update: an acceptable header and one that is too short, data to the end of the image, sessions that match and do
not, coverage complete and not, a good and a bad tag, abort, commit, activation. -/
theorem witness_Update :
    ((updating 0).hears .a = true ∧ (transfer 1 header).type = 6 ∧ (transfer 1 header).good = true ∧ (transfer 1 header).dst = 255 ∧ (updating 0).sys.mode ≠ .recall
      ∧ (transfer 1 header).seq ∉ tabGet [] (updating 0).chain.dups (256 * 6 + 3) ∧ bit ((updating 0).reg (aCh 0x54)) 31 = false
      ∧ (transfer 1 header).payload.length ≤ 1024 ∧ (transfer 1 header).payload.drop 12 = header ∧ (updating 0).upd.state ≠ 4 ∧ acceptable header = true
      ∧ (∀ k ∈ (updating 0).hdrEngines header, (updating 0).islandOn k = true ∧ (updating 0).runsInactive k = false))
    ∧ (acceptable ((transfer 1 (header.take 63)).payload.drop 12) = false)
    ∧ ((updating 1).upd.state = 1 ∧ BitVec.ofNat 32 (field (transfer 2 image).payload 0 4) = (updating 1).reg (aKpr 0x208) ∧ 0 % 4 = 0 ∧ image.length % 4 = 0
      ∧ 0 + image.length ≤ (updating 1).updLen ∧ (updating 1).updLen ≤ 0x8000 ∧ field (transfer 2 image).payload 9 1 % 2 = 0
      ∧ (updating 1).upd.sealReq = false ∧ Clean (updating 1))
    ∧ (BitVec.ofNat 32 (field (1 :: (transfer 2 image).payload) 0 4) ≠ (updating 1).reg (aKpr 0x208))
    ∧ (Lands 290 0x50060200 1 (updating 1) ∧ (updating 1).gap ≠ (updating 1).updLen ∧ Lands 290 0x50060200 2 (updating 4) ∧ Lands 290 0x50060200 4 (updating 1))
    ∧ ({ updating 1 with upd := { (updating 1).upd with cover := [(0, 4)] } }.gap = (updating 1).updLen)
    ∧ ((updating 2).running = true ∧ Settled (updating 2) ∧ (updating 2).hdrEngines (updating 2).upd.header = [15] ∧ (updating 2).updLen = 4
      ∧ (updating 2).kpr.key = some 5 ∧ (updating 2).kpr.noNv = false ∧ (updating 2).islandOn 15 = true
      ∧ readBytes (updating 2).mem (engKey 15 ((updating 2).inactive 15)) 4 = image)
    ∧ (hmac256 (leBytes 32 5) ((updating 2).upd.header.take 32 ++ image) = ((updating 2).upd.header.drop 32).take 32)
    ∧ (hmac256 (leBytes 32 6) ((updating 2).upd.header.take 32 ++ image) ≠ ((updating 2).upd.header.drop 32).take 32)
    ∧ ((updating 4).upd.state = 4 ∧ (updating 4).upd.due = true ∧ (updating 4).upd.commit = some (1, header, [(15, {})]) ∧ Settled (updating 4))
    ∧ ((updating 4).upd.verdict = 0 ∧ refusing.upd.verdict ≠ 0 ∧ refusing.upd.verdict < 16 ∧ refusing.upd.due = true ∧ refusing.upd.state = 4 ∧ refusing.running = true)
    ∧ (judging.chain.sched = some ⟨0x1000, 40000, 5, true, true, 0⟩ ∧ judging.running = true ∧ judging.upd.due = false ∧ judging.upd.state = 4
      ∧ judging.upd.armed = some 5 ∧ later 5 (⟨0x1000, 40000, 5, true, true, 0⟩ : Sched).next = false)
    ∧ (({ updating 1 with engines := [] } : State).hdrEngines header = [15] ∧ ({ updating 1 with engines := [] } : State).islandOn 15 = false) := by
  repeat' apply And.intro
  all_goals first | decide +kernel | exact lands_of (by decide +kernel)

/-- Hypotheses of TestPort. -/
theorem witness_TestPort :
    ((tapped true none true false).tap.dbgen = true ∧ bit 0x50010010 0 = false ∧ (tapped true none true false).tap.done = true ∧ (tapped true none true false).running = true)
    ∧ ((tapped true none true true).running = false ∧ (tapped true none false false).tap.done = false ∧ bit 0x50010011 0 = true
      ∧ bit (tapped true none true false).tap.addr 0 = true)
    ∧ ((tapped false none true false).tap.dbgen = false ∧ (0xC1A4 : BitVec 16) ≠ 0xC1A5)
    ∧ ((tapped true none true false 31).tap.ir ∉ [0b00001, 0b01000, 0b01001, 0b01010] ∧ (tapped false none true false 9).tap.dbgen = false
      ∧ (tapped false none true false 9).tap.ir ≠ 0b00001 ∧ (tapped true none true false).tap.ir = 0b00001
      ∧ (tapped true none true false 9).tap.ir = 0b01001 ∧ bit ({ dbgen := true } : Tap).addr 0 = false)
    ∧ ((tapped true (some (0x500F0004, none)) false false).tap.access = some (0x500F0004, none) ∧ inFar (0x0FFFFFFC : Word).toNat = false)
    ∧ ((tapped true (some (0x4005FFFC, none)) false false).tap.access = some (0x4005FFFC, none) ∧ inImage (0x4005FFFC : Word).toNat = true
      ∧ Clean (tapped true (some (0x4005FFFC, none)) false false) ∧ (tapped true (some (0x4005FFFC, none)) false true).running = false)
    ∧ ((tapped true (some (0x4005FFFC, some 5)) false false).tap.access = some (0x4005FFFC, some 5) ∧ Settled (tapped true (some (0x4005FFFC, some 5)) false false)
      ∧ Clean (tapped true (some (0x4005FFFC, some 5)) false false) ∧ (tapped true none true false).tap.access = none)
    ∧ (0x50010010 ∈ plainRegs ∧ (regRow 0x50010010).isSome = true ∧ Lands 290 0x50010010 5 (tapped true (some (0x50010010, some 5)) false false)) := by
  repeat' apply And.intro
  all_goals first | decide +kernel | exact lands_of (by decide +kernel)

/-- A unit in a mode, synchronised, with both wakes enabled and slot 31 a wake route. -/
def standing (m : Mode) : State :=
  { prep [(aTbStat, 0x80000000), (aWakeCfg, 3)] with
    sys := { mode := m, tmrDue := true, dozeOn := if m == .doze then [3] else [] }
    engines := [(3, { power := if m == .doze then .retained else .on })]
    hinge := { slots := [(31, BitVec.ofNat 128 (routeBits 5 0x8C0 0x1FFF 0x1FFF 1))] } }
def entering : State :=
  { standing .preparation with
    sys := { mode := .preparation, entry := some ⟨.doze, some 5⟩ }, agent := { dozeDue := some ⟨.lrp, 0, 0⟩ } }
/-- A Keeper command and a channel inside a descriptor are in progress. -/
def occupied_ (m : Mode) : State :=
  { standing m with kpr := { scan := false, cmd := some (asked 1 3) }, chans := [(31, inside)] }
/-- Thread 1 has stored to SYS_WAKETMR. -/
def storing : State :=
  { withThread { thread with outst := [⟨0x20, .aon, [], none, .fabric, 0⟩] } with
    sys := { mode := .preparation, aon := [⟨aWakeTmr, 7, some 1⟩] } }
def crossed (a : Nat) : State := { prep with sys := { mode := .preparation, aon := [⟨a, 7, none⟩] } }

/-- Hypotheses of Modes: the present mode, each kind of transition, one that Table 2.13 leaves out, codes 0 and 1, an entry at once
and from the dictionary, its abort, the wakes, the crossing. -/
theorem witness_Modes :
    (Lands 290 0x500F0104 2 (standing .preparation) ∧ 2 ≤ fld 2 0 3 ∧ bit ((standing .preparation).reg (aHfCh 656)) 31 = false ∧ modeOf (fld 2 0 3) = .preparation)
    ∧ (Lands 290 0x500F0104 3 (standing .preparation) ∧ modeOf (fld 3 0 3) = .run ∧ bit ((standing .preparation).reg aTbStat) 31 = true
      ∧ (standing .preparation).reg aSafeCause = 0 ∧ (standing .preparation).paired = false)
    ∧ (Lands 290 0x500F0104 2 (standing .run) ∧ Lands 290 0x500F0104 2 (standing .safe) ∧ modeOf (fld 5 0 3) = .safe ∧ Lands 290 0x500F0104 5 (standing .tracking)
      ∧ bit ((standing .tracking).reg (aHfCh 657)) 31 = false)
    ∧ (Lands 290 0x500F0104 3 (standing .safe) ∧ modeOf (fld 3 0 3) ≠ .safe)
    ∧ (Lands 290 0x500F0104 1 (standing .preparation) ∧ fld 1 0 3 < 2 ∧ Raisable 668 (standing .preparation))
    ∧ (Lands 290 0x500F0104 6 (standing .preparation) ∧ modeOf (fld 6 0 3) = .doze ∧ Lands 290 0x500F0104 7 (standing .unaddressed) ∧ modeOf (fld 7 0 3) = .dormant
      ∧ (∀ c, c < 32 → ((standing .preparation).chan c).run = false) ∧ (standing .preparation).kpr.cmd = none ∧ (standing .preparation).kpr.save = none
      ∧ (standing .preparation).kpr.queue = [] ∧ (standing .preparation).upd.state ≠ 2 ∧ (standing .preparation).upd.commit = none)
    ∧ (entering.running = true ∧ entering.sys.entry = some ⟨.doze, some 5⟩ ∧ entering.agent.dozeDue = some ⟨.lrp, 0, 0⟩
      ∧ entering.sys.mode = .preparation ∧ (⟨.lrp, 1, 0⟩ : DrWait).left ≠ 0)
    ∧ (Lands 290 0x500F0104 6 (occupied_ .preparation) ∧ (occupied_ .preparation).kpr.cmd ≠ none ∧ ((occupied_ .preparation).chan 31).desc.isSome = true
      ∧ ((occupied_ .preparation).chan 31).run = true ∧ ((occupied_ .preparation).chan 31).lockw = false ∧ bit ((occupied_ .preparation).reg (aHfCh 656)) 31 = false)
    ∧ ((standing .preparation).untilUp = 0 ∧ (standing .preparation).sys.straps.dictsrc ≠ 1 ∧ (standing .doze).sys.porLow = false
      ∧ ({ standing .doze with sys := { (standing .doze).sys with held := true } } : State).sys.held = true)
    ∧ (bit (entering.reg aWakeCfg) 0 = true ∧ entering.slotTasks 31 = some [0x8C0])
    ∧ ((standing .doze).sys.mode = .doze ∧ (standing .doze).sys.held = false ∧ (standing .doze).sys.noRef = false ∧ bit ((standing .doze).reg aWakeCfg) 1 = true
      ∧ (standing .doze).sys.tmrDue = true ∧ (standing .doze).slotTasks 31 = some [0x8C0])
    ∧ ((crossed aWakeTmr).sys.aon = [⟨aWakeTmr, 7, none⟩] ∧ (crossed (aCh 8)).sys.aon = [⟨aCh 8, 7, none⟩] ∧ (crossed 0).sys.aon = [⟨0, 7, none⟩] ∧ (crossed 0).agent.resetDue = [])
    ∧ (storing.sys.aon = [⟨aWakeTmr, 7, some 1⟩] ∧ (storing.thr 1).outst = [⟨0x20, .aon, [], none, .fabric, 0⟩])
    ∧ ((∀ l ∈ prep.slotTasks 31, 0x8C0 ∉ l) ∧ prep.sys.tmrDue = false) := by
  repeat' apply And.intro
  all_goals first | decide +kernel | exact lands_of (by decide +kernel)

def resetting : State := { standing .run with agent := { resetDue := [⟨.chain, 0, 0⟩] }, tap := { dbgen := true } }

/-- Hypotheses of UnitResets. -/
theorem witness_UnitResets :
    ((standing .run).kpr.cmd = none ∧ (standing .run).tap.access = none ∧ (standing .run).sys.keepAddr < 256 ∧ (standing .run).sys.noRef = false)
    ∧ (({ standing .run with sys := { (standing .run).sys with noRef := true } } : State).sys.noRef = true)
    ∧ (Lands 290 0x500F010C 0xC1A50001 (standing .run) ∧ fld 0xC1A50001 16 16 = 0xC1A5 ∧ bit 0xC1A50001 0 = true)
    ∧ (Lands 290 0x500F010C 0xC1A50000 (standing .run) ∧ bit 0xC1A50000 0 = false ∧ fld 0xC1A40001 16 16 ≠ 0xC1A5)
    ∧ (resetting.running = true ∧ (∃ w ∈ resetting.agent.resetDue, w.left = 0 ∧ w.aon = 0) ∧ (standing .run).agent.resetDue = []
      ∧ (⟨.chain, 1, 0⟩ : DrWait).left ≠ 0 ∧ resetting.tap.dbgen = true ∧ (standing .run).kpr.queue = [] ∧ (standing .run).sys.mode ≠ .dormant)
    ∧ ((standing .dormant).sys.mode = .dormant ∧ bit ((standing .dormant).reg aWakeCfg) 0 = true ∧ (standing .dormant).slotTasks 31 = some [0x8C0]) := by
  repeat' apply And.intro
  all_goals first | decide +kernel | exact lands_of (by decide +kernel)

/-- The premises of StepRunsCommand about an empty queue. -/
theorem witness_StepRunsCommand :
    (prep.pending = [] ∧ (∀ x ∈ prep.timers, x.2.steps = 0) ∧ prep.hinge.lfdue = [] ∧ prep.untilUp ≠ 1) := by
  repeat' apply And.intro
  all_goals decide +kernel

/-- The premises of StepKeepsForm hold at reset, and of a state with merge entries and memory in which a command waits and completes. -/
theorem witness_StepKeepsForm :
    (memoryForm State.reset = true ∧ mergeForm State.reset = true)
    ∧ (memoryForm (scrubbed 0) = true ∧ mergeForm (scrubbed 0) = true ∧ memoryForm inFrame = true)
    ∧ (memoryForm { inFrame with pending := [.rfi beat1] } = true ∧ mergeForm { inFrame with pending := [.rfi beat1] } = true
      ∧ (match step { inFrame with pending := [.rfi beat1] } with | .next t => t.pending == [] && (t.thr 1).pc == 0xFFFC | _ => false) = true) := by
  repeat' apply And.intro
  all_goals decide +kernel

end Sys2Proof.Tests
end

/-! SUPPORT. Frames: what a fold and a change of one table leave alone. -/

namespace Sys2Proof

open Machine

/-! ### Frames of the state -/

/-- A frame that every step of a fold keeps, the fold keeps. -/
theorem OnlyIn.foldl {α : Type} {ps : List Part} (f : State → α → State) (l : List α) (s : State)
    (h : ∀ s a, OnlyIn ps s (f s a)) : OnlyIn ps s (l.foldl f s) := by
  induction l generalizing s with
  | nil => exact OnlyIn.refl ps s
  | cons a l ih => exact (h s a).trans (ih (f s a))

theorem setTmr_only (s : State) (t : Nat) (x : Timer) : OnlyIn [.timers] s (s.setTmr t x) := by
  intro p hp; cases p <;> first | rfl | exact absurd (by simp) hp

theorem setMem_only (s : State) (m : Memory) : OnlyIn [.mem] s { s with mem := m } := by
  intro p hp; cases p <;> first | rfl | exact absurd (by simp) hp

theorem setHinge_only (s : State) (h : Hinge) : OnlyIn [.hinge] s { s with hinge := h } := by
  intro p hp; cases p <;> first | rfl | exact absurd (by simp) hp

theorem setTum_only (s : State) (u : Tumbler) : OnlyIn [.tum] s { s with tum := u } := by
  intro p hp; cases p <;> first | rfl | exact absurd (by simp) hp

theorem setChan_only (s : State) (c : Nat) (x : Chan) : OnlyIn [.chans] s (s.setChan c x) := by
  intro p hp; cases p <;> first | rfl | exact absurd (by simp) hp

/-- Nothing outside the engines, the threads and memory changes. -/
theorem OnlyIn.sameUnits {s t : State} (h : OnlyIn [.engines, .threads, .mem] s t) : SameUnits s t where
  regs := h .regs (by simp)
  ecc := h .ecc (by simp)
  hinge := h .hinge (by simp)
  timers := h .timers (by simp)
  pads := h .pads (by simp)
  cvts := h .cvts (by simp)
  tum := h .tum (by simp)
  sys := h .sys (by simp)
  chain := h .chain (by simp)
  chans := h .chans (by simp)
  shTurn := h .shTurn (by simp)
  scan := h .scan (by simp)
  shk := h .shk (by simp)
  nv := h .nv (by simp)
  kpr := h .kpr (by simp)
  agent := h .agent (by simp)
  lrp := h .lrp (by simp)
  upd := h .upd (by simp)
  tap := h .tap (by simp)
  pending := h .pending (by simp)

theorem RegsBut.trans {as : List Nat} {s t u : State} (h : RegsBut as s t) (h' : RegsBut as t u) : RegsBut as s u :=
  fun a ha => (h' a ha).trans (h a ha)

/-- An access that changes neither SYS_RST nor an entry sets nothing off. -/
theorem settle_of_sys {s t : State} (hs : Settled s) (h : t.sys = s.sys) : t.settle = t :=
  settle_settled t (by rw [Settled, h]; exact hs)

/-! ### What one cycle has seen -/

/-- What a note makes of the present cycle is what the cycle has seen, while the note keeps the cycle's number. -/
theorem note_sameNow (s : State) (f : Same → Same) (h : (f s.sameNow).cyc = s.cycle) : (s.note f).sameNow = f s.sameNow := by
  rw [State.sameNow]; exact if_pos h

theorem sameNow_cyc (s : State) : s.sameNow.cyc = s.cycle := by
  simp only [State.sameNow]; split
  · assumption
  · rfl

theorem sameNow_congr {s t : State} (hs : t.same = s.same) (hc : t.cycle = s.cycle) : t.sameNow = s.sameNow := by
  simp only [State.sameNow, hs, hc]

theorem noteWrites_sameNow (s : State) (id : Nat) (as : List Nat) :
    (s.noteWrites id as).sameNow = { s.sameNow with writes := s.sameNow.writes ++ as.map fun a => (a, id) } :=
  note_sameNow s _ (sameNow_cyc s)

/-- A write of its own never outranks a master's write (R42). -/
theorem outranked_noteWrites (s : State) (id : Nat) (as : List Nat) (a : Nat) :
    (s.noteWrites id as).outranked id a = s.outranked id a := by
  simp [State.outranked, noteWrites_sameNow, List.any_append, List.any_map, Function.comp_def]

theorem outranked_none (s : State) (id a : Nat) (h : s.sameNow.writes = []) : s.outranked id a = false := by
  simp [State.outranked, h]

/-! ### Memory without errors

The laws of code words under `Clean` ask that no write has landed in the cycle, which the writes of an access itself
end. `ErrorFree` leaves that out. -/

/-- No code word holds an error, and none is armed to be injected. -/
def ErrorFree (s : State) : Prop := s.ecc.bad = [] ∧ bit (s.reg aEccInj) 31 = false

theorem Clean.errorFree {s : State} (h : Clean s) : ErrorFree s := ⟨h.1, h.2.1⟩

theorem ErrorFree.of_same {s t : State} (h : ErrorFree s) (he : t.ecc = s.ecc) (hr : t.reg aEccInj = s.reg aEccInj) :
    ErrorFree t := by rw [ErrorFree, he, hr]; exact h

/-- The frame of `OnlyIn` keeps memory free of errors. -/
theorem ErrorFree.of_only {ps : List Part} {s t : State} (h : ErrorFree s) (ho : OnlyIn ps s t) (he : Part.ecc ∉ ps)
    (hr : Part.regs ∉ ps) : ErrorFree t :=
  h.of_same (ho .ecc he) (State.reg_of_regs s t (ho.regs hr) _)

theorem readCode_errorFree (s : State) (key src id : Nat) (h : ErrorFree s) :
    s.readCode key src id = (s, some (leNat (readBytes s.mem key (cwBytes (memNum key))))) := by
  simp [State.readCode, h.1]

theorem markCode_errorFree (s : State) (key : Nat) (h : ErrorFree s) : s.markCode key 0 = s := by
  have hi : s.injected (memNum key) = 0 := by simp [State.injected, h.2]
  have he : tabErase s.ecc.bad key = s.ecc.bad := by rw [h.1]; rfl
  simp [State.markCode, hi, he]

theorem writeCode_errorFree (s : State) (key v : Nat) (h : ErrorFree s) :
    s.writeCode key v = { s with mem := writeBytes s.mem key (leBytes (cwBytes (memNum key)) v) } :=
  markCode_errorFree _ key h

/-- The byte at `x` of a memory under the lanes of a code word at `key`. -/
def laneByte (m : Memory) (key : Nat) (lanes : Tab Byte) (x : Nat) : Byte :=
  if key ≤ x then (tabFind lanes (x - key)).getD (readByte m x) else readByte m x

theorem laneByte_nil (m : Memory) (key x : Nat) : laneByte m key [] x = readByte m x := by simp [laneByte]

theorem laneByte_congr {m m' : Memory} (h : ∀ x, readByte m' x = readByte m x) (key : Nat) (lanes : Tab Byte) (x : Nat) :
    laneByte m' key lanes x = laneByte m key lanes x := by simp only [laneByte, h]

/-- In a table with rising keys no entry stands at a key below all of its own. -/
theorem tabFind_below {α : Type} (t : Tab α) (k : Nat) (h : ∀ x ∈ t, k < x.1) : tabFind t k = none := by
  cases hf : tabFind t k with
  | none => rfl
  | some v => exact absurd (h _ (mem_of_tabFind t k v hf)) (Nat.lt_irrefl k)

/-- Stored lanes stand over the bytes that were there. -/
theorem readByte_putLanes (m : Memory) (key : Nat) (lanes : Tab Byte) (h : tabSorted lanes = true) (x : Nat) :
    readByte (putLanes m key lanes) x = laneByte m key lanes x := by
  induction lanes generalizing m with
  | nil => exact (laneByte_nil m key x).symm
  | cons l lanes ih =>
    obtain ⟨i, b⟩ := l
    obtain ⟨hlow, hrest⟩ := (tabSorted_cons i b lanes).1 h
    simp only [putLanes, ih _ hrest, laneByte, readByte_writeByte, tabFind]
    by_cases hx : x = key + i
    · subst hx
      simp [tabFind_below lanes i hlow]
    · by_cases hk : key ≤ x
      · rw [if_pos hk, if_pos hk, if_neg hx, if_neg (by omega)]
      · rw [if_neg hk, if_neg hk, if_neg hx]

/-- A merge write stores its lanes over the bytes that were there. -/
theorem mergeCode_errorFree (s : State) (key id : Nat) (lanes : Tab Byte) (h : ErrorFree s) (hs : tabSorted lanes = true) :
    ∃ m, s.mergeCode key id lanes = { s with mem := m } ∧ ∀ x, readByte m x = laneByte s.mem key lanes x := by
  simp only [State.mergeCode]
  split
  · exact ⟨_, markCode_errorFree _ key h, readByte_putLanes _ _ _ hs⟩
  · rw [readCode_errorFree s key 2 id h]
    refine ⟨_, markCode_errorFree _ key h, fun x => ?_⟩
    have hb := leBytes_leNat (readBytes s.mem key (cwBytes (memNum key)))
    rw [readBytes_length] at hb
    rw [readByte_putLanes _ _ _ hs, hb]
    refine laneByte_congr (fun y => ?_) _ _ _
    rw [readByte_writeBytes]
    split
    · rename_i hy
      rw [readBytes_length] at hy
      rw [readBytes_getD _ _ _ _ (by omega)]
      congr 1; omega
    · rfl

/-- What a write of master `id` in one code word leaves: its lanes over memory, everything else as before, and no
write that outranks a later one of the same master. -/
structure LanesStored (key id : Nat) (lanes : Tab Byte) (s t : State) : Prop where
  only : OnlyIn [.mem] s t
  bytes : ∀ x, readByte t.mem x = laneByte s.mem key lanes x
  rank : ∀ a, t.outranked id a = s.outranked id a

/-- R42: a write that no higher identity's of this cycle outranks lands with all its lanes. -/
theorem landLanes_errorFree (s : State) (key id : Nat) (lanes : Tab Byte) (who : Nat) (h : ErrorFree s)
    (ho : ∀ a, s.outranked id a = false) (hs : tabSorted lanes = true) :
    LanesStored key id lanes s (s.landLanes key id lanes who) := by
  have hf : (lanes.filter fun l => !s.outranked id (key + l.1)) = lanes := by simp [ho]
  simp only [State.landLanes, hf]
  split
  · rename_i he
    rw [List.isEmpty_iff] at he
    subst he
    exact ⟨OnlyIn.refl _ s, fun x => (laneByte_nil _ _ x).symm, fun _ => rfl⟩
  · obtain ⟨m, hm, hb⟩ := mergeCode_errorFree (s.noteWrites id (lanes.map fun l => key + l.1)) key who lanes h hs
    rw [hm]
    exact ⟨((noteWrites_only s id _).mono (by simp)).trans (setMem_only _ m), hb, outranked_noteWrites s id _⟩

/-! ### The lanes of a number -/

/-- A table made from consecutive numbers: what its keys find. -/
theorem tabFind_map_range' {α : Type} (f : Nat → α) (off i n j : Nat) :
    tabFind ((List.range' i n).map fun i => (off + i, f i)) j =
      if off + i ≤ j ∧ j < off + i + n then some (f (j - off)) else none := by
  induction n generalizing i with
  | zero => rw [if_neg (by omega)]; rfl
  | succ n ih =>
    simp only [List.range'_succ, List.map_cons, tabFind, ih (i + 1)]
    by_cases hj : off + i = j
    · rw [if_pos hj, if_pos (by omega)]; congr 2; omega
    · rw [if_neg hj]
      by_cases hc : off + (i + 1) ≤ j ∧ j < off + (i + 1) + n
      · rw [if_pos hc, if_pos (by omega)]
      · rw [if_neg hc, if_neg (by omega)]

theorem tabSorted_map_range' {α : Type} (f : Nat → α) (off i n : Nat) :
    tabSorted ((List.range' i n).map fun i => (off + i, f i)) = true := by
  induction n generalizing i with
  | zero => rfl
  | succ n ih =>
    rw [List.range'_succ, List.map_cons, tabSorted_cons]
    refine ⟨fun x hx => ?_, ih (i + 1)⟩
    obtain ⟨j, hj, rfl⟩ := List.mem_map.1 hx
    have := (List.mem_range'_1.1 hj).1
    simp only; omega

theorem tabFind_lanesOf (off n v j : Nat) : tabFind (lanesOf off n v) j =
    if off ≤ j ∧ j < off + n then some (BitVec.ofNat 8 (v / 256 ^ (j - off))) else none := by
  have h := tabFind_map_range' (fun i => BitVec.ofNat 8 (v / 256 ^ i)) off 0 n j
  simpa [lanesOf, upTo, List.range_eq_range'] using h

theorem tabSorted_lanesOf (off n v : Nat) : tabSorted (lanesOf off n v) = true := by
  have h := tabSorted_map_range' (fun i => BitVec.ofNat 8 (v / 256 ^ i)) off 0 n
  simpa [lanesOf, upTo, List.range_eq_range'] using h

theorem leBytes_getD (n v j : Nat) (h : j < n) : (leBytes n v).getD j 0 = BitVec.ofNat 8 (v / 256 ^ j) := by
  induction n generalizing v j with
  | zero => omega
  | succ n ih =>
    cases j with
    | zero => simp [leBytes]
    | succ j =>
      have := ih (v / 256) j (by omega)
      rw [Nat.div_div_eq_div_mul, ← Nat.pow_succ'] at this
      simpa [leBytes] using this

/-- The lanes of a number over memory are its little-endian bytes written there (R10). -/
theorem laneByte_lanesOf (m : Memory) (key a n v x : Nat) (h : key ≤ a) :
    laneByte m key (lanesOf (a - key) n v) x = readByte (writeBytes m a (leBytes n v)) x := by
  rw [readByte_writeBytes, leBytes_length, laneByte, tabFind_lanesOf]
  by_cases hx : a ≤ x ∧ x < a + n
  · rw [if_pos (by omega), if_pos (by omega), if_pos hx, leBytes_getD _ _ _ (by omega), Option.getD_some,
      show x - key - (a - key) = x - a by omega]
  · rw [if_neg hx]
    split
    · rw [if_neg (by omega), Option.getD_none]
    · rfl

/-- A store writes the little-endian bytes of its value, and nothing else. -/
theorem storeIn_errorFree (s : State) (a n v id : Nat) (h : ErrorFree s) (ho : ∀ a, s.outranked id a = false) :
    OnlyIn [.mem] s (s.storeIn a n v id)
      ∧ ∀ x, readByte (s.storeIn a n v id).mem x = readByte (writeBytes s.mem a (leBytes n v)) x := by
  obtain ⟨ho, hb, -⟩ := landLanes_errorFree s (cwOf a) id (lanesOf (a - cwOf a) n v) id h ho (tabSorted_lanesOf _ _ _)
  exact ⟨ho, fun x => (hb x).trans (laneByte_lanesOf _ _ _ _ _ _ (Nat.sub_le _ _))⟩

/-- A stored word reads back, and no other byte changes. -/
theorem word_stored (s t : State) (a : Nat) (v : Word)
    (h : ∀ x, readByte t.mem x = readByte (writeBytes s.mem a (leBytes 4 v.toNat)) x) :
    readWord t.mem a = v ∧ MemoryOutside a 4 s t := by
  constructor
  · rw [← readWord_writeWord s.mem a v, readWord, readWord, readBytes_congr _ _ _ _ fun j _ => h (a + j)]
    rfl
  · intro x hx
    rw [h, readByte_writeBytes_outside _ _ _ _ (by simpa using hx)]

end Sys2Proof

/-! SUPPORT. Register writes: the registers without behaviour of their own, the write that lands, the cycle that passes. -/

namespace Sys2Proof

open Machine

/-! ### Registers without behaviour of their own -/

/-- The addresses that `plainRegs` lists. -/
theorem plainRegs_forms {a : Nat} (h : a ∈ plainRegs) :
    a ∈ [0x500F0020, 0x500F0110, 0x500F3004, 0x50010008, 0x50010010, 0x50010014, 0x50010018, 0x5001001C, 0x5001003C,
      0x50002014, 0x5000202C]
    ∨ (∃ j < 40, a = 0x50010400 + 4 * j ∨ a = 0x50010500 + 4 * j) ∨ (∃ t < 32, a = aTmr t 8 ∨ a = aTmr t 12)
    ∨ (∃ p < 128, a = aPadStat p) ∨ (∃ p < 8, a = aCvt p 4 ∨ a = aCvt p 8 ∨ a = aCvt p 0x10)
    ∨ ∃ k < 16, ∃ i < 4, a = aBp k i := by
  simp only [plainRegs, List.mem_append, List.mem_flatMap, List.mem_map, upTo, List.mem_range] at h
  rcases h with ((((h | ⟨j, hj, h⟩) | ⟨t, ht, h⟩) | ⟨p, hp, h⟩) | ⟨p, hp, h⟩) | ⟨k, hk, i, hi, h⟩
  · exact .inl h
  · exact .inr (.inl ⟨j, hj, by simpa using h⟩)
  · exact .inr (.inr (.inl ⟨t, ht, by simpa using h⟩))
  · exact .inr (.inr (.inr (.inl ⟨p, hp, h.symm⟩)))
  · exact .inr (.inr (.inr (.inr (.inl ⟨p, hp, by simpa using h⟩))))
  · exact .inr (.inr (.inr (.inr (.inr ⟨k, hk, i, hi, h.symm⟩))))

/-- Where the registers of `plainRegs` lie, as one computation over the list. -/
theorem plainRegs_places : plainRegs.all (fun a => a % 4 == 0 && inRegs a && !isAon a && !isKpr a
    && (engineOf a).isNone && a != 0x50010020 && a != 0x50010024 && a != aEccInj && a != aTwin) = true := by decide +kernel

/-- A register of `plainRegs` is aligned, in the register windows, in none of the always-on, Keeper and engine islands, and
not HF_GRPEN, ECC_INJ or SYS_TWIN. -/
structure PlainPlace (a : Nat) : Prop where
  aligned : a % 4 = 0
  window : inRegs a = true
  aon : isAon a = false
  keeper : isKpr a = false
  engine : engineOf a = none
  groups : a ≠ 0x50010020 ∧ a ≠ 0x50010024
  inject : a ≠ aEccInj
  twin : a ≠ aTwin

theorem plainRegs_place {a : Nat} (h : a ∈ plainRegs) : PlainPlace a := by
  have hp := List.all_eq_true.1 plainRegs_places a h
  simp only [Bool.and_eq_true, Bool.not_eq_true', beq_iff_eq, bne_iff_ne, Option.isNone_iff_eq_none] at hp
  obtain ⟨⟨⟨⟨⟨⟨⟨⟨h1, h2⟩, h3⟩, h4⟩, h5⟩, h6⟩, h7⟩, h8⟩, h9⟩ := hp
  exact ⟨h1, h2, h3, h4, h5, ⟨h6, h7⟩, h8, h9⟩

/-- A register of `wordRegs` lies outside the pad window. -/
theorem wordRegs_plain {a : Nat} (h : a ∈ wordRegs) : a ∈ plainRegs ∧ ¬ PadWindow a := by
  simpa [wordRegs, PadWindow] using h

/-- No register of `plainRegs` clamps a value. -/
theorem clampReg_plain (s : State) (a : Nat) (v : Word) (h : a ∈ plainRegs) : s.clampReg a v = (v, 0) := by
  rcases plainRegs_forms h with h | ⟨j, hj, h⟩ | ⟨t, ht, h⟩ | ⟨p, hp, rfl⟩ | ⟨p, hp, h⟩ | ⟨k, hk, i, hi, rfl⟩
  · simp only [List.mem_cons, List.not_mem_nil, or_false] at h
    rcases h with rfl | rfl | rfl | rfl | rfl | rfl | rfl | rfl | rfl | rfl | rfl <;> rfl
  · have e : a / 0x10000 = 0x5001 ∧ a % 0x10000 < 0x1B00 := by omega
    simp (disch := omega) only [State.clampReg, e.1, if_neg]
  · have e : a / 0x10000 = 0x5000 ∧ a % 0x10000 % 0x100 ≠ 0 := by simp only [aTmr] at h; omega
    simp (disch := omega) only [State.clampReg, e.1, if_neg]
  · have e : aPadStat p / 0x10000 = 0x5002 ∧ aPadStat p % 0x10000 = 0x20 * p + 4 := by simp only [aPadStat]; omega
    simp (disch := omega) only [State.clampReg, e.1, e.2, State.padClamp, if_pos, if_neg]
  · have e : a / 0x10000 = 0x5002 ∧ 0x2000 ≤ a % 0x10000 ∧ a % 0x10000 % 0x40 ≠ 0 := by simp only [aCvt] at h; omega
    simp (disch := omega) only [State.clampReg, e.1, State.padClamp, if_neg]
  · have e : aBp k i / 0x10000 = 0x500F ∧ aBp k i % 0x10000 = 0x3110 + 0x20 * k + 4 * i := by simp only [aBp]; omega
    simp (disch := omega) only [State.clampReg, e.1, e.2, State.sysClamp, if_neg]

/-! The windows at the registers whose writes do nothing beside the common field rules. -/

theorem hfWrite_idle (s : State) (id off : Nat) (old v : Word) (h : 0x400 ≤ off) : s.hfWrite id off old v = s := by
  simp only [State.hfWrite]
  rw [if_neg (by omega)]
  split <;> first | omega | rfl

theorem tmrWrite_idle (s : State) (off : Nat) (old v : Word) (h : off < 0x2000) (ho : off % 0x100 = 8 ∨ off % 0x100 = 12) :
    s.tmrWrite off old v = s := by
  rcases ho with e | e <;> simp [State.tmrWrite, h, e]

theorem padWrite_status (s : State) (off : Nat) (old v : Word) (h : off < 0x1000) (ho : off % 0x20 = 4) :
    s.padWrite off old v = s := by
  simp [State.padWrite, h, ho]

theorem padWrite_port (s : State) (off : Nat) (old v : Word) (h : ¬ off < 0x1000)
    (ho : (off - 0x2000) % 0x40 = 4 ∨ (off - 0x2000) % 0x40 = 8 ∨ (off - 0x2000) % 0x40 = 0x10) :
    s.padWrite off old v = s := by
  rcases ho with e | e | e <;> simp [State.padWrite, h, e]

theorem dbgWrite_breakpoint (s : State) (k off : Nat) (v : Word) (h : 0x10 ≤ off) : s.dbgWrite k off v = s := by
  simp only [State.dbgWrite]
  split
  · rfl
  · split <;> first | omega | rfl

/-- No register of `plainRegs` acts beside the common field rules. -/
theorem regAction_plain (s : State) (id a : Nat) (old v : Word) (h : a ∈ plainRegs) : s.regAction id a old v = s := by
  rcases plainRegs_forms h with h | ⟨j, hj, h⟩ | ⟨t, ht, h⟩ | ⟨p, hp, rfl⟩ | ⟨p, hp, h⟩ | ⟨k, hk, i, hi, rfl⟩
  · simp only [List.mem_cons, List.not_mem_nil, or_false] at h
    rcases h with rfl | rfl | rfl | rfl | rfl | rfl | rfl | rfl | rfl | rfl | rfl <;> rfl
  · have e : a / 0x10000 = 0x5001 := by omega
    simp only [State.regAction, e]
    exact hfWrite_idle _ _ _ _ _ (by omega)
  · simp only [aTmr] at h
    have e : a / 0x10000 = 0x5000 := by omega
    simp only [State.regAction, e]
    exact tmrWrite_idle _ _ _ _ (by omega) (by omega)
  · have e : aPadStat p / 0x10000 = 0x5002 ∧ aPadStat p % 0x10000 = 0x20 * p + 4 := by simp only [aPadStat]; omega
    simp only [State.regAction, e]
    exact padWrite_status _ _ _ _ (by omega) (by omega)
  · simp only [aCvt] at h
    have e : a / 0x10000 = 0x5002 := by omega
    simp only [State.regAction, e]
    exact padWrite_port _ _ _ _ (by omega) (by omega)
  · have e : aBp k i / 0x10000 = 0x500F ∧ aBp k i % 0x10000 = 0x3110 + 0x20 * k + 4 * i := by simp only [aBp]; omega
    simp (disch := omega) only [State.regAction, e, State.sysHighWrite, if_neg, if_pos]
    exact dbgWrite_breakpoint _ _ _ _ (by omega)

/-- A write of a register without behaviour of its own is its field rules (R13, R14). -/
theorem writeActs_plain (s : State) (id a : Nat) (v : Word) (r : RegRow) (h : a ∈ plainRegs) (hr : regRow a = some r) :
    s.writeActs id a v = s.setReg a (plainWrite r (s.reg a) (s.maskSets r a v)) := by
  simp [State.writeActs, State.fieldWrite, hr, clampReg_plain s a _ h, regAction_plain _ id a _ v h]

/-- R37: a bit that hardware has not set in this cycle takes part in a write as written. -/
theorem bit_maskSets (s : State) (r : RegRow) (a i : Nat) (v : Word) (hi : i < 32) :
    bit (s.maskSets r a v) i = (bit v i && !(r.w1c.testBit i && s.setNow a i)) := by
  simp only [bit, State.maskSets, State.setNow, word, BitVec.getLsbD_and, BitVec.getLsbD_not, BitVec.getLsbD_ofNat, hi,
    decide_true, Bool.true_and]

/-! ### The write that lands -/

theorem exec_registerWrite (id : Id) (addr v : Word) (s : State) (ha : addr.toNat % 4 = 0)
    (hl : ¬ (id.toNat = 288 ∧ addr.toNat = aLrpStat)) :
    exec (.registerWrite id addr v) s = .next (s.masterWrite id.toNat addr.toNat v) := by
  show execRegisterWrite id addr v s = _
  rw [execRegisterWrite, if_neg hl, if_pos ha]
  rfl

theorem inRegs_not_lrpStat {a : Nat} (h : inRegs a = true) : a ≠ aLrpStat := by
  rintro rfl; exact absurd h (by decide)

/-- A write that no earlier one of its cycle outranks, and that is no HF_GRPEN write behind a group task, acts as it
stands (R42). -/
theorem regWrite_now (s : State) (id a : Nat) (v : Word) (h : s.writeHeld a = false) (ha : isAon a = false)
    (ho : s.outranked id a = false) (ht : s.sameNow.tasked = false ∨ a ≠ 0x50010020 ∧ a ≠ 0x50010024)
    (hs : PadWindow a → Still s) : s.regWrite id a v = (s.noteWrites id [a]).writeActs id a v := by
  have ht' : (s.sameNow.tasked && (a == 0x50010020 || a == 0x50010024)) = false := by
    rcases ht with ht | ⟨h1, h2⟩ <;> simp [*]
  have hp : (if a / 0x10000 = 0x5002 then s.settlePads else s) = s := by
    split
    · exact settlePads_still s (hs ‹_›)
    · rfl
  simp [State.regWrite, State.landsAfter, h, ha, ho, ht', hp]

/-- A write that reaches its register is answered without an error. -/
theorem busWrite_permitted (id a : Nat) (v : Word) (s : State) (hw : inRegs a = true) (hg : s.gated a = false)
    (hm : mayWrite id a v = true) : s.busWrite id a v = (s.regWrite id a v, .val 0) := by
  obtain ⟨hi, hd⟩ := inRegs_not_memory a hw
  simp [State.busWrite, hi, hd, hw, hg, hm]

/-- A command's write that reaches its register. -/
theorem exec_write_reaches {id : Id} {addr v : Word} {s : State} (ha : addr.toNat % 4 = 0)
    (h : Reaches id addr.toNat v s) :
    exec (.registerWrite id addr v) s = .next (s.regWrite id.toNat addr.toNat v).settle := by
  rw [exec_registerWrite id addr v s ha fun hl => inRegs_not_lrpStat h.window hl.2]
  simp [State.masterWrite, h.runs, h.issues, masterTurn_alone s _ _ h.alone,
    busWrite_permitted _ _ v s h.window h.island h.may]

/-- A write of a register without behaviour of its own that reaches it and that nothing of its cycle precedes. -/
theorem regWrite_plain {s : State} {id a : Nat} {v : Word} {r : RegRow} (hp : a ∈ plainRegs) (hr : regRow a = some r)
    (hw : s.writeHeld a = false) (ho : s.outranked id a = false) (hs : PadWindow a → Still s) :
    s.regWrite id a v
      = (s.noteWrites id [a]).setReg a (plainWrite r (s.reg a) ((s.noteWrites id [a]).maskSets r a v)) := by
  rw [regWrite_now s id a v hw (plainRegs_place hp).aon ho (.inr (plainRegs_place hp).groups) hs,
    writeActs_plain _ id a v r hp hr]
  rfl

theorem setNow_noteWrites (s : State) (id : Nat) (as : List Nat) (a i : Nat) :
    (s.noteWrites id as).setNow a i = s.setNow a i := by
  simp [State.setNow, noteWrites_sameNow, Same.setsAt]

/-- What a plain write leaves: the register's word, and nothing else of the state. -/
theorem plain_write_frame (s : State) (id a : Nat) (w : Word) :
    RegsBut [a] s ((s.noteWrites id [a]).setReg a w) ∧ OnlyIn [.regs] s ((s.noteWrites id [a]).setReg a w) :=
  ⟨setReg_regsBut (s.noteWrites id [a]) a w, ((noteWrites_only s id [a]).mono (by simp)).trans (setReg_only _ a w)⟩

/-- The bits of a register after a plain write in whose cycle hardware has set none of its bits. -/
theorem bit_plainWrite_masked (s : State) (r : RegRow) (a : Nat) (v : Word) (hr : regRow a = some r)
    (hn : ∀ i, s.setNow a i = false) (i : Nat) (hi : i < 32) : bit (plainWrite r (s.reg a) (s.maskSets r a v)) i =
      if r.rw.testBit i then bit v i else bit (s.reg a) i && !(r.w1c.testBit i && bit v i) := by
  rw [bit_plainWrite r _ _ i hi (regRow_rw a r hr), bit_maskSets s r a i v hi]
  simp [hn i]

end Sys2Proof

/-! SUPPORT. The passing of time: what the end of a fabric cycle changes, and that it counts the cycles asked for. -/

namespace Sys2Proof

open Machine

/-! ### What acts on timers -/

theorem slotEvent_only (s : State) (t i : Nat) : OnlyIn [.regs, .timers, .hinge] s (s.slotEvent t i) := by
  simp only [State.slotEvent]
  split
  · exact OnlyIn.refl _ s
  · exact (raiseLater_only s _ _).mono (by simp)

theorem updSlot_only (s : State) (t i : Nat) (f : Slot → Slot) : OnlyIn [.regs, .timers, .hinge] s (s.updSlot t i f) :=
  (setTmr_only s t _).mono (by simp)

theorem slotMatch_only (s : State) (t i : Nat) : OnlyIn [.regs, .timers, .hinge] s (s.slotMatch t i) := by
  simp only [State.slotMatch]
  refine OnlyIn.trans ?_ (slotEvent_only _ t i)
  split
  · exact (updSlot_only s t i _).trans ((setFlag_only _ _ _).mono (by simp))
  · exact updSlot_only s t i _

theorem afterStep_only (s : State) (t : Nat) (wrap : Bool) : OnlyIn [.regs, .timers, .hinge] s (s.afterStep t wrap) := by
  have hf := OnlyIn.foldl (ps := [.regs, .timers, .hinge]) (fun s i =>
    if s.armedAt t i && ((s.tmr t).slot i).cmp == (s.tmr t).cnt then s.slotMatch t i
    else if wrap && s.smode t i == 3 then s.slotEvent t i else s) (upTo 4) s (by
      intro s i
      split
      · exact slotMatch_only s t i
      · split
        · exact slotEvent_only s t i
        · exact OnlyIn.refl _ s)
  simp only [State.afterStep]
  split
  · exact hf
  · exact (hf.trans ((setTmr_only _ t _).mono (by simp))).trans ((note_only _ _).mono (by simp))

theorem steps_only (s : State) (t n : Nat) : OnlyIn [.regs, .timers, .hinge] s (s.steps t n) := by
  induction n generalizing s with
  | zero => exact OnlyIn.refl _ s
  | succ n ih =>
    simp only [State.steps]
    split
    · exact OnlyIn.refl _ s
    · exact (((setTmr_only s t _).mono (by simp)).trans (afterStep_only _ t _)).trans (ih _)

theorem takeSteps_only (s : State) (t : Nat) : OnlyIn [.regs, .timers, .hinge] s (s.takeSteps t) := by
  have h0 := (setTmr_only s t { s.tmr t with steps := 0 }).mono (qs := [.regs, .timers, .hinge]) (by simp)
  simp only [State.takeSteps]
  split
  · exact (h0.trans ((setTmr_only _ t _).mono (by simp))).trans (steps_only _ t _)
  · exact h0

theorem lfcap_only (s : State) (t : Nat) : OnlyIn [.regs, .timers, .hinge] s (s.lfcap t) := by
  simp only [State.lfcap, State.capture, State.captureOf]
  split
  · exact OnlyIn.refl _ s
  · split
    · exact (updSlot_only s t _ _).trans (slotEvent_only _ t _)
    · exact (updSlot_only s t _ _).trans (slotEvent_only _ t _)
    · exact (setFlag_only s _ _).mono (by simp)

/-! ### Cycles -/

/-- The parts of the state that change while nothing but time acts. -/
def timeParts : List Part := [.cycle, .tb, .tum, .regs, .timers, .hinge]

theorem passBy_only (s : State) (n : Nat) : OnlyIn timeParts s (s.passBy n) := by
  simp only [State.passBy]
  split
  · exact OnlyIn.refl _ s
  · intro p hp; cases p <;> first | rfl | exact absurd (by simp [timeParts]) hp

theorem passBy_cycle (s : State) (n : Nat) : (s.passBy n).cycle = s.cycle + n := by
  simp only [State.passBy]
  split
  · simp [*]
  · rfl

theorem padUp_only (s : State) : OnlyIn [.tb, .regs, .hinge] s s.padUp := by
  have h0 : OnlyIn [.tb, .regs, .hinge] s { s with tb := BitVec.ofNat 88 (s.tb.toNat / 2 ^ 32 * 2 ^ 32) } := by
    intro p hp; cases p <;> first | rfl | exact absurd (by simp) hp
  simp only [State.padUp, State.setSync]
  refine OnlyIn.trans ?_ ((setReg_only _ _ _).mono (by simp))
  split
  · exact h0
  · exact (h0.trans ((setReg_only _ _ _).mono (by simp))).trans ((raise_only _ _).mono (by simp))

theorem passUp_only (s : State) (n : Nat) : OnlyIn timeParts s (s.passUp n) := by
  simp only [State.passUp]
  split
  · exact passBy_only s n
  · exact ((passBy_only s _).trans ((padUp_only _).mono (by simp [timeParts]))).trans (passBy_only _ _)

theorem passUp_cycle (s : State) (n : Nat) : (s.passUp n).cycle = s.cycle + n := by
  simp only [State.passUp]
  split
  · exact passBy_cycle s n
  · rw [passBy_cycle, (padUp_only _) .cycle (by simp), passBy_cycle]
    omega

theorem landLfcap_only (s : State) (x : Nat × Nat) : OnlyIn timeParts s (s.landLfcap x) :=
  ((passUp_only s _).trans ((setHinge_only _ _).mono (by simp [timeParts]))).trans
    ((lfcap_only _ _).mono (by simp [timeParts]))

/-- An LFCAP lands in its cycle, or in the present one where that has come. -/
theorem landLfcap_cycle (s : State) (x : Nat × Nat) : (s.landLfcap x).cycle = s.cycle + (x.2 - s.cycle) := by
  rw [← passUp_cycle]
  exact (lfcap_only _ _) .cycle (by simp)

theorem endCycle_only (s : State) : OnlyIn [.regs, .timers, .hinge] s s.endCycle :=
  OnlyIn.foldl _ _ s fun s t => takeSteps_only s t

theorem pass_only (s : State) (n : Nat) : OnlyIn timeParts s (s.pass n) := by
  simp only [State.pass]
  split
  · exact OnlyIn.refl _ s
  · refine OnlyIn.trans ?_ (passUp_only _ _)
    exact ((endCycle_only s).mono (by simp [timeParts])).trans (OnlyIn.foldl _ _ _ fun s x => landLfcap_only s x)

/-- As many fabric cycles pass as are asked for, whatever lands in them. -/
theorem pass_cycle (s : State) (n : Nat) : (s.pass n).cycle = s.cycle + n := by
  have lands (l : List (Nat × Nat)) (u : State) (c : Nat) (hl : ∀ x ∈ l, x.2 ≤ c) (hu : u.cycle ≤ c) :
      (l.foldl State.landLfcap u).cycle ≤ c := by
    induction l generalizing u with
    | nil => exact hu
    | cons x l ih =>
      refine ih _ (fun y hy => hl y (List.mem_cons_of_mem _ hy)) ?_
      have := hl x (List.mem_cons_self ..)
      rw [landLfcap_cycle]; omega
  simp only [State.pass]
  split
  · simp [*]
  · have he : s.endCycle.cycle = s.cycle := (endCycle_only s) .cycle (by simp)
    have hc := lands (s.hinge.lfdue.filter fun x => decide (x.2 ≤ s.cycle + n)) s.endCycle (s.cycle + n)
      (fun x hx => by simpa using (List.mem_filter.1 hx).2) (by omega)
    rw [passUp_cycle]; omega

end Sys2Proof

/-! What a write of REGISTER_WRITE does, case by case (O25). -/

namespace Sys2Proof

open Machine

/-! ### Registers without behaviour of their own -/

theorem setNow_fresh {s : State} {a : Nat} (h : Fresh s) (ha : a ∈ plainRegs) (i : Nat) : s.setNow a i = false :=
  ((h.nothing).2 a i (plainRegs_place ha).keeper (plainRegs_place ha).aon).1

/-- R13, R14: a write of a register without behaviour of its own that lands. -/
theorem registerWrite_plain {id : Id} {addr v : Word} {s : State} {r : RegRow} (ha : addr.toNat ∈ plainRegs)
    (hr : regRow addr.toNat = some r) (h : Lands id addr.toNat v s) :
    After (.registerWrite id addr v) s fun s' =>
      (∀ i, i < 32 → bit (s'.reg addr.toNat) i = if r.rw.testBit i then bit v i
        else bit (s.reg addr.toNat) i && !(r.w1c.testBit i && bit v i))
      ∧ RegsBut [addr.toNat] s s' ∧ OnlyIn [.regs] s s' := by
  have hp := plainRegs_place ha
  have hw := regWrite_plain (v := v) ha hr h.free (outranked_none s id.toNat addr.toNat h.first.nothing.1) h.still
  obtain ⟨hb, ho⟩ := plain_write_frame s id.toNat addr.toNat
    (plainWrite r (s.reg addr.toNat) ((s.noteWrites id.toNat [addr.toNat]).maskSets r addr.toNat v))
  have he := exec_write_reaches hp.aligned h.toReaches
  rw [hw, settle_of_sys h.settled (ho.sys (by simp))] at he
  refine ⟨_, he, fun i hi => ?_, hb, ho⟩
  rw [State.setReg_reg_same]
  exact bit_plainWrite_masked (s.noteWrites id.toNat [addr.toNat]) r addr.toNat v hr
    (fun i => (setNow_noteWrites ..).trans (setNow_fresh h.first ha i)) i hi

/-- R37: a W1C bit that hardware sets in the cycle of the write stays set. -/
theorem registerWrite_setNow {id : Id} {addr v : Word} {s : State} {r : RegRow} {i : Nat} (ha : addr.toNat ∈ plainRegs)
    (hr : regRow addr.toNat = some r) (h : Reaches id addr.toNat v s) (hi : i < 32) (hrw : r.rw.testBit i = false)
    (hn : s.sameNow.writes = []) (hs : s.setNow addr.toNat i = true) (hb : bit (s.reg addr.toNat) i = true) :
    After (.registerWrite id addr v) s fun s' => bit (s'.reg addr.toNat) i = true := by
  have hw := regWrite_plain (v := v) ha hr h.free (outranked_none s id.toNat addr.toNat hn) h.still
  have he := exec_write_reaches (plainRegs_place ha).aligned h
  rw [hw, settle_of_sys h.settled ((plain_write_frame s _ _ _).2.sys (by simp))] at he
  refine ⟨_, he, ?_⟩
  show bit (State.reg _ _) i = true
  rw [State.setReg_reg_same, bit_plainWrite r _ _ i hi (regRow_rw _ r hr), bit_maskSets _ r _ i v hi, setNow_noteWrites]
  cases r.w1c.testBit i <;> simp [hrw, hs, hb]

/-- The RW bits of a register are none of its W1C bits. -/
theorem regRows_disjoint : regRows.all (fun r => r.rw &&& r.w1c == 0) = true := by decide +kernel

theorem regRow_w1c (a : Nat) (r : RegRow) (h : regRow a = some r) (i : Nat) (hi : r.rw.testBit i = true) :
    r.w1c.testBit i = false := by
  have hz : r.rw &&& r.w1c = 0 := by
    simp only [regRow] at h
    split at h
    · cases h; exact Nat.and_zero _
    · simpa using (List.all_eq_true.1 regRows_disjoint) r (List.mem_of_find?_eq_some h)
  have := congrArg (Nat.testBit · i) hz
  simpa [hi] using this

/-- R42, log entry 83: a write that a higher identity's of its cycle has gone ahead of acts in the next cycle. -/
theorem registerWrite_outranked {id : Id} {addr v : Word} {s : State} {r : RegRow} {h' : Nat} (ha : addr.toNat ∈ wordRegs)
    (hr : regRow addr.toNat = some r) (h : Reaches id addr.toNat v s) (hm : (addr.toNat, h') ∈ s.sameNow.writes)
    (hlt : id.toNat < h') (hge : 256 ≤ h') : After (.registerWrite id addr v) s fun s' =>
      s'.cycle = s.cycle + 1
      ∧ s' = (((s.pass 1).noteWrites id.toNat [addr.toNat]).writeActs id.toNat addr.toNat v).settle
      ∧ ∀ i, i < 32 → r.rw.testBit i = true → bit (s'.reg addr.toNat) i = bit v i := by
  obtain ⟨hp, hpad⟩ := wordRegs_plain ha
  have hpl := plainRegs_place hp
  have ho : s.outranked id.toNat addr.toNat = true := by
    simp only [State.outranked, List.any_eq_true]
    exact ⟨_, hm, by simp [hlt, hge]⟩
  have hw : s.regWrite id.toNat addr.toNat v
      = ((s.pass 1).noteWrites id.toNat [addr.toNat]).writeActs id.toNat addr.toNat v := by
    have hpad' : ¬ addr.toNat / 0x10000 = 0x5002 := hpad
    simp [State.regWrite, State.landsAfter, h.free, hpl.aon, ho, hpl.groups, hpad']
  have he := exec_write_reaches hpl.aligned h
  rw [hw] at he
  have hsys : (((s.pass 1).noteWrites id.toNat [addr.toNat]).writeActs id.toNat addr.toNat v).sys = s.sys := by
    rw [writeActs_plain _ _ _ v r hp hr]
    exact (pass_only s 1).sys (by simp [timeParts])
  refine ⟨_, he, ?_, rfl, fun i hi hrw => ?_⟩ <;> rw [settle_of_sys h.settled hsys, writeActs_plain _ _ _ v r hp hr]
  · exact pass_cycle s 1
  · rw [State.setReg_reg_same, bit_plainWrite r _ _ i hi (regRow_rw _ r hr), if_pos hrw, bit_maskSets _ r _ i v hi,
      regRow_w1c _ r hr i hrw]
    simp

/-! ### Registers that act, the always-on island, memory -/

theorem registerWrite_acts {id : Id} {addr v : Word} {s : State} (ha : addr.toNat % 4 = 0) (hn : addr.toNat ∉ aonRegs)
    (h : Lands id addr.toNat v s) : After (.registerWrite id addr v) s fun s' =>
      s' = ((s.noteWrites id.toNat [addr.toNat]).writeActs id.toNat addr.toNat v).settle :=
  ⟨_, exec_write_reaches ha h.toReaches, by rw [regWrite_own s _ _ v h.free hn h.still h.first]⟩

theorem aonRegs_aligned {a : Nat} (h : a ∈ aonRegs) : a % 4 = 0 := by
  have : ∀ a ∈ aonRegs, a % 4 = 0 := by decide
  exact this a h

/-- The slow crossing changes nothing but the writes that cross. -/
theorem setSys_only (s : State) (x : Sys) : OnlyIn [.sys] s { s with sys := x } := by
  intro p hp; cases p <;> first | rfl | exact absurd (by simp) hp

/-- R28: a write of an always-on register joins the slow crossing. -/
theorem registerWrite_aon {id : Id} {addr v : Word} {s : State} (ha : addr.toNat ∈ aonRegs)
    (h : Reaches id addr.toNat v s) : After (.registerWrite id addr v) s fun s' =>
      s'.sys = { s.sys with aon := s.sys.aon ++ [⟨addr.toNat, v, if id.toNat < 256 then some id.toNat else none⟩] }
      ∧ OnlyIn [.sys] s s' := by
  have hw := regWrite_aon s id.toNat addr.toNat v h.free ha
  have hs : Settled (s.regWrite id.toNat addr.toNat v) := by rw [hw]; exact h.settled
  have he := exec_write_reaches (aonRegs_aligned ha) h
  rw [settle_settled _ hs] at he
  exact ⟨_, he, by rw [hw], by rw [hw]; exact setSys_only s _⟩

/-- An access by a thread extends no pass of point processing where none runs (R303). -/
theorem imageUse_idle (s : State) (id a n : Nat) (h : s.scan.run = none) : s.imageUse id a n = s := by
  simp [State.imageUse, State.imageCycles, h]

theorem memory_not_lrpStat {a : Nat} (h : inImage a = true ∨ inWard a = true) : a ≠ aLrpStat := by
  rintro rfl; exact absurd h (by decide)

/-- A bus write to image memory or the Ward table stores the word. -/
theorem busWrite_memory (s : State) (id a : Nat) (v : Word) (ha : inImage a = true ∨ inWard a = true)
    (hs : s.scan.run = none) : s.busWrite id a v = (s.storeIn a 4 v.toNat id, .val 0) := by
  rcases ha with ha | ha <;> simp [State.busWrite, ha, imageUse_idle _ _ _ _ hs]

theorem registerWrite_memory {id : Id} {addr v : Word} {s : State} (hm : inImage addr.toNat = true ∨ inWard addr.toNat = true)
    (ha : addr.toNat % 4 = 0) (hr : s.running = true) (ho : s.oddTwin id.toNat = false) (hs : Settled s)
    (hu : Unsent id.toNat s) (hc : Clean s) (hn : s.scan.run = none) : After (.registerWrite id addr v) s fun s' =>
      readWord s'.mem addr.toNat = v ∧ MemoryOutside addr.toNat 4 s s' ∧ OnlyIn [.mem] s s' := by
  obtain ⟨hf, hb⟩ := storeIn_errorFree s addr.toNat 4 v.toNat id.toNat hc.errorFree fun a => outranked_none s _ a hc.2.2
  obtain ⟨hv, hx⟩ := word_stored s _ addr.toNat v hb
  refine ⟨_, exec_registerWrite id addr v s ha fun hl => memory_not_lrpStat hm hl.2, ?_⟩
  have he : s.masterWrite id.toNat addr.toNat v = (s.storeIn addr.toNat 4 v.toNat id.toNat) := by
    simp [State.masterWrite, hr, ho, masterTurn_alone s _ _ hu, busWrite_memory s _ _ v hm hn,
      settle_of_sys hs (hf.sys (by simp))]
  rw [he]
  exact ⟨hv, hx, hf⟩

/-! ### Refused writes (R24, R143) -/

/-- A write that the bus answers with an error: what the error does to its master. -/
theorem exec_write_refused {id : Id} {addr v : Word} {s t : State} {c : Trap} (ha : addr.toNat % 4 = 0)
    (hl : ¬ (id.toNat = 288 ∧ addr.toNat = aLrpStat)) (hr : s.running = true) (ho : s.oddTwin id.toNat = false)
    (hu : Unsent id.toNat s) (hb : s.busWrite id.toNat addr.toNat v = (t, .err c (word addr.toNat))) :
    exec (.registerWrite id addr v) s = .next (t.masterErr id.toNat addr.toNat c addr) := by
  rw [exec_registerWrite id addr v s ha hl]
  simp [State.masterWrite, hr, ho, masterTurn_alone s _ _ hu, hb, word]

/-- A thread takes an error as an outstanding request that has ended in it (log entry 69). -/
theorem masterErr_thread (s t : State) (id a : Nat) (c : Trap) (info : Word) (hi : id < 256)
    (ht : t.threads = s.threads) :
    let x := s.thr id
    ((t.masterErr id a c info).thr id).outst = x.outst ++ [⟨x.pc, .done, [], some (c, info), isleOf a, x.nextOrd⟩]
      ∧ ThreadsBut [id] s (t.masterErr id a c info) ∧ OnlyIn [.threads] t (t.masterErr id a c info) := by
  have he : t.thr = s.thr := by funext j; exact State.thr_of_threads s t ht j
  simp only [State.masterErr, if_pos hi]
  refine ⟨by simp [he], fun j hj => ?_, setThr_only t id _⟩
  rw [State.updThr_thr, if_neg (by simpa using hj), he]

theorem busWrite_priv (s : State) (id a : Nat) (v : Word) (hw : inRegs a = true) (hg : s.gated a = false)
    (hm : mayWrite id a v = false) : s.busWrite id a v = (s, .err .priv (word a)) := by
  obtain ⟨hi, hd⟩ := inRegs_not_memory a hw
  simp [State.busWrite, hi, hd, hw, hg, hm]

theorem busWrite_nowhere (s : State) (id a : Nat) (v : Word) (h : inFar a = false) :
    s.busWrite id a v = (s, .err .farerr (word a)) := by
  simp only [inFar, Bool.or_eq_false_iff] at h
  obtain ⟨⟨hi, hd⟩, hw⟩ := h
  simp [State.busWrite, hi, hd, hw]

theorem busWrite_gated (s : State) (id a : Nat) (v : Word) (hw : inRegs a = true) (hg : s.gated a = true) :
    s.busWrite id a v = (s.gateCount id, .err .farerr (word a)) := by
  obtain ⟨hi, hd⟩ := inRegs_not_memory a hw
  simp [State.busWrite, hi, hd, hw, hg]

/-- R24, Tables 1.12, 1.12a: an access to an island that is off is counted with its master, flagged and raised. -/
theorem gateCount_raisable (s : State) (id : Nat) (hi : id < 256) (h : Raisable 666 s) :
    bit ((s.gateCount id).reg aXflag) 0 = true ∧ fld ((s.gateCount id).reg aXerr) 0 9 = id
      ∧ fld ((s.gateCount id).reg aXerr) 16 16 = min 0xFFFF (fld (s.reg aXerr) 16 16 + 1)
      ∧ RaisedNow 666 s (s.gateCount id) ∧ RegsBut [aXerr, aXflag] s (s.gateCount id)
      ∧ OnlyIn [.regs, .hinge] s (s.gateCount id) := by
  let u := ((s.count aXerr 16 16).setRegFld aXerr 0 9 id).setFlag aXflag 0
  have hu : s.gateCount id = u.raise 666 := rfl
  have hreg (a : Nat) : u.reg a = if a = aXflag then setBit (s.reg aXflag) 0 true
      else if a = aXerr then setFld (setFld (s.reg aXerr) 16 16 (min 0xFFFF (fld (s.reg aXerr) 16 16 + 1))) 0 9 id
      else s.reg a := by
    have hne : aXflag ≠ aXerr := by decide
    simp only [u, setFlag_reg, State.setRegFld, State.setReg_reg, count_reg, if_neg hne]
    split
    · rfl
    · split <;> rfl
  have hr : Raisable 666 u := ⟨h.1, by rw [hreg, if_neg (by decide), if_neg (by decide)]; exact h.2.1, h.2.2⟩
  have ht : RaisedNow 666 u (u.raise 666) := raise_taken u 666 hr
  have hregs : (u.raise 666).regs = u.regs := by
    simp only [State.raise]; rw [raiseIn_taken u _ _ _ _ hr.1 hr.2.1 hr.2.2]
  rw [hu]
  simp only [State.reg_of_regs u _ hregs, hreg]
  refine ⟨?_, ?_, ?_, ht, fun a ha => ?_, ?_⟩
  · simp [bit_setBit]
  · rw [if_neg (by decide), if_pos trivial, fld_setFld _ _ _ _ (by omega)]; omega
  · rw [if_neg (by decide), if_pos trivial, fld_setFld_other _ _ _ _ _ _ (by omega) (by omega), fld_setFld _ _ _ _ (by omega)]
    omega
  · simp only [List.mem_cons, List.not_mem_nil, or_false, not_or] at ha
    rw [State.reg_of_regs u _ hregs, hreg, if_neg ha.2, if_neg ha.1]
  · have h1 : OnlyIn [.regs, .hinge] s u :=
      (((count_only s _ _ _ _).mono (by simp)).trans ((setReg_only _ _ _).mono (by simp))).trans
        ((setFlag_only _ _ _).mono (by simp))
    exact h1.trans (raise_only u 666)

/-- R193: with nobody waiting for it, a lock that becomes free changes the Tumbler unit only. -/
theorem freeLock_alone (s : State) (a : Nat) (mark : Bool) (h : s.tum.waiters = []) : OnlyIn [.tum] s (s.freeLock a mark) := by
  simp only [State.freeLock, State.completeWaiters, h, List.filter_nil, List.map_nil, List.foldl_nil]
  exact (setTum_only s _).trans (setTum_only _ _)

/-- The first Tumbler request of a cycle takes its turn at once (R195). -/
theorem tumTurn_first (s : State) (step id : Nat) (h : s.sameNow.tumRank = 0) : OnlyIn [] s (s.tumTurn step id) := by
  simp only [State.tumTurn, h, Nat.not_lt_zero, if_false]
  exact note_only s _

theorem release_alone (s : State) (id a : Nat) (h : s.tum.waiters = []) (ht : s.sameNow.tumRank = 0) :
    OnlyIn [.tum, .regs] s (s.release id a).1 := by
  have h0 := (tumTurn_first s 2 id ht).mono (qs := [.tum, .regs]) (by simp)
  have hw : (s.tumTurn 2 id).tum.waiters = [] := by rw [(tumTurn_first s 2 id ht) .tum (by simp)]; exact h
  simp only [State.release]
  split
  · exact h0.trans ((freeLock_alone _ a false hw).mono (by simp))
  · exact h0.trans ((count_only _ _ _ _ _).mono (by simp))

/-- A raise and a register's word leave a changed channel as it is. -/
theorem chan_updChan_raise (s : State) (c a ch : Nat) (f : Chan → Chan) (v : Word) :
    (((s.updChan c f).setReg a v).raise ch).chan c = f (s.chan c) := by
  have hc : (((s.updChan c f).setReg a v).raise ch).chans = (s.updChan c f).chans := (raise_only _ ch) .chans (by simp)
  simp only [State.chan, hc]
  simp [State.updChan, State.setChan, State.chan, tabGet_tabSet]

/-- What a halting channel's lock is given back before the halt (R319). -/
def haltUnlocked (s : State) (c : Nat) : State :=
  match (s.chan c).lock with
  | some b => s.chanUnlock c b
  | none => s

/-- The channel as a halt with status `code` leaves it (Table 11.12). -/
def haltedChan (code : Nat) (x : Chan) : Chan :=
  { x with run := false, lockw := false, lock := none, stopped := false, stopReq := false, err := code, desc := none, done := 0 }

theorem chanHalt_eq (s : State) (c code : Nat) (a : Word) : s.chanHalt c code a =
    (((haltUnlocked s c).updChan c (haltedChan code)).setReg (aSh c 0x10) a).raise (513 + 2 * c) := rfl

theorem haltUnlocked_alone (s : State) (c : Nat) (h : s.tum.waiters = []) (ht : s.sameNow.tumRank = 0) :
    OnlyIn [.tum, .regs] s (haltUnlocked s c) := by
  simp only [haltUnlocked]
  split
  · exact (release_alone s _ _ h ht).trans ((setTum_only _ _).mono (by simp))
  · exact OnlyIn.refl _ s

/-- R319: a channel that halts with nobody waiting for its lock stops; memory and the modes stand. -/
theorem chanHalt_alone (s : State) (c code : Nat) (a : Word) (h : s.tum.waiters = []) (ht : s.sameNow.tumRank = 0) :
    ((s.chanHalt c code a).chan c).run = false ∧ OnlyIn [.tum, .chans, .regs, .hinge] s (s.chanHalt c code a) := by
  rw [chanHalt_eq]
  constructor
  · rw [chan_updChan_raise]; rfl
  · exact ((((haltUnlocked_alone s c h ht).mono (by simp)).trans ((setChan_only _ c _).mono (by simp))).trans
      ((setReg_only _ _ _).mono (by simp))).trans ((raise_only _ _).mono (by simp))

end Sys2Proof

namespace Sys2Proof

open Machine

/-! ### The refusals by their masters -/

/-- R143: a thread's refused write is an error reply of its own, and nothing else. -/
theorem registerWrite_told {id : Id} {addr v : Word} {s t : State} {c : Trap} (hi : id.toNat < 256)
    (ht : t.threads = s.threads)
    (he : exec (.registerWrite id addr v) s = .next (t.masterErr id.toNat addr.toNat c addr)) (p : State → Prop)
    (hp : ∀ u, OnlyIn [.threads] t u → p u) : After (.registerWrite id addr v) s fun s' =>
      ((s'.thr id.toNat).outst = (s.thr id.toNat).outst
          ++ [⟨(s.thr id.toNat).pc, .done, [], some (c, addr), isleOf addr.toNat, (s.thr id.toNat).nextOrd⟩]
        ∧ ThreadsBut [id.toNat] s s') ∧ p s' := by
  obtain ⟨ho, hb, hf⟩ := masterErr_thread s t id.toNat addr.toNat c addr hi ht
  exact ⟨_, he, ⟨ho, hb⟩, hp _ hf⟩

theorem registerWrite_priv_shuttle {id : Id} {addr v : Word} {s : State} (hs : isShuttle id.toNat = true)
    (hw : s.tum.waiters = []) (ht : s.sameNow.tumRank = 0)
    (he : exec (.registerWrite id addr v) s = .next (s.masterErr id.toNat addr.toNat .priv addr)) :
    After (.registerWrite id addr v) s fun s' =>
      (s'.chan (id.toNat - 256)).run = false ∧ s'.mem = s.mem ∧ s'.sys = s.sys := by
  have hid : 256 ≤ id.toNat ∧ id.toNat < 288 := by simpa [isShuttle] using hs
  obtain ⟨hr, ho⟩ := chanHalt_alone s (id.toNat - 256) 2 (word addr.toNat) hw ht
  rw [State.masterErr, if_neg (by omega), if_pos hs] at he
  exact ⟨_, he, hr, ho.mem (by simp), ho.sys (by simp)⟩

theorem registerWrite_priv_unit {id : Id} {addr v : Word} {s : State} (hi : 288 ≤ id.toNat)
    (he : exec (.registerWrite id addr v) s = .next (s.masterErr id.toNat addr.toNat .priv addr)) :
    After (.registerWrite id addr v) s fun s' => OnlyIn [] s s' := by
  have hs : isShuttle id.toNat = false := by simp [isShuttle]; omega
  rw [State.masterErr, if_neg (by omega), if_neg (by simp [hs])] at he
  exact ⟨_, he, OnlyIn.refl _ s⟩

/-- Table 17.9: REJ of the local register port's status clears where 1 is written. -/
theorem registerWrite_lrpStat {addr v : Word} {s : State} (ha : addr.toNat = aLrpStat) (hr : s.running = true)
    (hv : bit v 29 = true) : After (.registerWrite 288 addr v) s fun s' =>
      s'.lrp = { s.lrp with rej := false } ∧ OnlyIn [.lrp] s s' := by
  have he : exec (.registerWrite 288 addr v) s = .next { s with lrp := { s.lrp with rej := false } } := by
    show execRegisterWrite 288 addr v s = _
    rw [execRegisterWrite, if_pos ⟨rfl, ha⟩]
    simp [State.lrpStatWrite, hr, hv]
  exact ⟨_, he, rfl, fun p hp => by cases p <;> first | rfl | exact absurd (by simp) hp⟩

/-- Settles O25: each clause is one case of the bus write, by the address and the master. -/
theorem registerWrites : Obligations.RegisterWrites := by
  unfold Obligations.RegisterWrites
  intro id addr v s a c t told
  refine ⟨fun r ha hr h => registerWrite_plain ha hr h, fun ha hn h => registerWrite_acts ha hn h,
    fun ha h => registerWrite_aon ha h,
    fun r i ha hr h hi _ hrw hn hs hb => registerWrite_setNow ha hr h hi hrw hn hs hb,
    fun r h ha hr hr' hm hlt hge => registerWrite_outranked ha hr hr' hm hlt hge,
    fun hm ha hr ho hs hu hc hn => registerWrite_memory hm ha hr ho hs hu hc hn,
    fun ha hr ho hu ht => ⟨fun hw hg hm hl => ?_, fun hf hi => ?_, fun hg hw hi hx => ?_⟩, ?_⟩
  · have hl' : ¬ (id.toNat = 288 ∧ a = aLrpStat) := fun h => inRegs_not_lrpStat hw h.2
    have he := exec_write_refused ha hl' hr ho hu (busWrite_priv s id.toNat a v hw hg hm)
    exact ⟨fun hi => registerWrite_told hi rfl he _ fun u hu => hu,
      fun hs hw _ => registerWrite_priv_shuttle hs hw ht he, fun hi => registerWrite_priv_unit hi he⟩
  · have hl' : ¬ (id.toNat = 288 ∧ a = aLrpStat) := fun h => by omega
    exact registerWrite_told hi rfl (exec_write_refused ha hl' hr ho hu (busWrite_nowhere s id.toNat a v hf)) _
      fun u hu => hu
  · have hl' : ¬ (id.toNat = 288 ∧ a = aLrpStat) := fun h => by omega
    obtain ⟨hflag, hid, hcount, hraised, hregs, honly⟩ := gateCount_raisable s id.toNat hi hx
    have he := exec_write_refused ha hl' hr ho hu (busWrite_gated s id.toNat a v hw hg)
    refine registerWrite_told hi (honly.threads (by simp)) he _ fun u hu => ?_
    have hreg (b : Nat) : u.reg b = (s.gateCount id.toNat).reg b := State.reg_of_regs _ _ (hu.regs (by simp)) b
    refine ⟨by rw [hreg]; exact hflag, by rw [hreg]; exact hid, by rw [hreg]; exact hcount, ?_,
      fun b hb => (hreg b).trans (hregs b hb), (honly.mono (by simp)).trans (hu.mono (by simp))⟩
    exact (hu.hinge (by simp)).trans hraised
  · rintro rfl ha hr hv
    exact registerWrite_lrpStat ha hr hv

end Sys2Proof

/-! SUPPORT. A beat from its position to the successor: what the position leaves of the state, and what the end of an
instruction keeps, with the requests of the thread and the merge entries of its engine. -/

namespace Sys2Proof

open Machine

/-! ### The position -/

@[simp] theorem enter_errs (t : Thread) (c : Nat) (st : ThreadState) : (t.enter c st).errs = t.errs := by
  simp only [Thread.enter]; split <;> rfl
@[simp] theorem enter_vbase (t : Thread) (c : Nat) (st : ThreadState) : (t.enter c st).vbase = t.vbase := by
  simp only [Thread.enter]; split <;> rfl
@[simp] theorem enter_slim (t : Thread) (c : Nat) (st : ThreadState) : (t.enter c st).slim = t.slim := by
  simp only [Thread.enter]; split <;> rfl

/-- An engine but for what threads that run and stop change of it: the holder of its pool. -/
def SameEngine (e e' : Engine) : Prop :=
  e'.power = e.power ∧ e'.localMerge = e.localMerge ∧ e'.farMerge = e.farMerge

theorem SameEngine.trans {d e f : Engine} (h : SameEngine d e) (h' : SameEngine e f) : SameEngine d f :=
  ⟨h'.1.trans h.1, h'.2.1.trans h.2.1, h'.2.2.trans h.2.2⟩

theorem updEng_same {e : Engine} (s : State) (k j : Nat) {f : Engine → Engine} (h : SameEngine e (s.eng j))
    (hf : ∀ e, SameEngine e (f e)) : SameEngine e ((s.updEng k f).eng j) := by
  rw [State.updEng_eng]
  split
  · subst_vars; exact h.trans (hf _)
  · exact h

/-- The state as the position of a beat leaves it to the instruction of thread `id`: the thread runs with its context, the
merge entries stand, and the cycle has seen a thread run. -/
structure Begun (id : Nat) (s p : State) : Prop where
  only : OnlyIn [.engines, .threads] s p
  thr : p.thr id = { (s.thr id).enter s.cycle .running with wait := .none }
  others : OtherThreads id s p
  engines : ∀ j, SameEngine (s.eng j) (p.eng j)
  now : p.sameNow = { s.sameNow with ran := true }

theorem takePosition_begun (s : State) (b : Beat) :
    Begun b.id s (s.takePosition b.eng.val b.pos.val b.thr.val) where
  only := takePosition_only s _ _ _
  thr := takePosition_thr s _ _ _
  others := fun j hj => takePosition_thr_other s _ _ _ j hj
  engines := by
    intro j
    simp only [State.takePosition]
    split
    · rw [State.updThr_eng]
      refine updEng_same _ b.eng.val j ⟨rfl, rfl, rfl⟩ fun e => ?_
      split <;> exact ⟨rfl, rfl, rfl⟩
    · exact ⟨rfl, rfl, rfl⟩
  now := by
    have hn := note_sameNow s ({ · with ran := true }) (sameNow_cyc s)
    simp only [State.takePosition]
    rw [← hn]
    split <;> exact sameNow_congr rfl rfl

theorem beat_id_div (b : Beat) : b.id / 16 = b.eng.val := by have := b.thr.isLt; simp only [Beat.id]; omega

theorem beat_id_lt (b : Beat) : b.id < 256 := by have := b.thr.isLt; have := b.eng.isLt; simp only [Beat.id]; omega

section

variable {id : Nat} {s p : State} (h : Begun id s p)
include h

theorem Begun.w : (p.thr id).w = (s.thr id).w := by simp [h.thr]
theorem Begun.rd (r : Reg) : (p.thr id).rd r = (s.thr id).rd r := by simp only [Thread.rd, h.w]
theorem Begun.pc : (p.thr id).pc = (s.thr id).pc := by simp [h.thr]
theorem Begun.status : (p.thr id).status = (s.thr id).status := by simp [h.thr]
theorem Begun.outst : (p.thr id).outst = (s.thr id).outst := by simp [h.thr]
theorem Begun.nextOrd : (p.thr id).nextOrd = (s.thr id).nextOrd := by simp [h.thr, Thread.nextOrd]
theorem Begun.stepping : (p.thr id).stepping = (s.thr id).stepping := by simp [h.thr]
theorem Begun.reg (a : Nat) : p.reg a = s.reg a := State.reg_of_regs s p (h.only.regs (by simp)) a
theorem Begun.twin (k : Nat) : p.twin k = s.twin k := by simp only [State.twin, h.reg]
theorem Begun.sys : p.sys = s.sys := h.only.sys (by simp)
theorem Begun.mem : p.mem = s.mem := h.only.mem (by simp)
theorem Begun.hinge : p.hinge = s.hinge := h.only.hinge (by simp)
theorem Begun.scan : p.scan = s.scan := h.only .scan (by simp)
theorem Begun.errorFree (he : ErrorFree s) : ErrorFree p := he.of_only h.only (by simp) (by simp)
theorem Begun.outranked (j a : Nat) : p.outranked j a = s.outranked j a := by simp only [State.outranked, h.now]

end

/-! ### The successor -/

theorem dropHolder_engine (s : State) (id j : Nat) : SameEngine (s.eng j) ((s.dropHolder id).eng j) := by
  refine updEng_same s (id / 16) j ⟨rfl, rfl, rfl⟩ fun e => ?_
  split <;> exact ⟨rfl, rfl, rfl⟩

theorem halt_engine (s : State) (id j : Nat) : SameEngine (s.eng j) ((s.halt id).eng j) := by
  simp only [State.halt]
  split
  · exact ⟨rfl, rfl, rfl⟩
  · exact dropHolder_engine (s.updThr id (·.enter s.cycle .halted)) id j

theorem halt_outst (s : State) (id : Nat) : ((s.halt id).thr id).outst = (s.thr id).outst := by
  simp only [State.halt, State.setSt, State.dropHolder]
  split <;> simp

theorem done_engine (s : State) (id j : Nat) (pc : Word) : SameEngine (s.eng j) ((s.done id pc).eng j) := by
  simp only [State.done, State.stepEnd]
  split
  · exact halt_engine (s.updThr id _) id j
  · exact ⟨rfl, rfl, rfl⟩

theorem done_outst (s : State) (id : Nat) (pc : Word) : ((s.done id pc).thr id).outst = (s.thr id).outst := by
  have h (t : Thread) : (if t.bpSkip = some pc then { t with bpSkip := none } else t).outst = t.outst := by split <;> rfl
  simp only [State.done, State.stepEnd]
  split
  · rw [halt_outst]; simp [h]
  · simp [h]

/-- Filling the fetch-ahead word changes nothing else where no code word holds an error, in an engine of no pair. -/
theorem fill_errorFree (s : State) (id : Nat) (a : Word) (vec : Bool) (h : ErrorFree s) (ht : s.twin (id / 16) = false) :
    ∃ v, s.fill id a vec = s.updThr id fun t =>
      { t with faAddr := a, faWord := v, faBad := false, faVec := vec, faWord2 := v, faBad2 := false } := by
  refine ⟨word (leNat (readBytes s.mem (engKey (id / 16) a.toNat) (cwBytes (memNum (engKey (id / 16) a.toNat))))), ?_⟩
  have hl : s.lead (id / 16) = id / 16 := by simp [State.lead, ht]
  simp only [State.fill, readCode_errorFree s _ _ _ h, hl, ht]
  rfl

/-- What thread `id` and its surroundings keep of the state `u` that its instruction has left, once it has gone on. -/
structure Ended (id : Nat) (u t : State) : Prop where
  w : (t.thr id).w = (u.thr id).w
  status : (t.thr id).status = (u.thr id).status
  outst : (t.thr id).outst = (u.thr id).outst
  others : OtherThreads id u t
  engines : ∀ j, SameEngine (u.eng j) (t.eng j)
  only : OnlyIn [.engines, .threads] u t

/-- R118: an instruction that goes on in a thread of no Twin pair, with memory free of errors. -/
theorem perform_next_errorFree (s u : State) (id : Nat) (h : ErrorFree u) (ht : u.twin (id / 16) = false) :
    Ended id u (s.perform id (.next u)) ∧ ((s.perform id (.next u)).thr id).pc = pcOf ((s.thr id).pc + 4) := by
  obtain ⟨v, hv⟩ := fill_errorFree (u.updThr id fun t => { t with pc := pcOf ((s.thr id).pc + 4) }) id
    (pcOf ((s.thr id).pc + 4)) false h ht
  have e : s.perform id (.next u) =
      ((u.updThr id fun t => { t with pc := pcOf ((s.thr id).pc + 4) }).updThr id fun t =>
        { t with faAddr := pcOf ((s.thr id).pc + 4), faWord := v, faBad := false, faVec := false, faWord2 := v,
                 faBad2 := false }).done id (s.thr id).pc := by
    simp only [State.perform, State.goTo, hv]
  rw [e]
  generalize hx : ((u.updThr id fun t => { t with pc := pcOf ((s.thr id).pc + 4) }).updThr id fun t =>
    { t with faAddr := pcOf ((s.thr id).pc + 4), faWord := v, faBad := false, faVec := false, faWord2 := v,
             faBad2 := false }) = x
  have hthr : (x.thr id).w = (u.thr id).w ∧ (x.thr id).status = (u.thr id).status ∧ (x.thr id).outst = (u.thr id).outst
      ∧ (x.thr id).pc = pcOf ((s.thr id).pc + 4) := by subst hx; simp
  obtain ⟨hw, hst, ho, hpc⟩ := hthr
  obtain ⟨c1, c2, c3⟩ := done_context x id (s.thr id).pc
  refine ⟨⟨c1.trans hw, c3.trans hst, (done_outst x id _).trans ho, fun j hj => ?_, fun j => ?_, ?_⟩, c2.trans hpc⟩
  · rw [done_other _ _ _ _ hj]; subst hx; simp [State.updThr_thr, hj]
  · have := done_engine x id j (s.thr id).pc; subst hx; exact this
  · refine OnlyIn.trans ?_ (done_only x id _)
    subst hx
    exact ((setThr_only u id _).mono (by simp)).trans ((setThr_only _ id _).mono (by simp))

end Sys2Proof

/-! SUPPORT. Far stores that go to the bus: the beat of a far store, the request that tells of it, and what each target
makes of the word. -/

namespace Sys2Proof

open Machine

/-! ### The beat of a far store -/

/-- The address of a far store or load of the beat's thread. -/
def farEa (b : Beat) (ra : Reg) (imm : BitVec 14) (s : State) : Word := ea14 (s.thr b.id) ra imm

/-- What a far store does when it executes: R34's checks, then the store by its target (R124, R125, R179). -/
def farStoreAct (n : Nat) (b : Beat) (rd ra : Reg) (imm : BitVec 14) (s p : State) : Act :=
  farCheck n (farEa b ra imm s) (farRange n)
    (if inImage (farEa b ra imm s).toNat then
      .next (p.storeFar b.id (farEa b ra imm s).toNat n ((s.thr b.id).rd rd).toNat)
    else farNext b.id (p.storeReg b.id (farEa b ra imm s).toNat ((s.thr b.id).rd rd)))

/-- No consume note of the thread is on its way: none lands ahead of its far instruction (R213). -/
theorem landNotes_none (s : State) (id : Nat) (h : ∀ n ∈ s.hinge.notes, n.id ≠ id) : s.landNotes id = s := by
  have : s.hinge.notes.filter (fun n => n.id == id) = [] := by
    rw [List.filter_eq_nil_iff]; intro n hm; simpa using h n hm
  simp [State.landNotes, this]

/-- A far store of a thread that is ready, with no consume note on its way. -/
theorem farStore_ready (n : Nat) (b : Beat) (rd ra : Reg) (imm : BitVec 14) (s : State)
    (hr : Ready b [.reg ra, .reg rd] true s) (hn : ∀ x ∈ s.hinge.notes, x.id ≠ b.id) :
    farStore n b rd ra imm s = ((s.takePosition b.eng.val b.pos.val b.thr.val).perform b.id
      (farStoreAct n b rd ra imm s (s.takePosition b.eng.val b.pos.val b.thr.val))).settle := by
  have hp := takePosition_begun s b
  simp only [farStore]
  rw [beat_ready b { reads := [.reg ra, .reg rd], far := true } _ s hr]
  have hl := landNotes_none (s.takePosition b.eng.val b.pos.val b.thr.val) b.id (by rw [hp.hinge]; exact hn)
  have he : ea14 ((s.takePosition b.eng.val b.pos.val b.thr.val).thr b.id) ra imm = farEa b ra imm s := by
    simp only [farEa, ea14, hp.rd]
  rw [hl, he, hp.rd]
  rfl

/-- An access that its instruction may name (R34, R117, R125). -/
theorem farCheck_ok (n : Nat) (ea : Word) (ok : Nat → Bool) (act : Act) (h : ea.toNat % n = 0) (hok : ok ea.toNat = true) :
    farCheck n ea ok act = act := by simp [farCheck, h, hok]

theorem farCheck_align (n : Nat) (ea : Word) (ok : Nat → Bool) (act : Act) (h : ea.toNat % n ≠ 0) :
    farCheck n ea ok act = .trap .align ea := by simp [farCheck, h]

theorem farCheck_farerr (n : Nat) (ea : Word) (ok : Nat → Bool) (act : Act) (h : ea.toNat % n = 0)
    (hok : ok ea.toNat = false) : farCheck n ea ok act = .trap .farerr ea := by simp [farCheck, h, hok]

/-! ### The request that tells of a store -/

/-- A request without destinations joins the outstanding ones of its thread (R126, R129). -/
theorem request_thr (s : State) (id : Nat) (isle : Isle) (phase : FarPhase) (err : Option (Trap × Word)) :
    (s.request id isle phase [] err).thr id = { s.thr id with outst := (s.thr id).outst
      ++ [⟨(s.thr id).pc, phase, [], err, isle, (s.thr id).nextOrd⟩] } :=
  State.updThr_thr_same ..

theorem request_other (s : State) (id : Nat) (isle : Isle) (phase : FarPhase) (dests : List (Dest × Word))
    (err : Option (Trap × Word)) : OtherThreads id s (s.request id isle phase dests err) := by
  intro j hj
  simp [State.request, State.updThr_thr, hj]

theorem request_only (s : State) (id : Nat) (isle : Isle) (phase : FarPhase) (dests : List (Dest × Word))
    (err : Option (Trap × Word)) : OnlyIn [.threads] s (s.request id isle phase dests err) := setThr_only s id _

/-- What a store of thread `id` leaves that has told of it by one request and gone on; `q` is the state that the bus has
left. -/
structure Sent (id : Nat) (isle : Isle) (phase : FarPhase) (err : Option (Trap × Word)) (s q t : State) : Prop where
  issued : (t.thr id).outst = (s.thr id).outst ++ [⟨(s.thr id).pc, phase, [], err, isle, (s.thr id).nextOrd⟩]
  result : NoResult id s t
  others : OtherThreads id s t
  only : OnlyIn [.engines, .threads] q t

/-- A store that the bus has answered in the state `q`, which leaves threads, engines, pairs and modes as they were: the
thread goes on with one request more. -/
theorem perform_sent {id : Nat} {s p q : State} (hp : Begun id s p) {ps : List Part} (hq : OnlyIn ps p q)
    (ht : Part.threads ∉ ps) (he : Part.engines ∉ ps) (hf : ErrorFree q) (hw : q.twin (id / 16) = false) (hs : Settled q)
    (hon : (s.eng (id / 16)).power = .on) (isle : Isle) (phase : FarPhase) (err : Option (Trap × Word)) :
    Sent id isle phase err s q ((p.perform id (farNext id (q.request id isle phase [] err))).settle) := by
  have hthr (j : Nat) : q.thr j = p.thr j := State.thr_of_threads p q (hq.threads ht) j
  have hpow : ((q.request id isle phase [] err).eng (id / 16)).power = .on := by
    have : (q.request id isle phase [] err).eng (id / 16) = p.eng (id / 16) := State.eng_of_engines p _ (hq.engines he) _
    rw [this, (hp.engines _).1, hon]
  have hn : farNext id (q.request id isle phase [] err) = .next (q.request id isle phase [] err) := by
    simp [farNext, hpow]
  obtain ⟨hend, hpc⟩ := perform_next_errorFree p (q.request id isle phase [] err) id
    (hf.of_only (request_only q id isle phase [] err) (by simp) (by simp)) hw
  rw [hn, settle_of_sys (s := q) hs (hend.only.sys (by simp))]
  have hu := request_thr q id isle phase err
  refine ⟨?_, ⟨fun r _ => ?_, ?_, ?_⟩, fun j hj => ?_, ((request_only q id isle phase [] err).mono (by simp)).trans hend.only⟩
  · rw [hend.outst, hu]
    simp only [hthr, hp.outst, hp.pc, hp.nextOrd]
  · simp only [Thread.rd, hend.w, hu, hthr, hp.w]
  · rw [hend.status, hu]
    simp only [hthr, hp.status]
  · rw [GoesOn, hpc, hp.pc]
  · rw [hend.others j hj, request_other _ _ _ _ _ _ j hj, hthr, hp.others j hj]

/-! ### What a target makes of the word -/

/-- A store behind which nothing of its engine waits reaches the bus as it stands (R27, R180); a request tells of it. -/
theorem storeReg_val {s q : State} {id a : Nat} {v w : Word} (h : (s.eng (id / 16)).farMerge = none) (hi : isleOf a ≠ .pad)
    (hb : s.busWrite id a v = (q, .val w)) :
    s.storeReg id a v = q.request id (isleOf a true) (if isAon a then .aon else .done) [] none := by
  simp [State.storeReg, State.flushFar, h, State.inTurn, hi, hb]

/-- The same store where the bus refuses it (R143). -/
theorem storeReg_err {s q : State} {id a : Nat} {v info : Word} {c : Trap} (h : (s.eng (id / 16)).farMerge = none)
    (hi : isleOf a ≠ .pad) (hb : s.busWrite id a v = (q, .err c info)) :
    s.storeReg id a v = q.request id (isleOf a true) .done [] (some (c, info)) := by
  simp [State.storeReg, State.flushFar, h, State.inTurn, hi, hb]

theorem isleOf_memory {a : Nat} (h : inRegs a = false) (wr : Bool) : isleOf a wr = .fabric := by simp [isleOf, h]

/-- A register outside the always-on, engine, pad and Keeper islands belongs to the fabric island. -/
theorem isleOf_fabric {a : Nat} (ha : isAon a = false) (he : engineOf a = none) (hp : ¬ PadWindow a)
    (hk : isKpr a = false) (wr : Bool) : isleOf a wr = .fabric := by
  have hk' : a / 0x10000 ≠ 0x5006 := by simpa [isKpr] using hk
  have hp' : a / 0x10000 ≠ 0x5002 := hp
  simp [isleOf, ha, he]

theorem gated_fabric (s : State) {a : Nat} (he : engineOf a = none) (hp : ¬ PadWindow a) (hk : isKpr a = false) :
    s.gated a = false := by
  have hk' : a / 0x10000 ≠ 0x5006 := by simpa [isKpr] using hk
  have hp' : a / 0x10000 ≠ 0x5002 := hp
  simp [State.gated, he, hk', hp']

/-- What an address of the fabric island is not. -/
theorem isleOf_fabric_inv {a : Nat} (hw : inRegs a = true) (ha : isAon a = false) (h : isleOf a = .fabric) :
    engineOf a = none ∧ ¬ PadWindow a ∧ isKpr a = false := by
  simp only [isleOf, hw, ha, Bool.not_true, Bool.false_eq_true, if_false] at h
  split at h
  · cases h
  · rename_i he
    refine ⟨by simpa using he, ?_⟩
    split at h
    · cases h
    · cases h
    · rename_i hp hk
      exact ⟨hp, by simpa [isKpr] using hk⟩

end Sys2Proof

/-! SUPPORT. The far merge entry: the bytes that image memory holds behind it, before and after a flush and a store. -/

namespace Sys2Proof

open Machine

/-! ### Numbers of bytes -/

/-- The number that the `n` bytes of `f` from `a` on spell, lowest first (R10). -/
def bytesNat (f : Nat → Byte) (a : Nat) : Nat → Nat
  | 0 => 0
  | n + 1 => (f a).toNat + 256 * bytesNat f (a + 1) n

theorem imageNat_eq (s : State) (k a n : Nat) : imageNat s k a n = bytesNat (imageByte s k) a n := by
  induction n generalizing a with
  | zero => rfl
  | succ n ih => simp only [imageNat, bytesNat, ih]

theorem localNat_eq (s : State) (k a n : Nat) : localNat s k a n = bytesNat (localByte s k) a n := by
  induction n generalizing a with
  | zero => rfl
  | succ n ih => simp only [localNat, bytesNat, ih]

/-- Bytes that are those of a number spell it. -/
theorem bytesNat_of_bytes (f : Nat → Byte) (a n v : Nat) (h : ∀ j < n, f (a + j) = BitVec.ofNat 8 (v / 256 ^ j)) :
    bytesNat f a n = v % 256 ^ n := by
  induction n generalizing a v with
  | zero => simp [bytesNat, Nat.mod_one]
  | succ n ih =>
    have h0 : f a = BitVec.ofNat 8 v := by simpa using h 0 (by omega)
    have ht : ∀ j < n, f (a + 1 + j) = BitVec.ofNat 8 (v / 256 / 256 ^ j) := fun j hj => by
      have := h (j + 1) (by omega)
      rw [Nat.add_assoc, Nat.add_comm 1 j, this, Nat.div_div_eq_div_mul, Nat.pow_succ, Nat.mul_comm]
    have hb : (BitVec.ofNat 8 v).toNat = v % 256 := rfl
    rw [bytesNat, ih (a + 1) (v / 256) ht, h0, hb, Nat.pow_succ, Nat.mul_comm (256 ^ n) 256, Nat.mod_mul]

/-! ### Merge entries -/

/-- The byte at `x` through a merge entry of `w` lanes over the memory byte `m`. -/
def entryByte (w addr : Nat) (lanes : Tab Byte) (m : Byte) (x : Nat) : Byte :=
  if addr = x - x % w then (tabFind lanes (x % w)).getD m else m

/-- The lanes of a merge entry of `w` lanes: sorted, and none beyond. -/
def LanesFit (w : Nat) (lanes : Tab Byte) : Prop := tabSorted lanes = true ∧ ∀ l ∈ lanes, l.1 < w

theorem LanesFit.find {w : Nat} {lanes : Tab Byte} (h : LanesFit w lanes) {j : Nat} (hj : w ≤ j) : tabFind lanes j = none := by
  cases hf : tabFind lanes j with
  | none => rfl
  | some b => have := h.2 _ (mem_of_tabFind _ _ _ hf); simp only at this; omega

/-- Written to memory, an entry's lanes give the bytes that were read through it. -/
theorem laneByte_entry {w : Nat} {lanes : Tab Byte} (h : LanesFit w lanes) (hw : 0 < w) (m : Memory) (base addr x : Nat)
    (ha : addr % w = 0) :
    laneByte m (base + addr) lanes (base + x) = entryByte w addr lanes (readByte m (base + x)) x := by
  have hx := Nat.div_add_mod x w
  have hm := Nat.mod_lt x hw
  simp only [laneByte, entryByte]
  by_cases he : addr = x - x % w
  · rw [if_pos (by omega), if_pos he, show base + x - (base + addr) = x % w by omega]
  · rw [if_neg he]
    split
    · rw [h.find, Option.getD_none]
      -- beyond the entry's word lies no lane of it
      have hd := Nat.div_add_mod addr w
      have hlt : addr / w < x / w := by
        rcases Nat.lt_trichotomy (addr / w) (x / w) with h1 | h1 | h1
        · exact h1
        · rw [h1] at hd; omega
        · have := Nat.mul_le_mul_left w (Nat.succ_le_of_lt h1); rw [Nat.mul_succ] at this; omega
      have := Nat.mul_le_mul_left w (Nat.succ_le_of_lt hlt)
      rw [Nat.mul_succ] at this; omega
    · rfl

theorem imageByte_some {s : State} {k : Nat} {m : FarMerge} (h : (s.eng k).farMerge = some m) (x : Nat) :
    imageByte s k x = entryByte 8 m.addr m.lanes (readByte s.mem x) x := by simp only [imageByte, h, entryByte]

theorem imageByte_none {s : State} {k : Nat} (h : (s.eng k).farMerge = none) (x : Nat) :
    imageByte s k x = readByte s.mem x := by simp only [imageByte, h]

/-- A far merge entry that R179 has made for thread `id`: a doubleword of image memory, lanes 0 to 7. -/
structure FarEntry (id : Nat) (m : FarMerge) : Prop where
  owner : m.owner = id
  aligned : m.addr % 8 = 0
  image : inImage m.addr = true
  lanes : LanesFit 8 m.lanes

/-- An entry of the engines' form whose stores are those of thread `id`. -/
theorem farEntry_of_mergeForm {s : State} (h : mergeForm s = true) {id : Nat} {m : FarMerge}
    (hm : (s.eng (id / 16)).farMerge = some m) (ho : m.owner = id) : FarEntry id m := by
  have hf : farForm (id / 16) m = true := by
    simp only [State.eng, tabGet] at hm
    cases he : tabFind s.engines (id / 16) with
    | none => rw [he] at hm; cases hm
    | some e =>
      rw [he, Option.getD_some] at hm
      have := List.all_eq_true.1 h _ (mem_of_tabFind _ _ _ he)
      simp only [Bool.and_eq_true, hm, Option.all_some] at this
      exact this.2
  simp only [farForm, Bool.and_eq_true, decide_eq_true_eq, List.all_eq_true] at hf
  obtain ⟨⟨⟨⟨h1, h2⟩, h3⟩, h4⟩, -⟩ := hf
  exact ⟨ho, h1, h2, h3, h4⟩

/-! ### What a store keeps -/

/-- Everything that a store of thread `id` to image memory keeps: the units, the other threads, the thread's context, the
memory outside the image, and the turn of the thread's own writes. -/
structure StoreFrame (id : Nat) (s u : State) : Prop where
  only : OnlyIn [.engines, .threads, .mem] s u
  others : OtherThreads id s u
  w : (u.thr id).w = (s.thr id).w
  status : (u.thr id).status = (s.thr id).status
  memory : MemoryOutside 0x40000000 0x60000 s u
  rank : ∀ x, u.outranked id x = s.outranked id x

theorem StoreFrame.refl (id : Nat) (s : State) : StoreFrame id s s :=
  ⟨OnlyIn.refl _ s, fun _ _ => rfl, rfl, rfl, fun _ _ => rfl, fun _ => rfl⟩

theorem StoreFrame.trans {id : Nat} {s t u : State} (h : StoreFrame id s t) (h' : StoreFrame id t u) : StoreFrame id s u where
  only := h.only.trans h'.only
  others := fun j hj => (h'.others j hj).trans (h.others j hj)
  w := h'.w.trans h.w
  status := h'.status.trans h.status
  memory := h.memory.trans h'.memory
  rank := fun x => (h'.rank x).trans (h.rank x)

theorem outranked_congr {s t : State} (hs : t.same = s.same) (hc : t.cycle = s.cycle) (id x : Nat) :
    t.outranked id x = s.outranked id x := by simp only [State.outranked, sameNow_congr hs hc]

/-- A change of engines alone keeps what a store keeps. -/
theorem updEng_storeFrame (s : State) (id k : Nat) (f : Engine → Engine) : StoreFrame id s (s.updEng k f) where
  only := (setEng_only s k _).mono (by simp)
  others := fun _ _ => rfl
  w := rfl
  status := rfl
  memory := fun _ _ => rfl
  rank := fun _ => outranked_congr rfl rfl _ _

theorem updThr_storeFrame (s : State) (id : Nat) (f : Thread → Thread) (hw : ∀ t, (f t).w = t.w)
    (hs : ∀ t, (f t).status = t.status) : StoreFrame id s (s.updThr id f) where
  only := (setThr_only s id _).mono (by simp)
  others := fun j hj => by rw [State.updThr_thr, if_neg hj]
  w := by rw [State.updThr_thr_same, hw]
  status := by rw [State.updThr_thr_same, hs]
  memory := fun _ _ => rfl
  rank := fun _ => outranked_congr rfl rfl _ _

/-- Lanes stored in a doubleword of image memory change nothing outside it. -/
theorem lanesStored_storeFrame {id key : Nat} {lanes : Tab Byte} {s u : State} (h : LanesStored key id lanes s u)
    (hl : LanesFit 8 lanes) (ha : key % 8 = 0) (hi : inImage key = true) : StoreFrame id s u where
  only := h.only.mono (by simp)
  others := fun j _ => State.thr_of_threads s u (h.only.threads (by simp)) j
  w := by rw [State.thr_of_threads s u (h.only.threads (by simp))]
  status := by rw [State.thr_of_threads s u (h.only.threads (by simp))]
  memory := by
    intro x hx
    simp only [inImage, Bool.and_eq_true, decide_eq_true_eq] at hi
    rw [h.bytes, laneByte]
    split
    · rw [hl.find (by omega), Option.getD_none]
    · rfl
  rank := h.rank

/-! ### Flush and join -/

/-- R180: a flush writes the entry to memory: image memory reads as it did through the entry. -/
theorem flushFar_entry (s : State) (id : Nat) (m : FarMerge) (hm : (s.eng (id / 16)).farMerge = some m) (he : FarEntry id m)
    (hf : ErrorFree s) (hr : ∀ x, s.outranked id x = false) (hs : s.scan.run = none) :
    StoreFrame id s (s.flushFar (id / 16)) ∧ ((s.flushFar (id / 16)).eng (id / 16)).farMerge = none
      ∧ (∀ x, imageByte (s.flushFar (id / 16)) (id / 16) x = imageByte s (id / 16) x)
      ∧ ((s.flushFar (id / 16)).thr id).outst.length = (s.thr id).outst.length := by
  obtain ⟨howner, halign, himage, hlanes⟩ := he
  have hc (n : Nat) : s.imageCycles n = s := by simp [State.imageCycles, hs]
  have hu : s.flushFar (id / 16) = ((s.updEng (id / 16) ({ · with farMerge := none })).landLanes m.addr id m.lanes).updThr id
      Thread.mergeDone := by
    simp only [State.flushFar, hm, hc]
    rw [howner]
  have hl := landLanes_errorFree (s.updEng (id / 16) ({ · with farMerge := none })) m.addr id m.lanes id hf
    (fun x => (outranked_congr rfl rfl _ _).trans (hr x)) hlanes.1
  rw [hu]
  generalize (s.updEng (id / 16) ({ · with farMerge := none })).landLanes m.addr id m.lanes = l at hl ⊢
  have heng (j : Nat) : (l.updThr id Thread.mergeDone).eng j = (s.updEng (id / 16) ({ · with farMerge := none })).eng j :=
    State.eng_of_engines _ l (hl.only.engines (by simp)) j
  have hnone : ((l.updThr id Thread.mergeDone).eng (id / 16)).farMerge = none := by rw [heng, State.updEng_eng_same]
  refine ⟨?_, hnone, fun x => ?_, ?_⟩
  · exact ((updEng_storeFrame s id _ _).trans (lanesStored_storeFrame hl hlanes halign himage)).trans
      (updThr_storeFrame l id _ (fun _ => rfl) fun _ => rfl)
  · rw [imageByte_none hnone, imageByte_some hm]
    have := laneByte_entry hlanes (by omega) s.mem 0 m.addr x halign
    rw [Nat.zero_add, Nat.zero_add] at this
    exact (hl.bytes x).trans this
  · have : l.thr id = s.thr id := State.thr_of_threads s l (hl.only.threads (by simp)) id
    rw [State.updThr_thr_same, this, Thread.mergeDone, List.length_map]

/-- The lanes of an entry once a store's have joined. -/
def joined (old new : Tab Byte) : Tab Byte := new.foldl (fun l x => tabSet l x.1 x.2) old

theorem tabFind_joined (old new : Tab Byte) (h : tabSorted new = true) (j : Nat) :
    tabFind (joined old new) j = (tabFind new j).or (tabFind old j) := by
  induction new generalizing old with
  | nil => rfl
  | cons l new ih =>
    obtain ⟨i, b⟩ := l
    obtain ⟨hlow, hrest⟩ := (tabSorted_cons i b new).1 h
    have hj : tabFind (joined old ((i, b) :: new)) j = (tabFind new j).or (tabFind (tabSet old i b) j) := ih _ hrest
    rw [hj, tabFind_tabSet]
    by_cases hi : j = i
    · subst hi; simp [tabFind, tabFind_below new j hlow]
    · simp [tabFind, hi, Ne.symm hi]

theorem joined_fit {w : Nat} {old new : Tab Byte} (ho : LanesFit w old) (hn : ∀ l ∈ new, l.1 < w) :
    LanesFit w (joined old new) := by
  induction new generalizing old with
  | nil => exact ho
  | cons l new ih =>
    refine ih ⟨tabSorted_tabSet old _ _ ho.1, fun x hx => ?_⟩ fun x hx => hn x (List.mem_cons_of_mem _ hx)
    rcases mem_tabSet old _ _ x hx with rfl | hx
    · exact hn l (List.mem_cons_self ..)
    · exact ho.2 x hx

theorem mem_lanesOf {off n v : Nat} {l : Nat × Byte} (h : l ∈ lanesOf off n v) : off ≤ l.1 ∧ l.1 < off + n := by
  simp only [lanesOf, upTo, List.mem_map, List.mem_range] at h
  obtain ⟨i, hi, rfl⟩ := h
  simp only; omega

/-- A byte read through an entry that a store of `n` bytes at `a`, within its doubleword, has joined. -/
theorem entryByte_joined (lanes : Tab Byte) (a n v : Nat) (m : Byte) (x : Nat) (ha : a % 8 + n ≤ 8) :
    entryByte 8 (a - a % 8) (joined lanes (lanesOf (a % 8) n v)) m x =
      if a ≤ x ∧ x < a + n then BitVec.ofNat 8 (v / 256 ^ (x - a)) else entryByte 8 (a - a % 8) lanes m x := by
  simp only [entryByte, tabFind_joined _ _ (tabSorted_lanesOf _ _ _), tabFind_lanesOf]
  by_cases hx : a ≤ x ∧ x < a + n
  · rw [if_pos (by omega), if_pos hx, if_pos (by omega), show x % 8 - a % 8 = x - a by omega]
    rfl
  · rw [if_neg hx]
    by_cases he : a - a % 8 = x - x % 8
    · rw [if_pos he, if_pos he, if_neg (by omega)]; rfl
    · rw [if_neg he, if_neg he]

end Sys2Proof

/-! SUPPORT. A far store to image memory: what it changes behind the merge entry of its engine. -/

namespace Sys2Proof

open Machine

/-- The state in which the entry has room for a store of thread `id` at `a`: an entry that cannot take it is flushed (R179). -/
def mergeRoom (s : State) (id a : Nat) : State :=
  if (s.eng (id / 16)).farMerge.any (fun m => m.owner != id || m.addr != a - a % 8) then s.flushFar (id / 16) else s

/-- The entry that the store leaves: its lanes joined with those of the doubleword that wait. -/
def mergeEntry (s : State) (id a n v : Nat) : FarMerge :=
  ⟨a - a % 8, joined ((s.eng (id / 16)).farMerge.getD ⟨a - a % 8, [], id, s.cycle⟩).lanes (lanesOf (a % 8) n v), id, s.cycle⟩

/-- The state with that entry and the store's request. -/
def mergeStored (s : State) (id a n v : Nat) : State :=
  (s.updEng (id / 16) ({ · with farMerge := some (mergeEntry s id a n v) })).request id .fabric .merge [] none

theorem storeFar_eq (s : State) (id a n v : Nat) : s.storeFar id a n v =
    if (mergeEntry (mergeRoom s id a) id a n v).lanes.length = 8 then
      (mergeStored (mergeRoom s id a) id a n v).flushFar (id / 16)
    else mergeStored (mergeRoom s id a) id a n v := rfl

/-- The entry of engine `k` is free, or holds stores of thread `id` in the doubleword of `a`. -/
def RoomAt (id a : Nat) (s : State) : Prop :=
  (s.eng (id / 16)).farMerge = none
    ∨ ∃ m, (s.eng (id / 16)).farMerge = some m ∧ FarEntry id m ∧ m.addr = a - a % 8

theorem mergeRoom_roomAt (s : State) (id a : Nat) (he : ∀ m, (s.eng (id / 16)).farMerge = some m → FarEntry id m)
    (hf : ErrorFree s) (hr : ∀ x, s.outranked id x = false) (hs : s.scan.run = none) :
    RoomAt id a (mergeRoom s id a) ∧ StoreFrame id s (mergeRoom s id a)
      ∧ (∀ x, imageByte (mergeRoom s id a) (id / 16) x = imageByte s (id / 16) x)
      ∧ ((mergeRoom s id a).thr id).outst.length = (s.thr id).outst.length := by
  cases hm : (s.eng (id / 16)).farMerge with
  | none =>
    have : mergeRoom s id a = s := by simp [mergeRoom, hm]
    rw [this]
    exact ⟨.inl hm, StoreFrame.refl id s, fun _ => rfl, rfl⟩
  | some m =>
    have hfe := he m hm
    by_cases ha : m.addr = a - a % 8
    · have : mergeRoom s id a = s := by simp [mergeRoom, hm, hfe.owner, ha]
      rw [this]
      exact ⟨.inr ⟨m, hm, hfe, ha⟩, StoreFrame.refl id s, fun _ => rfl, rfl⟩
    · have : mergeRoom s id a = s.flushFar (id / 16) := by simp [mergeRoom, hm, ha]
      rw [this]
      obtain ⟨h1, h2, h3, h4⟩ := flushFar_entry s id m hm hfe hf hr hs
      exact ⟨.inl h2, h1, h3, h4⟩

/-- Image memory lies in whole doublewords. -/
theorem inImage_dword {a : Nat} (h : inImage a = true) : inImage (a - a % 8) = true := by
  simp only [inImage, Bool.and_eq_true, decide_eq_true_eq] at *; omega

/-- Where the entry has room, the lanes that wait in it are those of the doubleword of `a`, and image memory reads through
them. -/
theorem roomAt_waiting {s : State} {id a : Nat} (h : RoomAt id a s) :
    LanesFit 8 ((s.eng (id / 16)).farMerge.getD ⟨a - a % 8, [], id, s.cycle⟩).lanes
      ∧ ∀ x, imageByte s (id / 16) x = entryByte 8 (a - a % 8)
          ((s.eng (id / 16)).farMerge.getD ⟨a - a % 8, [], id, s.cycle⟩).lanes (readByte s.mem x) x := by
  rcases h with hm | ⟨m, hm, he, ha⟩
  · rw [hm]
    refine ⟨⟨rfl, fun l hl => absurd hl (by simp)⟩, fun x => ?_⟩
    rw [imageByte_none hm]
    simp [entryByte]
  · rw [hm]
    exact ⟨he.lanes, fun x => by rw [imageByte_some hm, ha]; rfl⟩

/-- A request of its own keeps what a store keeps. -/
theorem request_storeFrame (s : State) (id : Nat) (isle : Isle) (phase : FarPhase) (err : Option (Trap × Word)) :
    StoreFrame id s (s.request id isle phase [] err) :=
  updThr_storeFrame s id (fun t => { t with outst := t.outst ++ [⟨t.pc, phase, [], err, isle, t.nextOrd⟩] })
    (fun _ => rfl) fun _ => rfl

/-- A store that joins the entry changes image memory behind it at its own bytes only. -/
theorem mergeStored_joins {s : State} {id a n v : Nat} (h : RoomAt id a s) (ha : inImage a = true) (hn : a % 8 + n ≤ 8) :
    FarEntry id (mergeEntry s id a n v)
      ∧ ((mergeStored s id a n v).eng (id / 16)).farMerge = some (mergeEntry s id a n v)
      ∧ StoreFrame id s (mergeStored s id a n v)
      ∧ (∀ x, imageByte (mergeStored s id a n v) (id / 16) x =
          if a ≤ x ∧ x < a + n then BitVec.ofNat 8 (v / 256 ^ (x - a)) else imageByte s (id / 16) x)
      ∧ ((mergeStored s id a n v).thr id).outst.length = (s.thr id).outst.length + 1 := by
  obtain ⟨hfit, hbytes⟩ := roomAt_waiting h
  have hm : ((mergeStored s id a n v).eng (id / 16)).farMerge = some (mergeEntry s id a n v) := by
    rw [mergeStored, State.eng_of_engines _ _ ((request_only _ id .fabric .merge [] none).engines (by simp)),
      State.updEng_eng_same]
  have hmem : (mergeStored s id a n v).mem = s.mem := rfl
  refine ⟨⟨rfl, ?_, inImage_dword ha, joined_fit hfit fun l hl => ?_⟩, hm, ?_, fun x => ?_, ?_⟩
  · simp only [mergeEntry]; omega
  · have := mem_lanesOf hl; omega
  · exact (updEng_storeFrame s id _ _).trans (request_storeFrame _ id .fabric .merge none)
  · rw [imageByte_some hm, hbytes, hmem]
    exact entryByte_joined _ a n v _ x hn
  · rw [mergeStored, request_thr]
    simp

/-- R179, R180: a store of `n` bytes within a doubleword of image memory. -/
theorem storeFar_image (s : State) (id a n v : Nat) (he : ∀ m, (s.eng (id / 16)).farMerge = some m → FarEntry id m)
    (hf : ErrorFree s) (hr : ∀ x, s.outranked id x = false) (hs : s.scan.run = none) (ha : inImage a = true)
    (hn : a % 8 + n ≤ 8) :
    StoreFrame id s (s.storeFar id a n v)
      ∧ (∀ x, imageByte (s.storeFar id a n v) (id / 16) x =
          if a ≤ x ∧ x < a + n then BitVec.ofNat 8 (v / 256 ^ (x - a)) else imageByte s (id / 16) x)
      ∧ ((s.storeFar id a n v).thr id).outst.length = (s.thr id).outst.length + 1 := by
  obtain ⟨hroom, hfr, hbr, hor⟩ := mergeRoom_roomAt s id a he hf hr hs
  obtain ⟨hent, hm, hfj, hbj, hoj⟩ := mergeStored_joins (v := v) hroom ha hn
  have hframe := hfr.trans hfj
  have hbytes (x : Nat) : imageByte (mergeStored (mergeRoom s id a) id a n v) (id / 16) x =
      if a ≤ x ∧ x < a + n then BitVec.ofNat 8 (v / 256 ^ (x - a)) else imageByte s (id / 16) x := by rw [hbj, hbr]
  have houtst : ((mergeStored (mergeRoom s id a) id a n v).thr id).outst.length = (s.thr id).outst.length + 1 := by
    rw [hoj, hor]
  rw [storeFar_eq]
  split
  · obtain ⟨h1, -, h3, h4⟩ := flushFar_entry _ id _ hm hent (hf.of_only hframe.only (by simp) (by simp))
      (fun x => (hframe.rank x).trans (hr x)) (by rw [hframe.only .scan (by simp)]; exact hs)
    exact ⟨hframe.trans h1, fun x => (h3 x).trans (hbytes x), h4.trans houtst⟩
  · exact ⟨hframe, hbytes, houtst⟩

/-- A far store to image memory that executes, with its `n` bytes in one doubleword. -/
theorem farStore_image (n : Nat) (b : Beat) (rd ra : Reg) (imm : BitVec 14) (s : State) (hc : Clean s) (hs : Settled s)
    (hm : mergeForm s = true) (ho : ∀ m, (s.eng b.eng.val).farMerge = some m → m.owner = b.id)
    (hnotes : ∀ x ∈ s.hinge.notes, x.id ≠ b.id) (hscan : s.scan.run = none) (hr : Ready b [.reg ra, .reg rd] true s)
    (ha : inImage (farEa b ra imm s).toNat = true) (hal : (farEa b ra imm s).toNat % n = 0)
    (hn : (farEa b ra imm s).toNat % 8 + n ≤ 8) (hok : farRange n (farEa b ra imm s).toNat = true) :
    let s' := farStore n b rd ra imm s
    let a := (farEa b ra imm s).toNat
    imageNat s' b.eng.val a n = ((s.thr b.id).rd rd).toNat % 256 ^ n
      ∧ (∀ x, x < a ∨ a + n ≤ x → imageByte s' b.eng.val x = imageByte s b.eng.val x)
      ∧ MemoryOutside 0x40000000 0x60000 s s'
      ∧ (s'.thr b.id).outst.length = (s.thr b.id).outst.length + 1
      ∧ NoResult b.id s s' ∧ OtherThreads b.id s s' ∧ SameUnits s s' := by
  intro s' a
  have hk := beat_id_div b
  have hp := takePosition_begun s b
  have hs' : s' = _ := farStore_ready n b rd ra imm s hr hnotes
  generalize s.takePosition b.eng.val b.pos.val b.thr.val = p at hp hs'
  have hent (m : FarMerge) (h : (p.eng (b.id / 16)).farMerge = some m) : FarEntry b.id m := by
    rw [(hp.engines _).2.2] at h
    exact farEntry_of_mergeForm hm h (ho m (hk ▸ h))
  have hact : farStoreAct n b rd ra imm s p = .next (p.storeFar b.id a n ((s.thr b.id).rd rd).toNat) := by
    rw [farStoreAct, farCheck_ok _ _ _ _ hal hok, if_pos ha]
  obtain ⟨hfr, hb, hout⟩ := storeFar_image p b.id a n ((s.thr b.id).rd rd).toNat hent (hp.errorFree hc.errorFree)
    (fun x => (hp.outranked _ _).trans (outranked_none s _ _ hc.2.2)) (by rw [hp.scan]; exact hscan) ha hn
  rw [hact] at hs'
  generalize p.storeFar b.id a n ((s.thr b.id).rd rd).toNat = u at hfr hb hout hs'
  obtain ⟨hend, hpc⟩ := perform_next_errorFree p u b.id
    ((hp.errorFree hc.errorFree).of_only hfr.only (by simp) (by simp))
    (by simp only [State.twin, State.reg_of_regs p u (hfr.only.regs (by simp)), hp.reg]; rw [hk]; exact hr.single)
  have honly : OnlyIn [.engines, .threads, .mem] s (p.perform b.id (.next u)) :=
    ((hp.only.mono (by simp)).trans hfr.only).trans (hend.only.mono (by simp))
  rw [settle_of_sys hs (honly.sys (by simp))] at hs'
  have hbyte (x : Nat) : imageByte s' b.eng.val x =
      if a ≤ x ∧ x < a + n then BitVec.ofNat 8 (((s.thr b.id).rd rd).toNat / 256 ^ (x - a)) else imageByte s b.eng.val x := by
    have h1 : imageByte s' b.eng.val x = imageByte u b.eng.val x := by
      simp only [imageByte, hs', (hend.engines _).2.2, hend.only.mem (by simp)]
    have h2 : imageByte p b.eng.val x = imageByte s b.eng.val x := by
      simp only [imageByte, (hp.engines _).2.2, hp.mem]
    rw [hk] at hb
    rw [h1, hb, h2]
  refine ⟨?_, fun x hx => ?_, ?_, ?_, ⟨fun r _ => ?_, ?_, ?_⟩, fun j hj => ?_, ?_⟩
  · rw [imageNat_eq]
    refine bytesNat_of_bytes _ a n _ fun j hj => ?_
    rw [hbyte, if_pos (by omega), Nat.add_sub_cancel_left]
  · rw [hbyte, if_neg (by omega)]
  · intro x hx
    rw [hs', hend.only.mem (by simp), hfr.memory x hx, hp.mem]
  · rw [hs', hend.outst, hout, hp.outst]
  · simp only [Thread.rd, hs', hend.w, hfr.w, hp.w]
  · rw [hs', hend.status, hfr.status, hp.status]
  · rw [GoesOn, hs', hpc, hp.pc]
  · rw [hs', hend.others j hj, hfr.others j hj, hp.others j hj]
  · rw [hs']; exact honly.sameUnits

end Sys2Proof

/-! SUPPORT. Far stores that go to the bus: the Ward table, registers, the always-on island, and the refusal. -/

namespace Sys2Proof

open Machine

/-- A word store outside image memory goes to the bus. -/
theorem farStoreAct_bus (b : Beat) (rd ra : Reg) (imm : BitVec 14) (s p : State)
    (ha : (farEa b ra imm s).toNat % 4 = 0) (hf : inFar (farEa b ra imm s).toNat = true)
    (hi : inImage (farEa b ra imm s).toNat = false) : farStoreAct 4 b rd ra imm s p =
      farNext b.id (p.storeReg b.id (farEa b ra imm s).toNat ((s.thr b.id).rd rd)) := by
  rw [farStoreAct, farCheck_ok _ _ _ _ ha (by simp [farRange, hf]), if_neg (by simp [hi])]

/-- The registers of the always-on island lie in the system window, below its engine blocks. -/
theorem aonRegs_place {a : Nat} (h : a ∈ aonRegs) : inRegs a = true ∧ engineOf a = none ∧ ¬ PadWindow a ∧ isKpr a = false
    ∧ ∀ s : State, s.writeHeld a = false := by
  simp only [aonRegs, List.mem_cons, List.not_mem_nil, or_false] at h
  rcases h with rfl | rfl | rfl | rfl <;> exact ⟨rfl, rfl, by simp [PadWindow], rfl, fun _ => rfl⟩

theorem writeHeld_congr {s p : State} (hr : p.regs = s.regs) (hs : p.sys = s.sys) (a : Nat) : p.writeHeld a = s.writeHeld a := by
  simp only [State.writeHeld, State.twin, State.reg_of_regs s p hr, hs]

theorem engRuns_power {s : State} {k : Nat} (h : s.engRuns k = true) : (s.eng k).power = .on := by
  simp only [State.engRuns, Bool.and_eq_true, beq_iff_eq] at h
  exact h.1.1.1

/-- At the beat of a thread whose engine has no store waiting, none waits either. -/
theorem takePosition_farMerge {b : Beat} {s : State} (h : (s.eng b.eng.val).farMerge = none) :
    ((s.takePosition b.eng.val b.pos.val b.thr.val).eng (b.id / 16)).farMerge = none := by
  rw [((takePosition_begun s b).engines _).2.2, beat_id_div]; exact h

section

/-! A word store of a ready thread to an address of the bus, behind which nothing of its engine waits. -/

variable {b : Beat} {rd ra : Reg} {imm : BitVec 14} {s : State} (hi : FarIdle b s)
  (hr : Ready b [.reg ra, .reg rd] true s) (ha : (farEa b ra imm s).toNat % 4 = 0) (hc : Clean s) (hs : Settled s)
include hi hr ha

/-- A store to the bus, with `p` the state at its beat and `q` what the bus leaves, is told by its request. -/
theorem farStore_sent {q : State} {isle : Isle} {phase : FarPhase} {err : Option (Trap × Word)} {ps : List Part}
    (hb : (s.takePosition b.eng.val b.pos.val b.thr.val).storeReg b.id (farEa b ra imm s).toNat ((s.thr b.id).rd rd)
      = q.request b.id isle phase [] err) (hfar : inFar (farEa b ra imm s).toNat = true)
    (him : inImage (farEa b ra imm s).toNat = false) (hq : OnlyIn ps (s.takePosition b.eng.val b.pos.val b.thr.val) q)
    (ht : Part.threads ∉ ps) (he : Part.engines ∉ ps) (hf : ErrorFree q) (hw : q.reg aTwin = s.reg aTwin) (hst : Settled q) :
    Sent b.id isle phase err s q (farStore 4 b rd ra imm s) := by
  have hk := beat_id_div b
  have htw : q.twin b.eng.val = false := by rw [State.twin, hw]; exact hr.single
  rw [farStore_ready 4 b rd ra imm s hr hi.2.1, farStoreAct_bus b rd ra imm s _ ha hfar him, hb]
  exact perform_sent (takePosition_begun s b) hq ht he hf (hk ▸ htw) hst (hk ▸ engRuns_power hr.runs) _ _ _

include hc hs

/-- A store to the Ward table writes the word. -/
theorem farStore_ward (hw : inWard (farEa b ra imm s).toNat = true) :
    let s' := farStore 4 b rd ra imm s
    let a := (farEa b ra imm s).toNat
    Issued b.id .fabric .done [] s s' ∧ (NoResult b.id s s' ∧ OtherThreads b.id s s')
      ∧ readWord s'.mem a = (s.thr b.id).rd rd ∧ MemoryOutside a 4 s s' ∧ SameUnits s s' := by
  intro s' a
  have hp := takePosition_begun s b
  have him : inImage a = false := by simp [inImage, inWard] at *; omega
  have hreg : inRegs a = false := by simp [inRegs, inWard] at *; omega
  have haon : isAon a = false := by simp [isAon, aonRegs, inWard] at *; omega
  obtain ⟨ho, hb⟩ := storeIn_errorFree (s.takePosition b.eng.val b.pos.val b.thr.val) a 4 ((s.thr b.id).rd rd).toNat b.id
    (hp.errorFree hc.errorFree) fun x => (hp.outranked _ _).trans (outranked_none s _ _ hc.2.2)
  obtain ⟨hv, hx⟩ := word_stored _ _ a ((s.thr b.id).rd rd) hb
  have hsent := farStore_sent hi hr ha (storeReg_val (takePosition_farMerge hi.1) (by rw [isleOf_memory hreg]; decide)
      (busWrite_memory _ b.id a ((s.thr b.id).rd rd) (.inr hw) (by rw [hp.scan]; exact hi.2.2)))
    (by simp [inFar, hw]) him ho (by simp) (by simp)
    ((hp.errorFree hc.errorFree).of_only ho (by simp) (by simp))
    ((State.reg_of_regs _ _ (ho.regs (by simp)) _).trans (hp.reg _))
    (by rw [Settled, ho.sys (by simp), hp.sys]; exact hs)
  rw [isleOf_memory hreg, haon] at hsent
  have hmem := hsent.only.mem (by simp)
  refine ⟨hsent.issued, ⟨hsent.result, hsent.others⟩, by rw [hmem]; exact hv, fun x h => ?_, ?_⟩
  · rw [hmem, hx x h, hp.mem]
  · exact (((hp.only.mono (by simp)).trans (ho.mono (by simp))).trans (hsent.only.mono (by simp))).sameUnits

/-- A store to a register without behaviour of its own takes its field rules (R13, R14). -/
theorem farStore_register {r : RegRow} (hw : (farEa b ra imm s).toNat ∈ wordRegs)
    (hrow : regRow (farEa b ra imm s).toNat = some r)
    (hm : mayWrite b.id (farEa b ra imm s).toNat ((s.thr b.id).rd rd) = true)
    (hh : s.writeHeld (farEa b ra imm s).toNat = false) (hfresh : Fresh s) :
    let s' := farStore 4 b rd ra imm s
    let a := (farEa b ra imm s).toNat
    Issued b.id .fabric .done [] s s' ∧ (NoResult b.id s s' ∧ OtherThreads b.id s s')
      ∧ (∀ i, i < 32 → bit (s'.reg a) i = if r.rw.testBit i then bit ((s.thr b.id).rd rd) i
          else bit (s.reg a) i && !(r.w1c.testBit i && bit ((s.thr b.id).rd rd) i))
      ∧ RegsBut [a] s s' ∧ OnlyIn [.threads, .engines, .regs] s s' := by
  intro s' a
  have hp := takePosition_begun s b
  obtain ⟨hplain, hpad⟩ := wordRegs_plain hw
  have hpl := plainRegs_place hplain
  have hisle (wr : Bool) : isleOf a wr = .fabric := isleOf_fabric hpl.aon hpl.engine hpad hpl.keeper wr
  have hnow (i : Nat) : (s.takePosition b.eng.val b.pos.val b.thr.val).setNow a i = false := by
    have := setNow_fresh hfresh hplain i
    simpa only [State.setNow, hp.now, Same.setsAt] using this
  have hbus := busWrite_permitted b.id a ((s.thr b.id).rd rd) (s.takePosition b.eng.val b.pos.val b.thr.val) hpl.window
    (gated_fabric _ hpl.engine hpad hpl.keeper) hm
  rw [regWrite_plain (s := s.takePosition b.eng.val b.pos.val b.thr.val) hplain hrow
    ((writeHeld_congr (hp.only.regs (by simp)) hp.sys a).trans hh)
    ((hp.outranked _ _).trans (outranked_none s _ _ hc.2.2)) fun h => absurd h hpad] at hbus
  have hbits := bit_plainWrite_masked ((s.takePosition b.eng.val b.pos.val b.thr.val).noteWrites b.id [a]) r a
    ((s.thr b.id).rd rd) hrow fun i => (setNow_noteWrites ..).trans (hnow i)
  obtain ⟨hrb, hro⟩ := plain_write_frame (s.takePosition b.eng.val b.pos.val b.thr.val) b.id a
    (plainWrite r ((s.takePosition b.eng.val b.pos.val b.thr.val).reg a)
      (((s.takePosition b.eng.val b.pos.val b.thr.val).noteWrites b.id [a]).maskSets r a ((s.thr b.id).rd rd)))
  have hsent := farStore_sent hi hr ha (storeReg_val (takePosition_farMerge hi.1) (by rw [hisle]; decide) hbus)
    (by simp only [inFar, hpl.window, Bool.or_true]) (inRegs_not_memory a hpl.window).1 hro (by simp) (by simp)
    ((hp.errorFree hc.errorFree).of_same (hro .ecc (by simp)) (hrb _ (by simpa using hpl.inject.symm)))
    ((hrb aTwin (by simpa using hpl.twin.symm)).trans (hp.reg _))
    (by rw [Settled, hro.sys (by simp), hp.sys]; exact hs)
  rw [hisle, hpl.aon] at hsent
  have hreg (x : Nat) := State.reg_of_regs _ s' (hsent.only.regs (by simp)) x
  refine ⟨hsent.issued, ⟨hsent.result, hsent.others⟩, fun i hi' => ?_, fun x hx => ?_, ?_⟩
  · rw [hreg, State.setReg_reg_same]
    have := hbits i hi'
    rw [State.noteWrites_reg, hp.reg] at this
    rw [hp.reg]
    exact this
  · rw [hreg, hrb x hx, hp.reg]
  · exact ((hp.only.mono (by simp)).trans (hro.mono (by simp))).trans (hsent.only.mono (by simp))

/-- R28, R132: a store to the always-on island joins its crossing. -/
theorem farStore_aon (hw : (farEa b ra imm s).toNat ∈ aonRegs)
    (hm : mayWrite b.id (farEa b ra imm s).toNat ((s.thr b.id).rd rd) = true) :
    let s' := farStore 4 b rd ra imm s
    let a := (farEa b ra imm s).toNat
    Issued b.id .aon .aon [] s s' ∧ (NoResult b.id s s' ∧ OtherThreads b.id s s')
      ∧ s'.sys = { s.sys with aon := s.sys.aon ++ [⟨a, (s.thr b.id).rd rd, some b.id⟩] }
      ∧ OnlyIn [.threads, .engines, .sys] s s' := by
  intro s' a
  have hp := takePosition_begun s b
  obtain ⟨hwin, heng, hpad, hkpr, hheld⟩ := aonRegs_place hw
  have haon : isAon (farEa b ra imm s).toNat = true := by simpa [isAon] using hw
  have hisle : isleOf (farEa b ra imm s).toNat true = .aon := by simp [isleOf, hwin, haon]
  have hbus := busWrite_permitted b.id a ((s.thr b.id).rd rd) (s.takePosition b.eng.val b.pos.val b.thr.val) hwin
    (gated_fabric _ heng hpad hkpr) hm
  rw [regWrite_aon _ _ _ _ (hheld _) hw, if_pos (beat_id_lt b)] at hbus
  have hsys := setSys_only (s.takePosition b.eng.val b.pos.val b.thr.val)
    { (s.takePosition b.eng.val b.pos.val b.thr.val).sys with
      aon := (s.takePosition b.eng.val b.pos.val b.thr.val).sys.aon ++ [⟨a, (s.thr b.id).rd rd, some b.id⟩] }
  have hsent := farStore_sent hi hr ha (storeReg_val (takePosition_farMerge hi.1) (by simp [isleOf, hwin, haon]) hbus)
    (by simp only [inFar, hwin, Bool.or_true]) (inRegs_not_memory a hwin).1 hsys (by simp) (by simp)
    ((hp.errorFree hc.errorFree).of_only hsys (by simp) (by simp))
    ((State.reg_of_regs _ _ (hsys.regs (by simp)) _).trans (hp.reg _))
    (by simp only [Settled, hp.sys]; exact hs)
  rw [hisle, haon] at hsent
  refine ⟨hsent.issued, ⟨hsent.result, hsent.others⟩, ?_, ?_⟩
  · rw [hsent.only.sys (by simp), hp.sys]
  · exact ((hp.only.mono (by simp)).trans (hsys.mono (by simp))).trans (hsent.only.mono (by simp))

/-- R49, R81, R143: a store that the thread may not make is refused with PRIV and its address. -/
theorem farStore_priv (hw : inRegs (farEa b ra imm s).toNat = true) (haon : isAon (farEa b ra imm s).toNat = false)
    (hisle : isleOf (farEa b ra imm s).toNat = .fabric)
    (hm : mayWrite b.id (farEa b ra imm s).toNat ((s.thr b.id).rd rd) = false) :
    let s' := farStore 4 b rd ra imm s
    IssuedErr b.id .fabric [] .priv (farEa b ra imm s) s s' ∧ (NoResult b.id s s' ∧ OtherThreads b.id s s')
      ∧ SameMemory s s' ∧ SameUnits s s' := by
  intro s'
  have hp := takePosition_begun s b
  obtain ⟨heng, hpad, hkpr⟩ := isleOf_fabric_inv hw haon hisle
  have hsent := farStore_sent (ps := []) hi hr ha (storeReg_err (takePosition_farMerge hi.1) (by rw [hisle]; decide)
      (busWrite_priv _ b.id _ ((s.thr b.id).rd rd) hw (gated_fabric _ heng hpad hkpr) hm))
    (by simp only [inFar, hw, Bool.or_true]) (inRegs_not_memory _ hw).1 (OnlyIn.refl _ _) (by simp) (by simp)
    (hp.errorFree hc.errorFree) (hp.reg _) (by rw [Settled, hp.sys]; exact hs)
  have hea : word (farEa b ra imm s).toNat = farEa b ra imm s := by simp [word]
  rw [isleOf_fabric haon heng hpad hkpr, hea] at hsent
  have honly := hp.only.trans hsent.only
  exact ⟨hsent.issued, ⟨hsent.result, hsent.others⟩, SameMemory.of_mem (honly.mem (by simp)),
    (honly.mono (by simp)).sameUnits⟩

end

end Sys2Proof

/-! SUPPORT. The frame of an entry: words written to the data SRAM of an engine in no pair, behind its local merge entry. -/

namespace Sys2Proof

open Machine

/-! ### The local merge entry -/

/-- The local merge entry of engine `k` has the form that R176 gives it. -/
def LocalFits (k : Nat) (s : State) : Prop := ∀ m, (s.eng k).localMerge = some m → localForm m = true

theorem localFits_of_mergeForm {s : State} (h : mergeForm s = true) (k : Nat) : LocalFits k s := by
  intro m hm
  simp only [State.eng, tabGet] at hm
  cases he : tabFind s.engines k with
  | none => rw [he] at hm; cases hm
  | some e =>
    rw [he, Option.getD_some] at hm
    have := List.all_eq_true.1 h _ (mem_of_tabFind _ _ _ he)
    simp only [Bool.and_eq_true, hm, Option.all_some] at this
    exact this.1

theorem localForm_iff (m : LocalMerge) : localForm m = true ↔
    m.addr % 4 = 0 ∧ 0x10000 ≤ m.addr ∧ m.addr < 0x14000 ∧ LanesFit 4 m.lanes := by
  simp only [localForm, LanesFit, Bool.and_eq_true, decide_eq_true_eq, List.all_eq_true, and_assoc]

theorem localByte_none {s : State} {k : Nat} (h : (s.eng k).localMerge = none) (x : Nat) :
    localByte s k x = readByte s.mem (engKey k x) := by simp only [localByte, h]

theorem localByte_some {s : State} {k : Nat} {m : LocalMerge} (h : (s.eng k).localMerge = some m) (x : Nat) :
    localByte s k x = entryByte 4 m.addr m.lanes (readByte s.mem (engKey k x)) x := by
  simp only [localByte, h, entryByte]

theorem localByte_congr {s t : State} {k : Nat} (he : (t.eng k).localMerge = (s.eng k).localMerge) (hm : t.mem = s.mem)
    (x : Nat) : localByte t k x = localByte s k x := by simp only [localByte, he, hm]

/-- What writes into the data SRAM of engine `k` keep: all but that memory and the engines, and the form of the entry. -/
structure SramOnly (k : Nat) (s t : State) : Prop where
  only : OnlyIn [.mem, .engines] s t
  outside : MemoryOutside (engKey k 0x10000) 0x4000 s t
  fits : LocalFits k t

theorem SramOnly.trans {k : Nat} {s t u : State} (h : SramOnly k s t) (h' : SramOnly k t u) : SramOnly k s u :=
  ⟨h.only.trans h'.only, h.outside.trans h'.outside, h'.fits⟩

theorem SramOnly.errorFree {k : Nat} {s t : State} (h : SramOnly k s t) (he : ErrorFree s) : ErrorFree t :=
  he.of_only h.only (by simp) (by simp)

theorem SramOnly.twin {k : Nat} {s t : State} (h : SramOnly k s t) (j : Nat) : t.twin j = s.twin j := by
  simp only [State.twin, State.reg_of_regs s t (h.only.regs (by simp))]

/-- R177: a flush of the entry that holds the word at `a` leaves every byte as loads saw it, and no entry at `a`. -/
theorem flushLocalAt_entry (s : State) (k a : Nat) (hf : ErrorFree s) (hl : LocalFits k s) :
    SramOnly k s (s.flushLocalAt k a) ∧ (∀ x, localByte (s.flushLocalAt k a) k x = localByte s k x)
      ∧ ∀ m, ((s.flushLocalAt k a).eng k).localMerge = some m → m.addr ≠ a := by
  cases hm : (s.eng k).localMerge with
  | none =>
    have h : s.flushLocalAt k a = s := by simp [State.flushLocalAt, hm]
    rw [h]
    exact ⟨⟨OnlyIn.refl _ s, fun _ _ => rfl, hl⟩, fun _ => rfl, fun m h' => by rw [hm] at h'; cases h'⟩
  | some m =>
    by_cases ha : m.addr = a
    · obtain ⟨halign, hlow, hhigh, hlanes⟩ := (localForm_iff m).1 (hl m hm)
      obtain ⟨mem, hw, hb⟩ := mergeCode_errorFree (s.updEng k ({ · with localMerge := none })) (engKey k m.addr)
        (16 * s.lead k + m.owners.headD 0) m.lanes hf hlanes.1
      have h : s.flushLocalAt k a = { s.updEng k ({ · with localMerge := none }) with mem := mem } := by
        simp only [State.flushLocalAt, State.flushLocal, hm, Option.any_some, ha, beq_self_eq_true, if_true]
        rw [← ha]; exact hw
      have hnone : ((s.flushLocalAt k a).eng k).localMerge = none := by
        rw [h]
        exact congrArg Engine.localMerge (State.updEng_eng_same s k ({ · with localMerge := none }))
      have hmem : (s.flushLocalAt k a).mem = mem := by rw [h]
      refine ⟨⟨?_, fun x hx => ?_, fun m' h' => by rw [hnone] at h'; cases h'⟩, fun x => ?_,
        fun m' h' => by rw [hnone] at h'; cases h'⟩
      · rw [h]; exact ((setEng_only s k _).mono (by simp)).trans ((setMem_only _ mem).mono (by simp))
      · rw [hmem, hb, laneByte]
        split
        · rw [hlanes.find (by
            rename_i hge; simp only [engKey] at hx hge ⊢; omega), Option.getD_none]; rfl
        · rfl
      · rw [localByte_none hnone, localByte_some hm, hmem]
        exact (hb _).trans (laneByte_entry hlanes (by omega) s.mem (0x10000000 + 0x1000000 * k) m.addr x halign)
    · have h : s.flushLocalAt k a = s := by simp [State.flushLocalAt, hm, ha]
      rw [h]
      exact ⟨⟨OnlyIn.refl _ s, fun _ _ => rfl, hl⟩, fun _ => rfl,
        fun m' h' => by rw [hm] at h'; cases h'; exact ha⟩

/-! ### Words of a frame -/

/-- The code words of an engine's memories are words (Table 6.1). -/
theorem cwBytes_engKey {k a : Nat} (hk : k < 16) (ha : a < 0x14000) : cwBytes (memNum (engKey k a)) = 4 := by
  have h1 : (0x10000000 + 0x1000000 * k + a - 0x10000000) / 0x1000000 = k := by omega
  have hnum : memNum (engKey k a) < 32 := by
    simp only [memNum, engKey, h1]
    rw [if_pos (by omega)]
    split <;> omega
  exact if_pos hnum

/-- A word written to data SRAM is what loads see there, whatever stood in the merge entry; every other byte stands (R149,
R177). -/
theorem writeFrame_word (s : State) (k a : Nat) (v : Word) (hk : k < 16) (hf : ErrorFree s) (hl : LocalFits k s)
    (ht : s.twin k = false) (ha : a % 4 = 0) (hlow : 0x10000 ≤ a) (hhigh : a < 0x14000) :
    SramOnly k s (s.writeFrame k a v) ∧ ∀ x, localByte (s.writeFrame k a v) k x =
      if a ≤ x ∧ x < a + 4 then BitVec.ofNat 8 (v.toNat / 256 ^ (x - a)) else localByte s k x := by
  obtain ⟨hs, hb, hne⟩ := flushLocalAt_entry s k a hf hl
  have h : s.writeFrame k a v = { s.flushLocalAt k a with
      mem := writeBytes (s.flushLocalAt k a).mem (engKey k a) (leBytes 4 v.toNat) } := by
    simp only [State.writeFrame, State.both, ht, Bool.false_eq_true, if_false, List.foldl_cons, List.foldl_nil]
    rw [writeCode_errorFree _ _ _ (hs.errorFree hf), cwBytes_engKey hk hhigh]
  have heng : (s.writeFrame k a v).eng k = (s.flushLocalAt k a).eng k := by rw [h]; rfl
  have hmem (x : Nat) : readByte (s.writeFrame k a v).mem x =
      readByte (writeBytes (s.flushLocalAt k a).mem (engKey k a) (leBytes 4 v.toNat)) x := by rw [h]
  have hkey (x : Nat) : engKey k a ≤ engKey k x ∧ engKey k x < engKey k a + 4 ↔ a ≤ x ∧ x < a + 4 := by
    simp only [engKey]; omega
  refine ⟨hs.trans ⟨?_, fun x hx => ?_, fun m hm => hs.fits m (heng ▸ hm)⟩, fun x => ?_⟩
  · rw [h]; exact (setMem_only _ _).mono (by simp)
  · rw [hmem, readByte_writeBytes_outside _ _ _ _ (by rw [leBytes_length]; simp only [engKey] at hx ⊢; omega)]
  · rw [← hb x]
    by_cases hx : a ≤ x ∧ x < a + 4
    · rw [if_pos hx]
      have hbyte : readByte (s.writeFrame k a v).mem (engKey k x) = BitVec.ofNat 8 (v.toNat / 256 ^ (x - a)) := by
        rw [hmem, readByte_writeBytes, leBytes_length, if_pos ((hkey x).2 hx),
          show engKey k x - engKey k a = x - a by simp only [engKey]; omega, leBytes_getD _ _ _ (by omega)]
      cases hm : ((s.flushLocalAt k a).eng k).localMerge with
      | none => rw [localByte_none (heng ▸ hm), hbyte]
      | some m =>
        rw [localByte_some (heng ▸ hm), entryByte, if_neg, hbyte]
        have := hne m hm
        omega
    · rw [if_neg hx]
      have hbyte : readByte (s.writeFrame k a v).mem (engKey k x) = readByte (s.flushLocalAt k a).mem (engKey k x) := by
        rw [hmem, readByte_writeBytes, leBytes_length, if_neg fun h' => hx ((hkey x).1 h')]
      simp only [localByte, heng, hbyte]

/-- The words `ws` from `base` on as an entry writes them (R149). -/
def writeWords (k base : Nat) (ws : List Word) (n : Nat) (s : State) : State :=
  (upTo n).foldl (fun s i => s.writeFrame k (base + 4 * i) (ws.getD i 0)) s

theorem writeWords_succ (k base : Nat) (ws : List Word) (n : Nat) (s : State) :
    writeWords k base ws (n + 1) s = (writeWords k base ws n s).writeFrame k (base + 4 * n) (ws.getD n 0) := by
  simp only [writeWords, upTo, List.range_succ, List.foldl_append, List.foldl_cons, List.foldl_nil]

/-- `n` words written from `base` on are what loads see there; every other byte stands. -/
theorem writeWords_bytes (k base : Nat) (ws : List Word) (n : Nat) (s : State) (hk : k < 16) (hf : ErrorFree s)
    (hl : LocalFits k s) (ht : s.twin k = false) (ha : base % 4 = 0) (hlow : 0x10000 ≤ base) (hhigh : base + 4 * n ≤ 0x14000) :
    SramOnly k s (writeWords k base ws n s) ∧ ∀ x, localByte (writeWords k base ws n s) k x =
      if base ≤ x ∧ x < base + 4 * n then BitVec.ofNat 8 ((ws.getD ((x - base) / 4) 0).toNat / 256 ^ ((x - base) % 4))
      else localByte s k x := by
  induction n with
  | zero =>
    refine ⟨⟨OnlyIn.refl _ s, fun _ _ => rfl, hl⟩, fun x => ?_⟩
    rw [if_neg (by omega)]; rfl
  | succ n ih =>
    obtain ⟨hs, hb⟩ := ih (by omega)
    obtain ⟨hw, hv⟩ := writeFrame_word (writeWords k base ws n s) k (base + 4 * n) (ws.getD n 0) hk (hs.errorFree hf)
      hs.fits ((hs.twin k).trans ht) (by omega) (by omega) (by omega)
    rw [writeWords_succ]
    refine ⟨hs.trans hw, fun x => ?_⟩
    rw [hv, hb]
    by_cases hx : base + 4 * n ≤ x ∧ x < base + 4 * n + 4
    · rw [if_pos hx, if_pos (by omega), show (x - base) / 4 = n by omega,
        show (x - base) % 4 = x - (base + 4 * n) by omega]
    · rw [if_neg hx]
      by_cases hx' : base ≤ x ∧ x < base + 4 * n
      · rw [if_pos hx', if_pos (by omega)]
      · rw [if_neg hx', if_neg (by omega)]

/-- Each of the words written reads back. -/
theorem writeWords_word (k base : Nat) (ws : List Word) (n i : Nat) (s : State) (hk : k < 16) (hf : ErrorFree s)
    (hl : LocalFits k s) (ht : s.twin k = false) (ha : base % 4 = 0) (hlow : 0x10000 ≤ base) (hhigh : base + 4 * n ≤ 0x14000)
    (hi : i < n) : BitVec.ofNat 32 (localNat (writeWords k base ws n s) k (base + 4 * i) 4) = ws.getD i 0 := by
  have hb := (writeWords_bytes k base ws n s hk hf hl ht ha hlow hhigh).2
  rw [localNat_eq, bytesNat_of_bytes _ _ _ (ws.getD i 0).toNat fun j hj => ?_]
  · apply BitVec.eq_of_toNat_eq
    have := (ws.getD i 0).isLt
    rw [BitVec.toNat_ofNat]; omega
  · rw [hb, if_pos (by omega), show (base + 4 * i + j - base) / 4 = i by omega,
      show (base + 4 * i + j - base) % 4 = j by omega]

end Sys2Proof

/-! SUPPORT. The entry of a trap: a trap that is vectored, from the frame to the vector (R149 to R154, R160). -/

namespace Sys2Proof

open Machine

/-- R150: where the frame fits, it lies word by word in data SRAM. -/
theorem frameFits_place {s : State} {id : Nat} (h : s.frameFits id = true) :
    ((s.thr id).rd 14 - 32).toNat % 4 = 0 ∧ 0x10000 ≤ ((s.thr id).rd 14 - 32).toNat
      ∧ ((s.thr id).rd 14 - 32).toNat + 32 ≤ 0x14000 := by
  simp only [State.frameFits, Bool.and_eq_true, decide_eq_true_eq] at h
  obtain ⟨⟨⟨halign, hlow⟩, hhigh⟩, -⟩ := h
  have hsub : ((s.thr id).rd 14 - 32).toNat = ((s.thr id).rd 14).toNat - 32 := by bv_omega
  omega

/-- The words of the frame of an entry (Table 5.2). -/
def frameWords (t : Thread) (savedPc : Word) : List Word :=
  [savedPc, t.status, t.rd 0, t.rd 1, t.rd 2, t.rd 3, t.rd 15]

theorem frameWords_map (t : Thread) (savedPc : Word) :
    frameWords t savedPc = (upTo 7).map fun i => (frameWords t savedPc).getD i 0 := rfl

/-- The thread at the vector of `index`, once its frame stands at `base` (R151, Table 5.4). -/
def entered (base vec status w0 w1 w2 : Word) (t : Thread) : Thread :=
  { (((((t.toFrame base).wrRaw 14 base).wrRaw 0 w0).wrRaw 1 w1).wrRaw 2 w2) with
    status := status, pc := vec, bpSkip := none }

theorem rd_wrRaw (t : Thread) (r x : Reg) (v : Word) : (t.wrRaw r v).rd x = if x = r then v else t.rd x := by
  simp only [Thread.rd, Thread.wrRaw, tabGet, tabFind_tabSet]
  by_cases h : x = r
  · subst h; simp
  · rw [if_neg (by simpa [Fin.ext_iff] using h), if_neg h]

/-- The registers of a thread that has entered: sp and w0 to w2 as given, the others as they were. -/
theorem entered_rd (base vec status w0 w1 w2 : Word) (t : Thread) (r : Reg) :
    (entered base vec status w0 w1 w2 t).rd r =
      if r = 2 then w2 else if r = 1 then w1 else if r = 0 then w0 else if r = 14 then base else t.rd r := by
  have h : (entered base vec status w0 w1 w2 t).rd r =
    (((((t.toFrame base).wrRaw 14 base).wrRaw 0 w0).wrRaw 1 w1).wrRaw 2 w2).rd r := rfl
  rw [h, rd_wrRaw, rd_wrRaw, rd_wrRaw, rd_wrRaw]
  rfl

/-- An entry of thread `id` to the vector of `index`, from `s` to `t`: the context, the frame and the surroundings. -/
structure EnteredAt (id index : Nat) (status w0 w1 w2 savedPc : Word) (s t : State) : Prop where
  pc : (t.thr id).pc = pcOf ((s.thr id).vbase + word (4 * index))
  status : (t.thr id).status = status
  rd : ∀ r, (t.thr id).rd r = if r = 2 then w2 else if r = 1 then w1 else if r = 0 then w0
    else if r = 14 then (s.thr id).rd 14 - 32 else (s.thr id).rd r
  stepping : (t.thr id).stepping = (s.thr id).stepping
  others : OtherThreads id s t
  frame : frameWords (s.thr id) savedPc
    = (upTo 7).map fun i => BitVec.ofNat 32 (localNat t (id / 16) (((s.thr id).rd 14 - 32).toNat + 4 * i) 4)
  bytes : ∀ x, x < ((s.thr id).rd 14 - 32).toNat ∨ ((s.thr id).rd 14 - 32).toNat + 28 ≤ x →
    localByte t (id / 16) x = localByte s (id / 16) x
  memory : MemoryOutside (engKey (id / 16) 0x10000) 0x4000 s t
  only : OnlyIn [.mem, .engines, .threads] s t

/-- An entry is its frame, its context and the vector's word in the fetch-ahead (R149 to R153). -/
theorem entry_eq (s : State) (id index : Nat) (trap : Bool) (w0 w1 w2 savedPc : Word) :
    s.entry id index trap w0 w1 w2 savedPc =
      ((writeWords (id / 16) ((s.thr id).rd 14 - 32).toNat (frameWords (s.thr id) savedPc) 7 s).updThr id fun t =>
        entered ((s.thr id).rd 14 - 32) (pcOf ((s.thr id).vbase + word (4 * index)))
          (setFld (setBit t.status (if trap then 22 else 23) true) 16 6 index) w0 w1 w2 t).fill id
            (pcOf ((s.thr id).vbase + word (4 * index))) true := rfl

/-- R149 to R151: an entry in an engine of no pair, with memory free of errors. -/
theorem entry_enteredAt (s : State) (id index : Nat) (trap : Bool) (w0 w1 w2 savedPc : Word) (hid : id < 256)
    (hf : ErrorFree s) (hl : LocalFits (id / 16) s) (ht : s.twin (id / 16) = false) (hfit : s.frameFits id = true) :
    EnteredAt id index (setFld (setBit (s.thr id).status (if trap then 22 else 23) true) 16 6 index) w0 w1 w2 savedPc s
      (s.entry id index trap w0 w1 w2 savedPc) := by
  obtain ⟨halign, hlow, hhigh⟩ := frameFits_place hfit
  have hk : id / 16 < 16 := by omega
  have h7 : ((s.thr id).rd 14 - 32).toNat + 4 * 7 ≤ 0x14000 := by omega
  obtain ⟨hs, hb⟩ := writeWords_bytes (id / 16) _ (frameWords (s.thr id) savedPc) 7 s hk hf hl ht halign hlow h7
  have hword (i : Nat) (hi : i < 7) := writeWords_word (id / 16) _ (frameWords (s.thr id) savedPc) 7 i s hk hf hl ht
    halign hlow h7 hi
  have hthr (j : Nat) := State.thr_of_threads s _ (hs.only.threads (by simp)) j
  rw [entry_eq]
  generalize writeWords (id / 16) ((s.thr id).rd 14 - 32).toNat (frameWords (s.thr id) savedPc) 7 s = u at *
  obtain ⟨v, hv⟩ := fill_errorFree (u.updThr id fun t => entered ((s.thr id).rd 14 - 32)
      (pcOf ((s.thr id).vbase + word (4 * index))) (setFld (setBit t.status (if trap then 22 else 23) true) 16 6 index)
      w0 w1 w2 t) id (pcOf ((s.thr id).vbase + word (4 * index))) true (hs.errorFree hf) ((hs.twin _).trans ht)
  rw [hv]
  refine ⟨?_, ?_, fun r => ?_, ?_, fun j hj => ?_, ?_, fun x hx => ?_, hs.outside, ?_⟩
  · simp [entered]
  · simp [entered, hthr]
  · rw [State.updThr_thr_same, State.updThr_thr_same, hthr]
    exact entered_rd _ 0 0 w0 w1 w2 (s.thr id) r -- a thread reads its registers whatever its pc and status
  · rw [State.updThr_thr_same, State.updThr_thr_same, hthr]; rfl
  · rw [State.updThr_thr, if_neg hj, State.updThr_thr, if_neg hj, hthr]
  · rw [frameWords_map]
    refine List.map_congr_left fun i hi => ?_
    exact (hword i (List.mem_range.1 hi)).symm
  · exact (hb x).trans (if_neg (by omega))
  · exact ((hs.only.mono (by simp)).trans ((setThr_only u id _).mono (by simp))).trans ((setThr_only _ id _).mono (by simp))

end Sys2Proof

/-! SUPPORT. A trap at issue: vectored, or held with its record and its event (R142, R149 to R160). -/

namespace Sys2Proof

open Machine

/-! ### The registers of a trap -/

theorem code_lt (c : Trap) : c.code < 64 := by
  cases c <;> simp only [Trap.code] <;> omega

/-- A counter field counts up, and no other bit of its register changes. -/
theorem count_counted (s : State) (a lo n k : Nat) (h : lo + n ≤ 32) : Counted a lo n k s (s.count a lo n k) := by
  have hv : min (2 ^ n - 1) (fld (s.reg a) lo n + k) < 2 ^ n := by have := Nat.two_pow_pos n; omega
  refine ⟨?_, fun i hi => ?_⟩
  · rw [count_reg, if_pos rfl, fld_setFld _ _ _ _ h, Nat.mod_eq_of_lt hv]
  · rw [count_reg, if_pos rfl]
    by_cases h32 : i < 32
    · rw [testBit_setFld _ _ _ _ _ h32, if_neg (by omega)]
    · simp only [bit]; rw [BitVec.getLsbD_of_ge _ _ (by omega), BitVec.getLsbD_of_ge _ _ (by omega)]

theorem Counted.of_reg {a lo n k : Nat} {s s' t t' : State} (h : Counted a lo n k s t) (hs : s'.reg a = s.reg a)
    (ht : t'.reg a = t.reg a) : Counted a lo n k s' t' := by
  simpa only [Counted, FieldSet, BitsBut, hs, ht] using h

theorem count_regsBut (s : State) (a lo n k : Nat) : RegsBut [a] s (s.count a lo n k) := fun x hx => by
  rw [count_reg, if_neg (by simpa using hx)]

/-- A raise changes no register but the counter of lost events and the channel's own (R211, R224). -/
theorem raise_reg (s : State) (ch a : Nat) (h1 : a ≠ aHfCnt) (h2 : a ≠ aHfCh ch) : (s.raise ch).reg a = s.reg a := by
  simp only [State.raise, State.raiseIn]
  split
  · rfl
  · split
    · rw [count_reg, if_neg h1]
    · split
      · rfl
      · split
        · rfl
        · rw [count_reg, if_neg h1, setFlag_reg, if_neg h2]; rfl

/-- The address of a register in the trap block of an engine is no other block's. -/
theorem aTrp_place {k off : Nat} (hk : k < 16) (ho : off < 0x100) : aTrp k off ≠ aHfCnt ∧ (∀ c, c < 1024 → aTrp k off ≠ aHfCh c)
    ∧ aTrp k off ≠ aEccInj ∧ aTrp k off ≠ aTwin ∧ ∀ j t, j < 16 → t < 16 → aTrp k off ≠ aThcfg j t := by
  simp only [aTrp, aHfCnt, aHfCh, aEccInj, aTwin, aThcfg, aEng]
  refine ⟨?_, ?_, ?_, ?_, ?_⟩ <;> intros <;> omega

/-- A halt request aside, the end of an instruction past a breakpoint changes its thread only (R166, R167). -/
theorem done_unstepped (s : State) (id : Nat) (pc : Word) (h : (s.thr id).stepping = false) :
    s.done id pc = s.updThr id fun t => if t.bpSkip = some pc then { t with bpSkip := none } else t := by
  have ht : ((s.updThr id fun t => if t.bpSkip = some pc then { t with bpSkip := none } else t).thr id).stepping = false := by
    rw [State.updThr_thr_same]; split <;> exact h
  simp only [State.done, State.stepEnd, ht, Bool.false_eq_true, if_false]

theorem leaveWait_running {s : State} {id : Nat} (h : (s.thr id).st = .running) : s.leaveWait id = s := by
  simp [State.leaveWait, h]

/-! ### A trap that is vectored -/

theorem heldAs_vectored {s : State} {id : Nat} {c : Trap} (ht : (s.thr id).inTrap = false)
    (hp : fld (s.reg (aTrp (id / 16) 0)) c.polBit 2 = 0) (hf : s.frameFits id = true) : s.heldAs id c false = none := by
  simp [State.heldAs, ht, hp, hf]

theorem takeTrap_vectored {s : State} {id : Nat} {c : Trap} (info named savedPc : Word) (hr : (s.thr id).st = .running)
    (h : s.heldAs id c false = none) : s.takeTrap id c info named savedPc =
      (s.count (aTrp (id / 16) 0x14) 16 16).entry id c.code true (word c.code) info named savedPc := by
  simp [State.takeTrap, leaveWait_running hr, h]

/-- R149 to R151, R160: the trap of a running thread that is vectored. -/
theorem perform_trap_vectored {s p : State} {id : Nat} (hp : Begun id s p) (hr : (p.thr id).st = .running) (c : Trap)
    (info : Word) (hid : id < 256) (hf : ErrorFree s) (hw : s.twin (id / 16) = false) (hm : mergeForm s = true)
    (ht : (s.thr id).inTrap = false) (hpol : fld (s.reg (aTrp (id / 16) 0)) c.polBit 2 = 0) (hfit : s.frameFits id = true) :
    Vectored id c.code info (s.thr id).pc s (p.perform id (.trap c info)) := by
  have hk : id / 16 < 16 := by omega
  obtain ⟨-, -, hinj, htwin, hthcfg⟩ := aTrp_place (off := 0x14) hk (by omega)
  have hcfg : (p.count (aTrp (id / 16) 0x14) 16 16).reg (aThcfg (id / 16) (id % 16)) = s.reg (aThcfg (id / 16) (id % 16)) := by
    rw [count_reg, if_neg (hthcfg _ _ hk (by omega)).symm, hp.reg]
  have hslim : (p.thr id).slim = (s.thr id).slim := by simp [hp.thr]
  have hvbase : (p.thr id).vbase = (s.thr id).vbase := by simp [hp.thr]
  have hpfit : p.frameFits id = true := by
    simpa only [State.frameFits, hp.rd, hslim, hp.reg] using hfit
  have hqfit : (p.count (aTrp (id / 16) 0x14) 16 16).frameFits id = true := by
    simp only [State.frameFits, hcfg, ← hp.reg] at hpfit ⊢; exact hpfit
  have hheld : p.heldAs id c false = none :=
    heldAs_vectored (by simpa only [Thread.inTrap, hp.status] using ht) (by rwa [hp.reg]) hpfit
  have he : p.perform id (.trap c info) = ((p.count (aTrp (id / 16) 0x14) 16 16).entry id c.code true (word c.code) info
      (p.thr id).pc (p.thr id).pc).done id (p.thr id).pc := by
    simp only [State.perform, takeTrap_vectored info _ _ hr hheld]
  have hq := entry_enteredAt (p.count (aTrp (id / 16) 0x14) 16 16) id c.code true (word c.code) info (p.thr id).pc
    (p.thr id).pc hid
    ((hp.errorFree hf).of_same rfl (by rw [count_reg, if_neg hinj.symm]))
    (fun m h => localFits_of_mergeForm hm (id / 16) m ((hp.engines _).2.1 ▸ h))
    (by rw [State.twin, count_reg, if_neg htwin.symm, hp.reg]; exact hw) hqfit
  have hcnt : (p.count (aTrp (id / 16) 0x14) 16 16).thr id = p.thr id := rfl
  have hcntb (x : Nat) : localByte (p.count (aTrp (id / 16) 0x14) 16 16) (id / 16) x = localByte s (id / 16) x :=
    localByte_congr (hp.engines _).2.1 hp.mem x
  rw [he]
  generalize (p.count (aTrp (id / 16) 0x14) 16 16).entry id c.code true (word c.code) info (p.thr id).pc (p.thr id).pc = u at hq
  obtain ⟨hpc, hstatus, hrd, -, hothers, hframe, hbytes, hmemory, honly⟩ := hq
  simp only [hcnt, hp.rd, hp.pc, hp.status, hvbase, frameWords] at hpc hstatus hrd hframe hbytes ⊢
  obtain ⟨dw, dpc, dst⟩ := done_context u id (s.thr id).pc
  have drd (r : Reg) : ((u.done id (s.thr id).pc).thr id).rd r = (u.thr id).rd r := by simp only [Thread.rd, dw]
  have dmem : (u.done id (s.thr id).pc).mem = u.mem := (done_only u id _).mem (by simp)
  have dbytes (x : Nat) : localByte (u.done id (s.thr id).pc) (id / 16) x = localByte u (id / 16) x :=
    localByte_congr (done_engine u id _ _).2.1 dmem x
  have hreg (a : Nat) : (u.done id (s.thr id).pc).reg a = (p.count (aTrp (id / 16) 0x14) 16 16).reg a :=
    (State.reg_of_regs _ _ ((done_only u id _).regs (by simp)) a).trans (State.reg_of_regs _ _ (honly.regs (by simp)) a)
  exact {
    pc := dpc.trans hpc
    status := dst.trans hstatus
    sp := by rw [drd, hrd]; rfl
    told := ⟨by rw [drd, hrd]; rfl, by rw [drd, hrd]; rfl, by rw [drd, hrd]; rfl⟩
    regs := fun r hr => by
      simp only [List.mem_cons, List.not_mem_nil, or_false, not_or] at hr
      obtain ⟨h0, h1, h2, h14⟩ := hr
      rw [drd, hrd, if_neg h2, if_neg h1, if_neg h0, if_neg h14]
    frame := by
      rw [hframe]
      simp only [localNat_eq, show localByte (u.done id (s.thr id).pc) (id / 16) = localByte u (id / 16) from funext dbytes]
    local_ := fun x _ hx => (dbytes x).trans ((hbytes x hx).trans (hcntb x))
    memory := fun x hx => by rw [dmem, hmemory x hx]; exact congrArg (readByte · x) hp.mem
    others := fun j hj => (done_other u id j _ hj).trans ((hothers j hj).trans (hp.others j hj))
    count := (count_counted p (aTrp (id / 16) 0x14) 16 16 1 (by omega)).of_reg (hp.reg _).symm (hreg _)
    rest := ⟨fun a ha => by rw [hreg, count_regsBut p _ _ _ _ a ha, hp.reg],
      (((hp.only.mono (by simp)).trans ((count_only p _ _ _ _).mono (by simp))).trans (honly.mono (by simp))).trans
        ((done_only u id _).mono (by simp))⟩ }

end Sys2Proof

/-! SUPPORT. A trap at issue that is held: its record, its event, its thread (R157, R158, R160). -/

namespace Sys2Proof

open Machine

/-! ### The record -/

theorem bit_word (n i : Nat) (hi : i < 32) : bit (word n) i = n.testBit i := by
  rw [bit, word, BitVec.getLsbD_ofNat, decide_eq_true hi, Bool.true_and]

theorem fld_word (n lo m : Nat) (h : lo + m ≤ 32) : fld (word n) lo m = n / 2 ^ lo % 2 ^ m := by
  apply Nat.eq_of_testBit_eq
  intro i
  rw [testBit_fld, Nat.testBit_mod_two_pow, Nat.testBit_div_two_pow]
  by_cases hi : i < m
  · rw [bit_word _ _ (by omega), Nat.add_comm]
  · simp [hi]

theorem testBit_eq_of_mod (n i : Nat) (b : Bool) (h : n / 2 ^ i % 2 = b.toNat) : n.testBit i = b := by
  rw [Nat.testBit_eq_decide_div_mod_eq, h]; cases b <;> rfl

/-- TRP_RECA of a record (Table 5.7). -/
def recordWord (id code pol : Nat) (dbl far vecf : Bool) : Nat :=
  2 ^ 31 + dbl.toNat * 2 ^ 29 + far.toNat * 2 ^ 28 + vecf.toNat * 2 ^ 27 + pol * 2 ^ 25 + id * 2 ^ 16 + code

/-- The fields of a record. -/
theorem recordWord_fields {id code pol : Nat} (dbl far vecf : Bool) (hid : id < 512) (hc : code < 2 ^ 16) (hp : pol < 4) :
    let w := word (recordWord id code pol dbl far vecf)
    bit w 31 = true ∧ bit w 30 = false ∧ bit w 29 = dbl ∧ bit w 28 = far ∧ bit w 27 = vecf ∧ fld w 25 2 = pol
      ∧ fld w 16 9 = id ∧ fld w 0 16 = code := by
  intro w
  have hd := dbl.toNat_le
  have hf := far.toNat_le
  have hv := vecf.toNat_le
  have hbit (i : Nat) (b : Bool) (hi : i < 32) (h : recordWord id code pol dbl far vecf / 2 ^ i % 2 = b.toNat) : bit w i = b := by
    rw [bit_word _ _ hi, testBit_eq_of_mod _ _ _ h]
  refine ⟨hbit _ _ (by omega) ?_, hbit _ _ (by omega) ?_, hbit _ _ (by omega) ?_, hbit _ _ (by omega) ?_,
    hbit _ _ (by omega) ?_, ?_, ?_, ?_⟩
  any_goals rw [fld_word _ _ _ (by omega)]
  all_goals
    simp only [recordWord, Bool.toNat_true, Bool.toNat_false]
    omega

/-- A bit of a register is set, and no other of its bits changes. -/
theorem setFlag_flagged (s : State) (a i : Nat) (hi : i < 32) : Flagged a i s (s.setFlag a i) := by
  refine ⟨?_, fun j hj => ?_⟩
  · rw [setFlag_reg, if_pos rfl, bit_setBit _ _ _ _ hi hi, if_pos rfl]
  · rw [setFlag_reg, if_pos rfl]
    by_cases h32 : j < 32
    · rw [bit_setBit _ _ _ _ hi h32, if_neg (by omega)]
    · simp only [bit]; rw [BitVec.getLsbD_of_ge _ _ (by omega), BitVec.getLsbD_of_ge _ _ (by omega)]

theorem Flagged.of_reg {a i : Nat} {s s' t t' : State} (h : Flagged a i s t) (hs : s'.reg a = s.reg a)
    (ht : t'.reg a = t.reg a) : Flagged a i s' t' := by simpa only [Flagged, BitsBut, hs, ht] using h

/-- What the record of a trap does to each register, where one stands already and where none does. -/
theorem trapRecord_stands (s : State) (k id : Nat) (c : Trap) (pol : Nat) (dbl far vecf : Bool) (named info : Word)
    (h : bit (s.reg (aTrp k 8)) 31 = true) (a : Nat) : (s.trapRecord k id c pol dbl far vecf named info).reg a =
      ((s.count (aTrp k 0x14) 0 16).setFlag (aTrp k 8) 30).reg a := by
  have hc : (s.count (aTrp k 0x14) 0 16).reg (aTrp k 8) = s.reg (aTrp k 8) := by
    rw [count_reg, if_neg (by simp only [aTrp]; omega)]
  simp only [State.trapRecord]
  split
  · exact State.noteSet_reg ..
  · rename_i hn
    exact absurd (hc ▸ h) hn

theorem trapRecord_fresh (s : State) (k id : Nat) (c : Trap) (pol : Nat) (dbl far vecf : Bool) (named info : Word)
    (h : bit (s.reg (aTrp k 8)) 31 = false) (a : Nat) : (s.trapRecord k id c pol dbl far vecf named info).reg a =
      if a = aTrp k 16 then info else if a = aTrp k 12 then named
      else if a = aTrp k 8 then word (recordWord id c.code pol dbl far vecf) else (s.count (aTrp k 0x14) 0 16).reg a := by
  have hc : (s.count (aTrp k 0x14) 0 16).reg (aTrp k 8) = s.reg (aTrp k 8) := by
    rw [count_reg, if_neg (by simp only [aTrp]; omega)]
  simp only [State.trapRecord, hc, h, Bool.false_eq_true, if_false, State.setReg_reg, State.noteSet_reg]
  rfl

/-- A record speaks of the registers of its block only. -/
theorem Recorded.of_reg {k id code pol : Nat} {dbl far vecf : Bool} {named info : Word} {s s' t t' : State}
    (h : Recorded k id code pol dbl far vecf named info s t) (hs : ∀ off < 0x100, s'.reg (aTrp k off) = s.reg (aTrp k off))
    (ht : ∀ off < 0x100, t'.reg (aTrp k off) = t.reg (aTrp k off)) :
    Recorded k id code pol dbl far vecf named info s' t' := by
  obtain ⟨hfresh, hstands, hcount⟩ := h
  have h8 := hs 8 (by omega)
  rw [← h8, ← ht 8 (by omega), ← ht 12 (by omega), ← ht 16 (by omega)] at hfresh
  rw [← h8, ← hs 12 (by omega), ← hs 16 (by omega), ← ht 12 (by omega), ← ht 16 (by omega)] at hstands
  refine ⟨hfresh, fun h => ?_, hcount.of_reg (hs _ (by omega)) (ht _ (by omega))⟩
  obtain ⟨hflag, h12, h16⟩ := hstands h
  exact ⟨hflag.of_reg h8 (ht 8 (by omega)), h12, h16⟩

theorem trapRecord_only (s : State) (k id : Nat) (c : Trap) (pol : Nat) (dbl far vecf : Bool) (named info : Word) :
    OnlyIn [.regs] s (s.trapRecord k id c pol dbl far vecf named info) := by
  intro p hp
  simp only [State.trapRecord]
  split <;> (cases p <;> first | rfl | exact absurd (by simp) hp)

/-- R160: the record of a trap that is not vectored. -/
theorem trapRecord_recorded (s : State) (k id : Nat) (c : Trap) (pol : Nat) (dbl far vecf : Bool) (named info : Word)
    (hid : id < 512) (hp : pol < 4) :
    Recorded k id c.code pol dbl far vecf named info s (s.trapRecord k id c pol dbl far vecf named info)
      ∧ RegsBut ([8, 12, 16, 0x14].map (aTrp k)) s (s.trapRecord k id c pol dbl far vecf named info) := by
  have h12 : aTrp k 12 ≠ aTrp k 16 := by simp only [aTrp]; omega
  have h8 : aTrp k 8 ≠ aTrp k 16 ∧ aTrp k 8 ≠ aTrp k 12 ∧ aTrp k 8 ≠ aTrp k 0x14 := by simp only [aTrp]; omega
  have h14 : aTrp k 0x14 ≠ aTrp k 16 ∧ aTrp k 0x14 ≠ aTrp k 12 ∧ aTrp k 0x14 ≠ aTrp k 8 := by simp only [aTrp]; omega
  have hcount := count_counted s (aTrp k 0x14) 0 16 1 (by omega)
  have hcr (a : Nat) (ha : a ≠ aTrp k 0x14) : (s.count (aTrp k 0x14) 0 16).reg a = s.reg a := by
    rw [count_reg, if_neg ha]
  cases hv : bit (s.reg (aTrp k 8)) 31 with
  | true =>
    have hreg := trapRecord_stands s k id c pol dbl far vecf named info hv
    refine ⟨⟨fun h => ?_, fun _ => ⟨?_, ?_, ?_⟩, ?_⟩, fun a ha => ?_⟩
    · rw [hv] at h; cases h
    · exact (setFlag_flagged _ (aTrp k 8) 30 (by omega)).of_reg (hcr _ h8.2.2).symm (hreg _)
    · rw [hreg, setFlag_reg, if_neg h8.2.1.symm, hcr _ h14.2.1.symm]
    · rw [hreg, setFlag_reg, if_neg h8.1.symm, hcr _ h14.1.symm]
    · exact hcount.of_reg rfl (by rw [hreg, setFlag_reg, if_neg h14.2.2])
    · simp only [List.map_cons, List.map_nil, List.mem_cons, List.not_mem_nil, or_false, not_or] at ha
      obtain ⟨a8, a12, a16, a14⟩ := ha
      rw [hreg, setFlag_reg, if_neg a8, hcr a a14]
  | false =>
    have hreg := trapRecord_fresh s k id c pol dbl far vecf named info hv
    have hword : (s.trapRecord k id c pol dbl far vecf named info).reg (aTrp k 8) =
        word (recordWord id c.code pol dbl far vecf) := by rw [hreg, if_neg h8.1, if_neg h8.2.1, if_pos rfl]
    refine ⟨⟨fun _ => ?_, fun h => ?_, ?_⟩, fun a ha => ?_⟩
    · obtain ⟨b31, b30, b29, b28, b27, f25, f16, f0⟩ := recordWord_fields (code := c.code) dbl far vecf hid
        (by have := code_lt c; omega) hp
      rw [hword]
      exact ⟨b31, b30, b29, b28, b27, f25, f16, f0, by rw [hreg, if_neg h12, if_pos rfl], by rw [hreg, if_pos rfl]⟩
    · rw [hv] at h; cases h
    · exact hcount.of_reg rfl (by rw [hreg, if_neg h14.1, if_neg h14.2.1, if_neg h14.2.2])
    · simp only [List.map_cons, List.map_nil, List.mem_cons, List.not_mem_nil, or_false, not_or] at ha
      obtain ⟨a8, a12, a16, a14⟩ := ha
      rw [hreg, if_neg a16, if_neg a12, if_neg a8, hcr a a14]

/-! ### A trap that is held -/

theorem heldAs_hold {s : State} {id : Nat} {c : Trap} (h : fld (s.reg (aTrp (id / 16) 0)) c.polBit 2 = 1 ∨
    (s.thr id).inTrap = true ∧ fld (s.reg (aTrp (id / 16) 0)) c.polBit 2 = 0) :
    s.heldAs id c false = some (c, 1, (s.thr id).inTrap) := by
  rcases h with h | ⟨ht, h⟩
  · cases ht : (s.thr id).inTrap <;> simp [State.heldAs, ht, h]
  · simp [State.heldAs, ht, h]

/-- The state with thread `id` trapped at `savedPc`, no more the holder of its engine's pool (R157). -/
def trapped (s : State) (id : Nat) (savedPc : Word) : State :=
  (s.setSt id .trapped).updThr id ({ · with pc := savedPc, div := none })

theorem takeTrap_held {s : State} {id : Nat} {c : Trap} {dbl : Bool} (info named savedPc : Word)
    (hr : (s.thr id).st = .running) (h : s.heldAs id c false = some (c, 1, dbl)) : s.takeTrap id c info named savedPc =
      ((trapped s id savedPc).trapRecord (id / 16) id c 1 dbl false false named info).raise (672 + id / 16) := by
  simp [State.takeTrap, leaveWait_running hr, h, State.holdTrap, trapped]

/-- What a trap keeps of its thread: registers, status, a step in progress. -/
theorem trapped_thr (s : State) (id : Nat) (savedPc : Word) : ((trapped s id savedPc).thr id).st = .trapped
    ∧ ((trapped s id savedPc).thr id).pc = savedPc ∧ ((trapped s id savedPc).thr id).status = (s.thr id).status
    ∧ ((trapped s id savedPc).thr id).w = (s.thr id).w ∧ ((trapped s id savedPc).thr id).stepping = (s.thr id).stepping := by
  simp [trapped, State.setSt, State.dropHolder, Thread.enter, ThreadState.counting]

theorem trapped_others (s : State) (id : Nat) (savedPc : Word) : OtherThreads id s (trapped s id savedPc) := by
  intro j hj
  simp [trapped, State.setSt, State.dropHolder, State.updThr_thr, hj]

theorem trapped_only (s : State) (id : Nat) (savedPc : Word) : OnlyIn [.threads, .engines] s (trapped s id savedPc) :=
  (((setThr_only s id _).mono (by simp)).trans ((setEng_only _ (id / 16) _).mono (by simp))).trans
    ((setThr_only _ id _).mono (by simp))

/-- R77: a thread that has trapped holds no pool. -/
theorem trapped_holder (s : State) (id : Nat) (savedPc : Word) (n : Fin 16)
    (h : ((trapped s id savedPc).eng (id / 16)).holder = some n) : 16 * (id / 16) + n.val ≠ id := by
  have he : (trapped s id savedPc).eng (id / 16) = ((s.updThr id (·.enter s.cycle .trapped)).dropHolder id).eng (id / 16) := rfl
  rw [he, State.dropHolder, State.updEng_eng_same] at h
  split at h
  · cases h
  · rename_i hn
    rw [h] at hn
    simp at hn
    omega

theorem Raisable.of_same {ch : Nat} {s t : State} (h : Raisable ch s) {ps : List Part} (ho : OnlyIn ps s t)
    (hc : Part.cycle ∉ ps) (hh : Part.hinge ∉ ps) (hs : Part.sys ∉ ps) (hr : t.reg (aHfCh ch) = s.reg (aHfCh ch)) :
    Raisable ch t := by
  have hcycle : t.cycle = s.cycle := ho .cycle hc
  simpa only [Raisable, State.running, ho.sys hs, hr, ho.hinge hh, hcycle] using h

theorem raise_taken_regs (s : State) (ch : Nat) (h : Raisable ch s) : (s.raise ch).regs = s.regs := by
  rw [State.raise, raiseIn_taken s s.cycle ch _ _ h.1 h.2.1 h.2.2]

theorem RaisedNow.of_hinge {ch : Nat} {s t t' : State} (h : RaisedNow ch s t) (ht : t'.hinge = t.hinge) : RaisedNow ch s t' :=
  ht.trans h

/-- A raise in a state that has the fabric and the time of `s` is one in `s`. -/
theorem RaisedNow.of_same {ch : Nat} {s r t : State} {ps : List Part} (h : RaisedNow ch r t) (ho : OnlyIn ps s r)
    (hc : Part.cycle ∉ ps) (hh : Part.hinge ∉ ps) (ht : Part.tb ∉ ps) : RaisedNow ch s t := by
  have hcycle : r.cycle = s.cycle := ho .cycle hc
  have htb : r.tb = s.tb := ho .tb ht
  simpa only [RaisedNow, Raised, State.now, ho.hinge hh, hcycle, htb] using h

theorem Begun.inTrap {id : Nat} {s p : State} (hp : Begun id s p) : (p.thr id).inTrap = (s.thr id).inTrap := by
  simp only [Thread.inTrap, hp.status]

/-- R157, R158, R160: the trap of a running thread that is held. -/
theorem perform_trap_held {s p : State} {id : Nat} (hp : Begun id s p) (hr : (p.thr id).st = .running) (c : Trap)
    (info : Word) (hid : id < 256) (hstep : (s.thr id).stepping = false)
    (h : fld (s.reg (aTrp (id / 16) 0)) c.polBit 2 = 1 ∨
      (s.thr id).inTrap = true ∧ fld (s.reg (aTrp (id / 16) 0)) c.polBit 2 = 0) :
    HeldTrap id c.code (s.thr id).inTrap false (s.thr id).pc info (s.thr id).pc s (p.perform id (.trap c info))
      ∧ (p.perform id (.trap c info)).sys = s.sys := by
  have hk : id / 16 < 16 := by omega
  have hheld : p.heldAs id c false = some (c, 1, (s.thr id).inTrap) := by
    rw [← hp.inTrap] at h ⊢
    exact heldAs_hold (by rwa [hp.reg])
  have he : p.perform id (.trap c info) = (((trapped p id (s.thr id).pc).trapRecord (id / 16) id c 1 (s.thr id).inTrap false
      false (s.thr id).pc info).raise (672 + id / 16)).done id (s.thr id).pc := by
    simp only [State.perform, takeTrap_held info _ _ hr hheld, hp.pc]
  obtain ⟨hst, hpc, hstatus, hw, hs⟩ := trapped_thr p id (s.thr id).pc
  have hto := hp.only.trans ((trapped_only p id (s.thr id).pc).mono (by simp))
  have hothers := trapped_others p id (s.thr id).pc
  have hholder := trapped_holder p id (s.thr id).pc
  rw [he]
  generalize trapped p id (s.thr id).pc = u at hst hpc hstatus hw hs hto hothers hholder
  have hureg (a : Nat) : u.reg a = s.reg a := State.reg_of_regs s u (hto.regs (by simp)) a
  obtain ⟨hrec, hbut⟩ := trapRecord_recorded u (id / 16) id c 1 (s.thr id).inTrap false false (s.thr id).pc info (by omega)
    (by omega)
  have hro := trapRecord_only u (id / 16) id c 1 (s.thr id).inTrap false false (s.thr id).pc info
  generalize u.trapRecord (id / 16) id c 1 (s.thr id).inTrap false false (s.thr id).pc info = r at hrec hbut hro
  have hao := raise_only r (672 + id / 16)
  have hthr (j : Nat) : (r.raise (672 + id / 16)).thr j = u.thr j :=
    (State.thr_of_threads _ _ (hao.threads (by simp)) j).trans (State.thr_of_threads _ _ (hro.threads (by simp)) j)
  have hd := done_unstepped (r.raise (672 + id / 16)) id (s.thr id).pc (by rw [hthr, hs, hp.stepping, hstep])
  rw [hd]
  have hkeep (t : Thread) : (if t.bpSkip = some (s.thr id).pc then { t with bpSkip := none } else t).st = t.st
      ∧ (if t.bpSkip = some (s.thr id).pc then { t with bpSkip := none } else t).pc = t.pc
      ∧ (if t.bpSkip = some (s.thr id).pc then { t with bpSkip := none } else t).status = t.status
      ∧ (if t.bpSkip = some (s.thr id).pc then { t with bpSkip := none } else t).w = t.w := by
    split <;> exact ⟨rfl, rfl, rfl, rfl⟩
  obtain ⟨kst, kpc, kstatus, kw⟩ := hkeep (u.thr id)
  have htrp (off : Nat) (ho : off < 0x100) : (r.raise (672 + id / 16)).reg (aTrp (id / 16) off) = r.reg (aTrp (id / 16) off) :=
    raise_reg _ _ _ (aTrp_place hk ho).1 ((aTrp_place hk ho).2.1 _ (by omega))
  have heng : (r.raise (672 + id / 16)).eng (id / 16) = u.eng (id / 16) :=
    (State.eng_of_engines _ _ (hao.engines (by simp)) _).trans (State.eng_of_engines _ _ (hro.engines (by simp)) _)
  have hso : OnlyIn [.engines, .threads, .regs] s r := (hto.mono (by simp)).trans (hro.mono (by simp))
  have hfresh (h : Raisable (672 + id / 16) s) : Raisable (672 + id / 16) r := by
    refine h.of_same hso (by simp) (by simp) (by simp) ((hbut _ fun hm => ?_).trans (hureg _))
    obtain ⟨off, hoff, hx⟩ := List.mem_map.1 hm
    refine (aTrp_place (off := off) hk ?_).2.1 _ (by omega) hx
    simp only [List.mem_cons, List.not_mem_nil, or_false] at hoff
    omega
  refine ⟨?_, (hao.sys (by simp)).trans (hso.sys (by simp))⟩
  refine ⟨⟨?_, ?_, ?_⟩, fun x _ => ?_, fun j hj => ?_, ?_, fun hra => ⟨?_, fun a ha => ?_, ?_⟩, fun n hn => ?_⟩
  · rw [State.updThr_thr_same, hthr, kst, hst]
  · rw [State.updThr_thr_same, hthr, kpc, hpc]
  · rw [State.updThr_thr_same, hthr, kstatus, hstatus, hp.status]
  · rw [State.updThr_thr_same, hthr, Thread.rd, kw, hw, hp.w]; rfl
  · rw [State.updThr_thr, if_neg hj, hthr, hothers j hj, hp.others j hj]
  · exact hrec.of_reg (fun off _ => (hureg _).symm) fun off ho => (State.updThr_reg ..).trans (htrp off ho)
  · exact ((raise_taken r _ (hfresh hra)).of_same hso (by simp) (by simp) (by simp)).of_hinge rfl
  · rw [State.updThr_reg, State.reg_of_regs _ _ (raise_taken_regs r _ (hfresh hra)), hbut a ha, hureg]
  · exact ((hso.mono (by simp)).trans (hao.mono (by simp))).trans ((setThr_only _ id _).mono (by simp))
  · rw [State.updThr_eng, heng] at hn; exact hholder n hn

end Sys2Proof

/-! SUPPORT. O12: a far store in image memory, at the bus, and where its address is refused. -/

namespace Sys2Proof

open Machine

theorem Begun.running {id : Nat} {s p : State} (hp : Begun id s p) : (p.thr id).st = .running := by
  simp [hp.thr, Thread.enter, ThreadState.counting]

/-- R142: a trap at issue of a thread that is in no pair and does not step. -/
theorem perform_trapsAt {s p : State} {id : Nat} (hp : Begun id s p) (c : Trap) (info : Word) (hid : id < 256) (hc : Clean s)
    (hs : Settled s) (hw : s.twin (id / 16) = false) (hstep : (s.thr id).stepping = false) :
    TrapsAt id c info s (p.perform id (.trap c info)).settle where
  vectored := fun ht hpol hfit hm => by
    have hv := perform_trap_vectored hp hp.running c info hid hc.errorFree hw hm ht hpol hfit
    rwa [settle_of_sys hs (hv.rest.2.sys (by simp))]
  held := fun h => by
    obtain ⟨hh, hsys⟩ := perform_trap_held hp hp.running c info hid hstep h
    rwa [settle_of_sys hs hsys]

section

variable {b : Beat} {rd ra : Reg} {imm : BitVec 14} {s : State} (hc : Clean s) (hs : Settled s)
  (hn : ∀ x ∈ s.hinge.notes, x.id ≠ b.id) (hr : Ready b [.reg ra, .reg rd] true s) (hstep : (s.thr b.id).stepping = false)
include hc hs hn hr hstep

/-- R34, R117: a far store at a misaligned address traps with ALIGN. -/
theorem farStore_align (n : Nat) (h : (farEa b ra imm s).toNat % n ≠ 0) :
    TrapsAt b.id .align (farEa b ra imm s) s (farStore n b rd ra imm s) := by
  rw [farStore_ready n b rd ra imm s hr hn, farStoreAct, farCheck_align _ _ _ _ h]
  exact perform_trapsAt (takePosition_begun s b) _ _ (beat_id_lt b) hc hs (beat_id_div b ▸ hr.single) hstep

/-- R117, R125: an aligned far store outside the ranges of its width traps with FARERR. -/
theorem farStore_farerr (n : Nat) (h : (farEa b ra imm s).toNat % n = 0) (hrange : farRange n (farEa b ra imm s).toNat = false) :
    TrapsAt b.id .farerr (farEa b ra imm s) s (farStore n b rd ra imm s) := by
  rw [farStore_ready n b rd ra imm s hr hn, farStoreAct, farCheck_farerr _ _ _ _ h hrange]
  exact perform_trapsAt (takePosition_begun s b) _ _ (beat_id_lt b) hc hs (beat_id_div b ▸ hr.single) hstep

end

/-! ### The three widths -/

theorem after_fstW {b : Beat} {rd ra : Reg} {imm : BitVec 14} {s : State} {p : State → Prop} (h : p (farStore 4 b rd ra imm s)) :
    After (.fstW b rd ra imm) s p := ⟨_, rfl, h⟩

theorem after_fstH {b : Beat} {rd ra : Reg} {imm : BitVec 14} {s : State} {p : State → Prop} (h : p (farStore 2 b rd ra imm s)) :
    After (.fstH b rd ra imm) s p := ⟨_, rfl, h⟩

theorem after_fstB {b : Beat} {rd ra : Reg} {imm : BitVec 14} {s : State} {p : State → Prop} (h : p (farStore 1 b rd ra imm s)) :
    After (.fstB b rd ra imm) s p := ⟨_, rfl, h⟩

/-- Settles O12: a far store that executes joins the far merge entry, or goes to the bus, or traps at issue. -/
theorem farStores : Obligations.FarStores := by
  unfold Obligations.FarStores
  intro b rd ra imm s hc hs hm ho hn hscan hr t k ea a v traps sent gives
  refine ⟨fun ha => ?image, fun hi hal => ⟨fun hw => ?ward, fun r hw hrow hmay hheld hfresh => ?register,
    fun hw hmay => ?aon, fun hw haon hisle hmay => ?priv⟩, fun hstep => ?traps⟩
  case image =>
    have hfar : farRange 4 a = true := by simp [farRange, inFar, ha]
    exact ⟨fun hal => after_fstW (farStore_image 4 b rd ra imm s hc hs hm ho hn hscan hr ha hal (show a % 8 + 4 ≤ 8 by omega) hfar),
      fun hal => after_fstH (farStore_image 2 b rd ra imm s hc hs hm ho hn hscan hr ha hal (show a % 8 + 2 ≤ 8 by omega) ha),
      after_fstB (farStore_image 1 b rd ra imm s hc hs hm ho hn hscan hr ha (Nat.mod_one _) (show a % 8 + 1 ≤ 8 by omega) ha)⟩
  case ward => exact after_fstW (farStore_ward hi hr hal hc hs hw)
  case register => exact after_fstW (farStore_register hi hr hal hc hs hw hrow hmay hheld hfresh)
  case aon => exact after_fstW (farStore_aon hi hr hal hc hs hw hmay)
  case priv => exact after_fstW (farStore_priv hi hr hal hc hs hw haon hisle hmay)
  case traps =>
    exact ⟨fun h => after_fstW (farStore_align hc hs hn hr hstep 4 h), fun h => after_fstH (farStore_align hc hs hn hr hstep 2 h),
      fun h hfar => after_fstW (farStore_farerr hc hs hn hr hstep 4 h hfar),
      fun him => ⟨fun h => after_fstH (farStore_farerr hc hs hn hr hstep 2 h him),
        after_fstB (farStore_farerr hc hs hn hr hstep 1 (Nat.mod_one _) him)⟩⟩

end Sys2Proof

/-! SUPPORT. A far request with destinations: what an access of a thread leaves once its request tells of it. -/

namespace Sys2Proof

open Machine

/-! ### Cancelled deliveries (R128) -/

/-- The thread with the pending deliveries to the destinations of a new request cancelled (R128). -/
def cancelAll (dests : List (Dest × Word)) (t : Thread) : Thread := dests.foldl (fun t d => t.cancel d.1) t

/-- A cancelled delivery leaves registers, flags, pc and the errors that are due. -/
theorem cancelAll_context (dests : List (Dest × Word)) (t : Thread) : (cancelAll dests t).w = t.w
    ∧ (cancelAll dests t).status = t.status ∧ (cancelAll dests t).pc = t.pc ∧ (cancelAll dests t).errs = t.errs := by
  induction dests generalizing t with
  | nil => exact ⟨rfl, rfl, rfl, rfl⟩
  | cons d dests ih => exact ih (t.cancel d.1)

/-- What is cancelled depends on the outstanding requests only. -/
theorem cancelAll_outst (dests : List (Dest × Word)) {t u : Thread} (h : t.outst = u.outst) :
    (cancelAll dests t).outst = (cancelAll dests u).outst := by
  induction dests generalizing t u with
  | nil => exact h
  | cons d dests ih => exact ih (by simp only [Thread.cancel, h])

theorem cancelAll_nextOrd (dests : List (Dest × Word)) {t u : Thread} (h : t.outst = u.outst) (he : t.errs = u.errs) :
    (cancelAll dests t).nextOrd = (cancelAll dests u).nextOrd := by
  obtain ⟨-, -, -, ht⟩ := cancelAll_context dests t
  obtain ⟨-, -, -, hu⟩ := cancelAll_context dests u
  simp only [Thread.nextOrd, cancelAll_outst dests h, ht, hu, he]

/-- A request joins the outstanding ones of its thread, behind the deliveries that it cancels (R126, R128). -/
theorem request_thr_same (s : State) (id : Nat) (isle : Isle) (phase : FarPhase) (dests : List (Dest × Word))
    (err : Option (Trap × Word)) : (s.request id isle phase dests err).thr id =
      { cancelAll dests (s.thr id) with outst := (cancelAll dests (s.thr id)).outst
        ++ [⟨(cancelAll dests (s.thr id)).pc, phase, dests, err, isle, (cancelAll dests (s.thr id)).nextOrd⟩] } :=
  State.updThr_thr_same ..

/-! ### The request that tells of an access -/

/-- What an access of thread `id` leaves that has told of it by one request and gone on; `q` is the state that the bus has
left. -/
structure Told (id : Nat) (isle : Isle) (phase : FarPhase) (dests : List (Dest × Word)) (err : Option (Trap × Word))
    (s q t : State) : Prop where
  issued : (t.thr id).outst = (cancelAll dests (s.thr id)).outst
    ++ [⟨(s.thr id).pc, phase, dests, err, isle, (cancelAll dests (s.thr id)).nextOrd⟩]
  result : NoResult id s t
  others : OtherThreads id s t
  only : OnlyIn [.engines, .threads] q t

/-- An access that the bus has answered in the state `q`, which leaves threads, engines, pairs and modes as they were: the
thread goes on with one request more. -/
theorem perform_told {id : Nat} {s p q : State} (hp : Begun id s p) {ps : List Part} (hq : OnlyIn ps p q)
    (ht : Part.threads ∉ ps) (he : Part.engines ∉ ps) (hf : ErrorFree q) (hw : q.twin (id / 16) = false) (hs : Settled q)
    (hon : (s.eng (id / 16)).power = .on) (isle : Isle) (phase : FarPhase) (dests : List (Dest × Word))
    (err : Option (Trap × Word)) :
    Told id isle phase dests err s q ((p.perform id (farNext id (q.request id isle phase dests err))).settle) := by
  have hthr (j : Nat) : q.thr j = p.thr j := State.thr_of_threads p q (hq.threads ht) j
  have hpow : ((q.request id isle phase dests err).eng (id / 16)).power = .on := by
    have : (q.request id isle phase dests err).eng (id / 16) = p.eng (id / 16) :=
      State.eng_of_engines p _ (hq.engines he) _
    rw [this, (hp.engines _).1, hon]
  have hn : farNext id (q.request id isle phase dests err) = .next (q.request id isle phase dests err) := by
    simp [farNext, hpow]
  obtain ⟨hend, hpc⟩ := perform_next_errorFree p (q.request id isle phase dests err) id
    (hf.of_only (request_only q id isle phase dests err) (by simp) (by simp)) hw
  rw [hn, settle_of_sys (s := q) hs (hend.only.sys (by simp))]
  have hu := request_thr_same q id isle phase dests err
  obtain ⟨cw, cst, cpc, -⟩ := cancelAll_context dests (q.thr id)
  have herrs : (p.thr id).errs = (s.thr id).errs := by simp [hp.thr]
  refine ⟨?_, ⟨fun r _ => ?_, ?_, ?_⟩, fun j hj => ?_,
    ((request_only q id isle phase dests err).mono (by simp)).trans hend.only⟩
  · rw [hend.outst, hu, cpc, hthr, hp.pc, cancelAll_nextOrd dests hp.outst herrs]
    exact congrArg (· ++ _) (cancelAll_outst dests hp.outst)
  · have hw' : (cancelAll dests (q.thr id)).w = (s.thr id).w := by rw [cw, hthr, hp.w]
    simp only [Thread.rd, hend.w, hu, hw']
  · rw [hend.status, hu, ← hp.status, ← hthr]; exact cst
  · rw [GoesOn, hpc, hp.pc]
  · rw [hend.others j hj, request_other _ _ _ _ _ _ j hj, hthr, hp.others j hj]

end Sys2Proof

/-! SUPPORT. Reads over the bus: from image memory, from the Ward table, and from registers whose read is their word. -/

namespace Sys2Proof

open Machine

/-! ### Bytes within a code word (R10) -/

theorem leNat_readBytes_add (m : Memory) (a j n : Nat) :
    leNat (readBytes m a (j + n)) = leNat (readBytes m a j) + 256 ^ j * leNat (readBytes m (a + j) n) := by
  induction j generalizing a with
  | zero => simp [readBytes, leNat]
  | succ j ih =>
    rw [Nat.add_right_comm j 1 n]
    simp only [readBytes, leNat, ih (a + 1), Nat.add_assoc a 1 j, Nat.add_comm 1 j, Nat.pow_succ]
    ring

/-- The `n` bytes at `a` of the `w` bytes from `key` on. -/
theorem leNat_readBytes_slice (m : Memory) {key a n w : Nat} (h : key ≤ a) (hw : a + n ≤ key + w) :
    leNat (readBytes m key w) / 256 ^ (a - key) % 256 ^ n = leNat (readBytes m a n) := by
  obtain ⟨r, rfl⟩ : ∃ r, w = (a - key) + (n + r) := ⟨w - (a - key) - n, by omega⟩
  have hlow := leNat_lt (readBytes m key (a - key))
  have hmid := leNat_lt (readBytes m a n)
  rw [readBytes_length] at hlow hmid
  rw [leNat_readBytes_add, Nat.add_sub_cancel' h, leNat_readBytes_add, Nat.add_mul_div_left _ _ (by positivity),
    Nat.div_eq_of_lt hlow, Nat.zero_add, Nat.add_mul_mod_self_left, Nat.mod_eq_of_lt hmid]

/-- The code words of image memory and of the Ward table are doublewords (Table 6.1). -/
theorem cwBytes_far {a : Nat} (h : inImage a = true ∨ inWard a = true) : cwBytes (memNum a) = 8 := by
  have hm : 32 ≤ memNum a := by
    simp only [inImage, inWard, Bool.and_eq_true, decide_eq_true_eq] at h
    simp only [memNum]
    rw [if_neg (by omega)]
    split
    · omega
    · split <;> omega
  exact if_neg (by omega)

theorem far_dword {a : Nat} (h : inImage a = true ∨ inWard a = true) :
    inImage (a - a % 8) = true ∨ inWard (a - a % 8) = true := by
  simp only [inImage, inWard, Bool.and_eq_true, decide_eq_true_eq] at *; omega

/-- A checked read of `n` bytes within a doubleword of image memory or the Ward table. -/
theorem loadIn_far (s : State) (a n src id : Nat) (hf : ErrorFree s) (ha : inImage a = true ∨ inWard a = true)
    (hn : a % 8 + n ≤ 8) : s.loadIn a n src id = (s, some (leNat (readBytes s.mem a n))) := by
  have hcw : cwOf a = a - a % 8 := by rw [cwOf, cwBytes_far ha]
  simp only [State.loadIn, hcw, readCode_errorFree s _ _ _ hf, cwBytes_far (far_dword ha), Option.map_some]
  rw [leNat_readBytes_slice s.mem (by omega) (by omega)]

/-! ### Reads that the bus answers -/

theorem busRead_memory (s : State) (id a n : Nat) (hf : ErrorFree s) (ha : inImage a = true ∨ inWard a = true)
    (hn : a % 8 + n ≤ 8) (hs : s.scan.run = none) :
    s.busRead id a n = (s, .val (word (leNat (readBytes s.mem a n)))) := by
  have hm : (inImage a || inWard a) = true := by simpa using ha
  simp only [State.busRead, hm, if_true, imageUse_idle s id a 1 hs, loadIn_far s a n 0 id hf ha hn]

/-- The read of a register of `wordRegs` is its word, and has no effect. -/
theorem regRead_word (s : State) (id a : Nat) (h : a ∈ wordRegs) : s.regRead id a = (s, s.reg a) := by
  obtain ⟨hp, hpad⟩ := wordRegs_plain h
  rcases plainRegs_forms hp with h | ⟨j, hj, h⟩ | ⟨t, ht, h⟩ | ⟨p, hp, rfl⟩ | ⟨p, hp, h⟩ | ⟨k, hk, i, hi, rfl⟩
  · simp only [List.mem_cons, List.not_mem_nil, or_false] at h
    rcases h with rfl | rfl | rfl | rfl | rfl | rfl | rfl | rfl | rfl | rfl | rfl <;> rfl
  · have e : a / 0x10000 = 0x5001 ∧ 0x400 ≤ a % 0x10000 ∧ a % 0x10000 < 0x1000 := by omega
    have ha : aHf (a % 0x10000) = a := by simp only [aHf]; omega
    simp only [State.regRead, e.1, State.hfRead]
    rw [if_neg (by omega)]
    split
    · omega
    · omega
    · omega
    · rw [ha]
  · have e : a / 0x10000 = 0x5000 ∧ a % 0x10000 < 0x2000 ∧ (a % 0x10000 % 0x100 = 8 ∨ a % 0x10000 % 0x100 = 12) := by
      simp only [aTmr] at h; omega
    have ha : 0x50000000 + a % 0x10000 = a := by omega
    obtain ⟨e1, e2, e3⟩ := e
    rcases e3 with e3 | e3 <;> simp [State.regRead, e1, State.tmrRead, e2, e3, ha]
  · exact absurd (by simp only [PadWindow, aPadStat]; omega) hpad
  · exact absurd (by simp only [PadWindow, aCvt] at *; omega) hpad
  · have e : aBp k i / 0x10000 = 0x500F ∧ aBp k i % 0x10000 = 0x3110 + 0x20 * k + 4 * i := by simp only [aBp]; omega
    have ha : aSys (0x3110 + 0x20 * k + 4 * i) = aBp k i := by simp only [aSys, aBp]; omega
    simp (disch := omega) only [State.regRead, e, State.sysHighRead, if_neg]
    rw [ha]

theorem busRead_register (s : State) (id a : Nat) (h : a ∈ wordRegs) (hg : s.gated a = false) :
    s.busRead id a 4 = (s, .val (s.reg a)) := by
  have hw := (plainRegs_place (wordRegs_plain h).1).window
  obtain ⟨hi, hd⟩ := inRegs_not_memory a hw
  simp [State.busRead, hi, hd, hw, hg, regRead_word s id a h]

theorem busRead_gated (s : State) (id a n : Nat) (hw : inRegs a = true) (hg : s.gated a = true) :
    s.busRead id a n = (s.gateCount id, .err .farerr (word a)) := by
  obtain ⟨hi, hd⟩ := inRegs_not_memory a hw
  simp [State.busRead, hi, hd, hw, hg]

end Sys2Proof

/-! SUPPORT. Far loads: the beat of a far load, and what its answer leaves. -/

namespace Sys2Proof

open Machine

/-- A far load that the bus has answered with `x` (R126, R143). -/
def loaded (n : Nat) (signed : Bool) (id a : Nat) (rd : Reg) (x : State × Answer) : State :=
  x.1.answered id a x.2 [(.reg rd, extend n signed x.2.value.toNat)]

/-- The error that an answer carries into its request (R143). -/
def answerError : Answer → Option (Trap × Word)
  | .val _ => none
  | .err c info => some (c, info)

/-- What a far load does when it executes: R34's checks, then the read (R124 to R126). -/
def farLoadAct (n : Nat) (signed : Bool) (b : Beat) (rd ra : Reg) (imm : BitVec 14) (s p : State) : Act :=
  farCheck n (farEa b ra imm s) (farRange n) (farNext b.id (loaded n signed b.id (farEa b ra imm s).toNat rd
    ((p.inTurn b.id (farEa b ra imm s).toNat).busRead b.id (farEa b ra imm s).toNat n)))

section

variable {b : Beat} {rd ra : Reg} {imm : BitVec 14} {s : State} (hc : Clean s) (hs : Settled s) (hi : FarIdle b s)
  (hr : Ready b [.reg ra] true s)

include hi hr

/-- A far load of a thread that is ready, behind which nothing of its engine waits. -/
theorem farLoad_ready (n : Nat) (signed : Bool) : farLoad n signed b rd ra imm s =
    ((s.takePosition b.eng.val b.pos.val b.thr.val).perform b.id
      (farLoadAct n signed b rd ra imm s (s.takePosition b.eng.val b.pos.val b.thr.val))).settle := by
  have hp := takePosition_begun s b
  simp only [farLoad, farBeat]
  rw [beat_ready b { reads := [.reg ra], far := true } _ s hr]
  have hl := landNotes_none (s.takePosition b.eng.val b.pos.val b.thr.val) b.id (by rw [hp.hinge]; exact hi.2.1)
  have hf : (s.takePosition b.eng.val b.pos.val b.thr.val).flushFar (b.id / 16)
      = s.takePosition b.eng.val b.pos.val b.thr.val := by
    simp only [State.flushFar, takePosition_farMerge hi.1]
  have he : ea14 ((s.takePosition b.eng.val b.pos.val b.thr.val).thr b.id) ra imm = farEa b ra imm s := by
    simp only [farEa, ea14, hp.rd]
  rw [hl, hf, he]
  rfl

include hs

/-- A far load that passes its checks and that the bus answers in the state `q`, outside the pad island. -/
theorem farLoad_told {n : Nat} {signed : Bool} {q : State} {ans : Answer} {ps : List Part}
    (hal : (farEa b ra imm s).toNat % n = 0) (hok : farRange n (farEa b ra imm s).toNat = true)
    (hpad : isleOf (farEa b ra imm s).toNat ≠ .pad)
    (hb : (s.takePosition b.eng.val b.pos.val b.thr.val).busRead b.id (farEa b ra imm s).toNat n = (q, ans))
    (hq : OnlyIn ps (s.takePosition b.eng.val b.pos.val b.thr.val) q) (ht : Part.threads ∉ ps) (he : Part.engines ∉ ps)
    (hsys : Part.sys ∉ ps) (hf : ErrorFree q) (hw : q.reg aTwin = s.reg aTwin) :
    Told b.id (isleOf (farEa b ra imm s).toNat) .done [(.reg rd, extend n signed ans.value.toNat)]
      (answerError ans) s q (farLoad n signed b rd ra imm s) := by
  have hk := beat_id_div b
  have htw : q.twin b.eng.val = false := by rw [State.twin, hw]; exact hr.single
  have hst : Settled q := by rw [Settled, hq.sys hsys, (takePosition_begun s b).sys]; exact hs
  have hact : farLoadAct n signed b rd ra imm s (s.takePosition b.eng.val b.pos.val b.thr.val) = farNext b.id
      (q.request b.id (isleOf (farEa b ra imm s).toNat) .done [(.reg rd, extend n signed ans.value.toNat)]
        (answerError ans)) := by
    rw [farLoadAct, farCheck_ok _ _ _ _ hal hok, State.inTurn, if_neg hpad, hb, loaded]
    cases ans <;> rfl
  rw [farLoad_ready hi hr, hact]
  exact perform_told (takePosition_begun s b) hq ht he hf (hk ▸ htw) hst (hk ▸ engRuns_power hr.runs) _ _ _ _

include hc

/-- A far load whose read changes nothing: its request carries the value (R126). -/
theorem farLoad_gives {n : Nat} {signed : Bool} {v w : Word} (hal : (farEa b ra imm s).toNat % n = 0)
    (hok : farRange n (farEa b ra imm s).toNat = true) (hisle : isleOf (farEa b ra imm s).toNat = .fabric)
    (hb : (s.takePosition b.eng.val b.pos.val b.thr.val).busRead b.id (farEa b ra imm s).toNat n
      = (s.takePosition b.eng.val b.pos.val b.thr.val, .val w)) (hv : extend n signed w.toNat = v) :
    let s' := farLoad n signed b rd ra imm s
    Issued b.id .fabric .done [(.reg rd, v)] s s' ∧ (s'.thr b.id).pendingOn (.reg rd) = true
      ∧ NoResult b.id s s' ∧ OnlyThread b.id s s' := by
  intro s'
  have hp := takePosition_begun s b
  have htold := farLoad_told (rd := rd) (signed := signed) (ps := []) hs hi hr hal hok (by rw [hisle]; decide) hb
    (OnlyIn.refl _ _) (by simp) (by simp) (by simp) (hp.errorFree hc.errorFree) (hp.reg _)
  simp only [Answer.value, hv, hisle] at htold
  have honly := hp.only.trans htold.only
  refine ⟨htold.issued, ?_, htold.result, SameMemory.of_mem (honly.mem (by simp)), htold.others,
    (honly.mono (by simp)).sameUnits⟩
  rw [Thread.pendingOn, htold.issued]
  simp

/-- R126: a far load from image memory, or from the Ward table. -/
theorem farLoad_memory {n : Nat} {signed : Bool} {v : Word}
    (ha : inImage (farEa b ra imm s).toNat = true ∨ inWard (farEa b ra imm s).toNat = true)
    (hal : (farEa b ra imm s).toNat % n = 0) (hok : farRange n (farEa b ra imm s).toNat = true)
    (hn : (farEa b ra imm s).toNat % 8 + n ≤ 8)
    (hv : extend n signed (word (leNat (readBytes s.mem (farEa b ra imm s).toNat n))).toNat = v) :
    let s' := farLoad n signed b rd ra imm s
    Issued b.id .fabric .done [(.reg rd, v)] s s' ∧ (s'.thr b.id).pendingOn (.reg rd) = true
      ∧ NoResult b.id s s' ∧ OnlyThread b.id s s' := by
  have hp := takePosition_begun s b
  have hreg : inRegs (farEa b ra imm s).toNat = false := by
    simp only [inRegs, inImage, inWard, Bool.and_eq_true, Bool.or_eq_false_iff, Bool.and_eq_false_iff,
      decide_eq_true_eq, decide_eq_false_iff_not] at *
    omega
  have hb := busRead_memory (s.takePosition b.eng.val b.pos.val b.thr.val) b.id _ n (hp.errorFree hc.errorFree) ha hn
    (by rw [hp.scan]; exact hi.2.2)
  rw [hp.mem] at hb
  exact farLoad_gives hc hs hi hr hal hok (isleOf_memory hreg false) hb hv

/-- A word load from a register whose read is its word. -/
theorem farLoad_register (hw : (farEa b ra imm s).toNat ∈ wordRegs) :
    let s' := farLoad 4 false b rd ra imm s
    Issued b.id .fabric .done [(.reg rd, s.reg (farEa b ra imm s).toNat)] s s' ∧ (s'.thr b.id).pendingOn (.reg rd) = true
      ∧ NoResult b.id s s' ∧ OnlyThread b.id s s' := by
  have hp := takePosition_begun s b
  obtain ⟨hplain, hpad⟩ := wordRegs_plain hw
  have hpl := plainRegs_place hplain
  have hb := busRead_register (s.takePosition b.eng.val b.pos.val b.thr.val) b.id _ hw
    (gated_fabric _ hpl.engine hpad hpl.keeper)
  rw [hp.reg] at hb
  exact farLoad_gives hc hs hi hr hpl.aligned (by simp [farRange, inFar, hpl.window])
    (isleOf_fabric hpl.aon hpl.engine hpad hpl.keeper false) hb (by simp [extend, word])

end

/-- What is off at the beat of a thread is off before it. -/
theorem Begun.gated {id : Nat} {s p : State} (hp : Begun id s p) (a : Nat) : p.gated a = s.gated a := by
  have hon (k : Nat) : p.islandOn k = s.islandOn k := by simp only [State.islandOn, (hp.engines k).1]
  have hcyc : p.cycle = s.cycle := hp.only .cycle (by simp)
  simp only [State.gated, hon, State.untilUp, hp.sys, hcyc]

theorem Begun.raisable {id ch : Nat} {s p : State} (hp : Begun id s p) (h : Raisable ch s) : Raisable ch p :=
  h.of_same hp.only (by simp) (by simp) (by simp) (hp.reg _)

/-- R24: a word load from a register of an engine island that is off is answered with FARERR, and counted. -/
theorem farLoad_gated {b : Beat} {rd ra : Reg} {imm : BitVec 14} {s : State} (hc : Clean s) (hs : Settled s)
    (hi : FarIdle b s) (hr : Ready b [.reg ra] true s) (hw : inRegs (farEa b ra imm s).toNat = true)
    (hal : (farEa b ra imm s).toNat % 4 = 0) (hisle : isleOf (farEa b ra imm s).toNat = .engine)
    (hg : s.gated (farEa b ra imm s).toNat = true) (hx : Raisable 666 s) :
    let s' := farLoad 4 false b rd ra imm s
    IssuedErr b.id .engine [(.reg rd, 0)] .farerr (farEa b ra imm s) s s' ∧ NoResult b.id s s'
      ∧ bit (s'.reg aXflag) 0 = true ∧ fld (s'.reg aXerr) 0 9 = b.id
      ∧ fld (s'.reg aXerr) 16 16 = min 0xFFFF (fld (s.reg aXerr) 16 16 + 1) ∧ RaisedNow 666 s s'
      ∧ OtherThreads b.id s s' ∧ RegsBut [aXerr, aXflag] s s' ∧ OnlyIn [.threads, .engines, .regs, .hinge] s s' := by
  intro s'
  have hp := takePosition_begun s b
  have hb := busRead_gated _ b.id _ 4 hw ((hp.gated _).trans hg)
  obtain ⟨hflag, hid, hcount, hraised, hregs, honly⟩ := gateCount_raisable _ b.id (beat_id_lt b) (hp.raisable hx)
  have htold := farLoad_told (rd := rd) (signed := false) hs hi hr hal (by simp [farRange, inFar, hw])
    (by rw [hisle]; decide) hb honly (by simp) (by simp) (by simp)
    ((hp.errorFree hc.errorFree).of_same (honly .ecc (by simp)) (hregs _ (by decide)))
    ((hregs _ (by decide)).trans (hp.reg _))
  have hea : word (farEa b ra imm s).toNat = farEa b ra imm s := by simp [word]
  rw [hisle, hea] at htold
  have hreg (a : Nat) : s'.reg a = _ := State.reg_of_regs _ s' (htold.only.regs (by simp)) a
  rw [hp.reg] at hcount
  refine ⟨htold.issued, htold.result, by rw [hreg]; exact hflag, by rw [hreg]; exact hid, by rw [hreg]; exact hcount,
    ?_, htold.others, fun a ha => ?_, ?_⟩
  · exact (hraised.of_same hp.only (by simp) (by simp) (by simp)).of_hinge (htold.only.hinge (by simp))
  · rw [hreg, hregs a ha, hp.reg]
  · exact ((hp.only.mono (by simp)).trans (honly.mono (by simp))).trans (htold.only.mono (by simp))

/-- R34, R117, R125: a far load at an address that its width may not name traps at issue. -/
theorem farLoad_traps {b : Beat} {rd ra : Reg} {imm : BitVec 14} {s : State} (hc : Clean s) (hs : Settled s)
    (hi : FarIdle b s) (hr : Ready b [.reg ra] true s) (hstep : (s.thr b.id).stepping = false) (n : Nat) (signed : Bool)
    (c : Trap) (h : ∀ act, farCheck n (farEa b ra imm s) (farRange n) act = .trap c (farEa b ra imm s)) :
    TrapsAt b.id c (farEa b ra imm s) s (farLoad n signed b rd ra imm s) := by
  rw [farLoad_ready hi hr, farLoadAct, h]
  exact perform_trapsAt (takePosition_begun s b) _ _ (beat_id_lt b) hc hs (beat_id_div b ▸ hr.single) hstep

/-! ### The values of the loads (R126) -/

theorem word_toNat_word (n : Nat) : word (word n).toNat = word n := by
  simp only [word, BitVec.ofNat_toNat, BitVec.setWidth_eq]

theorem readBytes_two (m : Memory) (a : Nat) :
    leNat (readBytes m a 4) % 2 ^ 16 = leNat (readBytes m a 2) := by
  have h := leNat_readBytes_slice m (n := 2) (w := 4) (Nat.le_refl a) (by omega)
  simpa using h

theorem readBytes_one (m : Memory) (a : Nat) : leNat (readBytes m a 1) = (readByte m a).toNat := by
  simp [readBytes, leNat]

theorem extend_half (m : Memory) (a : Nat) :
    extend 2 true (word (leNat (readBytes m a 2))).toNat = (BitVec.ofNat 16 (leNat (readBytes m a 4))).signExtend 32
      ∧ extend 2 false (word (leNat (readBytes m a 2))).toNat = BitVec.ofNat 32 (leNat (readBytes m a 4) % 2 ^ 16) := by
  rw [readBytes_two, ← readBytes_two]
  constructor
  · simp only [extend, word, if_true]
    congr 1
    apply BitVec.eq_of_toNat_eq
    simp only [BitVec.toNat_ofNat]
    omega
  · exact word_toNat_word _

theorem extend_byte (m : Memory) (a : Nat) :
    extend 1 true (word (leNat (readBytes m a 1))).toNat = (readByte m a).signExtend 32
      ∧ extend 1 false (word (leNat (readBytes m a 1))).toNat = (readByte m a).setWidth 32 := by
  have hlt := (readByte m a).isLt
  rw [readBytes_one]
  constructor
  · simp only [extend, word, if_true]
    congr 1
    apply BitVec.eq_of_toNat_eq
    simp only [BitVec.toNat_ofNat]
    omega
  · apply BitVec.eq_of_toNat_eq
    simp [extend, word]

/-! ### The five loads -/

theorem after_fldW {b : Beat} {rd ra : Reg} {imm : BitVec 14} {s : State} {p : State → Prop}
    (h : p (farLoad 4 false b rd ra imm s)) : After (.fldW b rd ra imm) s p := ⟨_, rfl, h⟩

theorem after_fldH {b : Beat} {rd ra : Reg} {imm : BitVec 14} {s : State} {p : State → Prop}
    (h : p (farLoad 2 true b rd ra imm s)) : After (.fldH b rd ra imm) s p := ⟨_, rfl, h⟩

theorem after_fldHu {b : Beat} {rd ra : Reg} {imm : BitVec 14} {s : State} {p : State → Prop}
    (h : p (farLoad 2 false b rd ra imm s)) : After (.fldHu b rd ra imm) s p := ⟨_, rfl, h⟩

theorem after_fldB {b : Beat} {rd ra : Reg} {imm : BitVec 14} {s : State} {p : State → Prop}
    (h : p (farLoad 1 true b rd ra imm s)) : After (.fldB b rd ra imm) s p := ⟨_, rfl, h⟩

theorem after_fldBu {b : Beat} {rd ra : Reg} {imm : BitVec 14} {s : State} {p : State → Prop}
    (h : p (farLoad 1 false b rd ra imm s)) : After (.fldBu b rd ra imm) s p := ⟨_, rfl, h⟩

/-- Settles O11: a far load that executes issues its request with the value that its target holds in the issuing step
(log entry 20), or with the error of an island that is off, or traps at issue. -/
theorem farLoads : Obligations.FarLoads := by
  unfold Obligations.FarLoads
  intro b rd ra imm s hc hs hi hr ea a m narrow bytes traps gives
  refine ⟨fun ha hal => ?word, fun hw _ => ?register, fun hw hal hisle hg hx => ?gated, fun ha => ?image, fun hstep => ?traps⟩
  case word =>
    have hok : farRange 4 a = true := by rcases ha with ha | ha <;> simp [farRange, inFar, ha]
    exact after_fldW (farLoad_memory hc hs hi hr ha hal hok (show a % 8 + 4 ≤ 8 by omega) (word_toNat_word _))
  case register => exact after_fldW (farLoad_register hc hs hi hr hw)
  case gated => exact after_fldW (farLoad_gated hc hs hi hr hw hal hisle hg hx)
  case image =>
    obtain ⟨hh, hhu⟩ := extend_half s.mem a
    obtain ⟨hb, hbu⟩ := extend_byte s.mem a
    exact ⟨fun hal => ⟨after_fldH (farLoad_memory hc hs hi hr (.inl ha) hal ha (show a % 8 + 2 ≤ 8 by omega) hh),
        after_fldHu (farLoad_memory hc hs hi hr (.inl ha) hal ha (show a % 8 + 2 ≤ 8 by omega) hhu)⟩,
      after_fldB (farLoad_memory hc hs hi hr (.inl ha) (Nat.mod_one _) ha (show a % 8 + 1 ≤ 8 by omega) hb),
      after_fldBu (farLoad_memory hc hs hi hr (.inl ha) (Nat.mod_one _) ha (show a % 8 + 1 ≤ 8 by omega) hbu)⟩
  case traps =>
    have hmis (n : Nat) (signed : Bool) (h : a % n ≠ 0) : traps .align (farLoad n signed b rd ra imm s) :=
      farLoad_traps hc hs hi hr hstep n signed .align fun act => farCheck_align _ _ _ act h
    have hout (n : Nat) (signed : Bool) (h : a % n = 0) (hr' : farRange n a = false) :
        traps .farerr (farLoad n signed b rd ra imm s) :=
      farLoad_traps hc hs hi hr hstep n signed .farerr fun act => farCheck_farerr _ _ _ act h hr'
    exact ⟨fun h => after_fldW (hmis 4 false h), fun h => ⟨after_fldH (hmis 2 true h), after_fldHu (hmis 2 false h)⟩,
      fun h hf => after_fldW (hout 4 false h hf),
      fun him => ⟨fun h => ⟨after_fldH (hout 2 true h him), after_fldHu (hout 2 false h him)⟩,
        after_fldB (hout 1 true (Nat.mod_one _) him), after_fldBu (hout 1 false (Nat.mod_one _) him)⟩⟩

end Sys2Proof

/-! SUPPORT. Thread control: the beat of the engine master, and T as it tells of the command's success (R88). -/

namespace Sys2Proof

open Machine

/-! ### The thread that goes on -/

theorem Ready.fewer {b : Beat} {rs rs' : List Dest} {far : Bool} {s : State} (h : Ready b rs far s) (hs : ∀ d ∈ rs', d ∈ rs) :
    Ready b rs' far s where
  runs := h.runs
  single := h.single
  position := h.position
  boundary := h.boundary
  undivided := h.undivided
  fetched := h.fetched
  sources := fun d hd => h.sources d (hs d hd)
  room := h.room
  space := h.space

theorem wrT_w (t : Thread) (v : Bool) : (t.wrT v).w = t.w := by cases t; rfl

theorem wrT_status (t : Thread) (v : Bool) : (t.wrT v).status = setBit t.status 27 v := by cases t; rfl

theorem bit_setT (w : Word) (v : Bool) (i : Nat) (hi : i < 32) :
    (setBit w 27 v).getLsbD i = if i = 27 then v else w.getLsbD i := bit_setBit w 27 i v (by omega) hi

/-- What the command of the master `id` leaves that has acted in the state `u` with success `ok` and gone on. -/
structure Commanded (id : Nat) (ok : Bool) (s u t : State) : Prop where
  w : (t.thr id).w = (u.thr id).w
  status : (t.thr id).status = setBit (u.thr id).status 27 ok
  pc : GoesOn id s t
  others : OtherThreads id u t
  only : OnlyIn [.engines, .threads] u t

/-- T tells of a command that was done. -/
theorem Commanded.done {id : Nat} {s u t : State} (h : Commanded id true s u t)
    (hu : (u.thr id).status = (s.thr id).status) (i : Nat) (hi : i < 32) :
    (t.thr id).status.getLsbD i = (i == 27 || (s.thr id).status.getLsbD i) := by
  rw [h.status, hu, bit_setT _ _ i hi]
  by_cases h27 : i = 27 <;> simp [h27]

/-- T tells of a command that was not done. -/
theorem Commanded.refused {id : Nat} {s u t : State} (h : Commanded id false s u t)
    (hu : (u.thr id).status = (s.thr id).status) (i : Nat) (hi : i < 32) :
    (t.thr id).status.getLsbD i = (i != 27 && (s.thr id).status.getLsbD i) := by
  rw [h.status, hu, bit_setT _ _ i hi]
  by_cases h27 : i = 27 <;> simp [h27]

theorem Commanded.rd {id : Nat} {ok : Bool} {s u t : State} (h : Commanded id ok s u t) (r : Reg) :
    (t.thr id).rd r = (u.thr id).rd r := by simp only [Thread.rd, h.w]

/-! ### The beat (R88, R142) -/

/-- The number that a thread-control instruction of the beat's thread names. -/
def masterTarget (b : Beat) (ra : Reg) (s : State) : Nat := ((s.thr b.id).rd ra).toNat % 16

/-- The thread of the master's engine with that number. -/
def masterThread (b : Beat) (ra : Reg) (s : State) : Nat := 16 * b.eng.val + masterTarget b ra s

/-- What a thread-control instruction does when it executes (R88). -/
def masterAct (b : Beat) (ra : Reg) (w : Word) (f : Nat → Nat → State → State × Bool) (s p : State) : Act :=
  if b.id % 16 ≠ 0 then .trap .priv w
  else if masterTarget b ra s = 0 then .next (p.updThr b.id (·.wrT false))
  else .next ((f b.id (b.id - b.id % 16 + masterTarget b ra s) p).1.updThr b.id
    (·.wrT (f b.id (b.id - b.id % 16 + masterTarget b ra s) p).2))

/-- A command that has acted in the state `u`, with memory free of errors and the pairs as they were: its thread goes on. -/
theorem perform_commanded {id : Nat} {p u : State} {ok : Bool} (hp : Begun id s p) (hf : ErrorFree u)
    (hw : u.twin (id / 16) = false) : Commanded id ok s u (p.perform id (.next (u.updThr id (·.wrT ok)))) := by
  obtain ⟨hend, hpc⟩ := perform_next_errorFree p (u.updThr id (·.wrT ok)) id
    (hf.of_only (setThr_only u id _) (by simp) (by simp)) hw
  refine ⟨?_, ?_, ?_, fun j hj => ?_, ((setThr_only u id _).mono (by simp)).trans hend.only⟩
  · rw [hend.w, State.updThr_thr_same, wrT_w]
  · rw [hend.status, State.updThr_thr_same, wrT_status]
  · rw [GoesOn, hpc, hp.pc]
  · rw [hend.others j hj, State.updThr_thr, if_neg hj]

theorem beat_id_mod (b : Beat) : b.id % 16 = b.thr.val := by have := b.thr.isLt; simp only [Beat.id]; omega

section

variable {b : Beat} {reads : List Dest} {ra : Reg} {w : Word} {f : Nat → Nat → State → State × Bool} {s : State}
  (hr : Ready b (.reg ra :: reads) false s)
include hr

theorem masterBeat_ready : masterBeat b reads ra w f s =
    (s.takePosition b.eng.val b.pos.val b.thr.val).perform b.id
      (masterAct b ra w f s (s.takePosition b.eng.val b.pos.val b.thr.val)) := by
  have hp := takePosition_begun s b
  simp only [masterBeat]
  rw [beat_ready b { reads := .reg ra :: reads } _ s hr, hp.rd]
  rfl

/-- R88: a thread that is not the engine master traps with PRIV. -/
theorem masterBeat_priv (hc : Clean s) (hthr : b.thr ≠ 0) (hstep : (s.thr b.id).stepping = false) :
    TrapsAt b.id .priv w s (masterBeat b reads ra w f s) := by
  have hp := takePosition_begun s b
  have hne : b.id % 16 ≠ 0 := by rw [beat_id_mod]; exact fun h => hthr (Fin.ext h)
  have htw : s.twin (b.id / 16) = false := beat_id_div b ▸ hr.single
  rw [masterBeat_ready hr, masterAct, if_pos hne]
  exact ⟨fun ht hpol hfit hm => perform_trap_vectored hp hp.running _ _ (beat_id_lt b) hc.errorFree htw hm ht hpol hfit,
    fun h => (perform_trap_held hp hp.running _ _ (beat_id_lt b) hstep h).1⟩

/-- R88: the master itself as target clears T, and nothing else happens. -/
theorem masterBeat_self (hc : Clean s) (hthr : b.thr = 0) (hn : masterTarget b ra s = 0) :
    Commanded b.id false s (s.takePosition b.eng.val b.pos.val b.thr.val) (masterBeat b reads ra w f s) := by
  have hp := takePosition_begun s b
  have h0 : b.id % 16 = 0 := by rw [beat_id_mod, hthr]; rfl
  rw [masterBeat_ready hr, masterAct, if_neg (by simp [h0]), if_pos hn]
  exact perform_commanded hp (hp.errorFree hc.errorFree) ((hp.twin _).trans (beat_id_div b ▸ hr.single))

/-- The command of the engine master to another thread of its engine. -/
theorem masterBeat_other (hthr : b.thr = 0) (hn : masterTarget b ra s ≠ 0) {u : State} {ok : Bool}
    (hu : f b.id (masterThread b ra s) (s.takePosition b.eng.val b.pos.val b.thr.val) = (u, ok)) (hf : ErrorFree u)
    (hw : u.reg aTwin = s.reg aTwin) : Commanded b.id ok s u (masterBeat b reads ra w f s) := by
  have h0 : b.id % 16 = 0 := by rw [beat_id_mod, hthr]; rfl
  have ht : b.id - b.id % 16 + masterTarget b ra s = masterThread b ra s := by
    have := beat_id_div b
    simp only [masterThread]; omega
  rw [masterBeat_ready hr, masterAct, if_neg (by simp [h0]), if_neg hn, ht, hu]
  exact perform_commanded (takePosition_begun s b) hf (by rw [beat_id_div, State.twin, hw]; exact hr.single)

end

theorem masterThread_ne {b : Beat} {ra : Reg} {s : State} (hthr : b.thr = 0) (hn : masterTarget b ra s ≠ 0) :
    masterThread b ra s ≠ b.id := by
  have h0 : b.thr.val = 0 := by rw [hthr]; rfl
  simp only [masterThread, Beat.id]; omega

theorem masterThread_div (b : Beat) (ra : Reg) (s : State) : masterThread b ra s / 16 = b.eng.val := by
  have : masterTarget b ra s < 16 := Nat.mod_lt _ (by omega)
  simp only [masterThread]; omega

/-- A refused command changes T and goes on, and nothing else. -/
theorem refused_frame {id : Nat} {s p t : State} (hp : Begun id s p) (h : Commanded id false s p t) :
    ((∀ i, i < 32 → (t.thr id).status.getLsbD i = (i != 27 && (s.thr id).status.getLsbD i)) ∧ GoesOn id s t
      ∧ OnlyThread id s t) ∧ OtherRegs id [] s t := by
  have honly := hp.only.trans h.only
  exact ⟨⟨h.refused hp.status, h.pc, SameMemory.of_mem (honly.mem (by simp)),
    fun j hj => (h.others j hj).trans (hp.others j hj), (honly.mono (by simp)).sameUnits⟩,
    fun r _ => (h.rd r).trans (hp.rd r)⟩

end Sys2Proof

/-! SUPPORT. Selectors of a thread's context: TSET and TGET (R89, R90). -/

namespace Sys2Proof

open Machine

/-! ### Registers of a thread -/

theorem rd_of_w {t u : Thread} (h : t.w = u.w) (r : Reg) : t.rd r = u.rd r := by simp only [Thread.rd, h]

@[simp] theorem cancel_rd (t : Thread) (d : Dest) (r : Reg) : (t.cancel d).rd r = t.rd r := rfl

theorem rd_wr (t : Thread) (r x : Reg) (v : Word) : (t.wr r v).rd x = if x = r then v else t.rd x := by
  rw [Thread.wr, rd_wrRaw, cancel_rd]

theorem pendingOn_cancel_same (t : Thread) (d : Dest) : (t.cancel d).pendingOn d = false := by
  simp [Thread.pendingOn, Thread.cancel, FarReq.cancel]

/-! ### Clamped values (R40, R41, R89) -/

/-- A clamp changes no register but the counters and the channels that tell of it. -/
theorem clamp_reg (s : State) (n a : Nat) (h1 : a ≠ 0x500F0014) (h2 : a ≠ aHfCnt) (h3 : a ≠ aHfCh 668) :
    (s.clamp n).reg a = s.reg a := by
  simp only [State.clamp]
  split
  · rfl
  · rw [raise_reg _ _ _ h2 h3, count_reg, if_neg h1]; rfl

/-- A clamp is counted and raises its event. -/
theorem clamp_counted (s : State) : Counted 0x500F0014 0 32 1 s (s.clamp 1)
    ∧ (Raisable 668 s → RaisedNow 668 s (s.clamp 1)) := by
  have he : s.clamp 1 = (({ s with clamps := s.clamps + 1 } : State).count 0x500F0014 0 32 1).raise 668 := rfl
  rw [he]
  constructor
  · exact (count_counted { s with clamps := s.clamps + 1 } 0x500F0014 0 32 1 (by omega)).of_reg rfl
      (raise_reg _ _ _ (by decide) (by decide))
  · intro h
    exact raise_taken _ 668 ⟨h.1, by rw [count_reg, if_neg (by decide)]; exact h.2.1, h.2.2⟩

theorem keepBits_clean {v m : Word} (h : v &&& m = v) : (keepBits v m).2 = 0 := if_pos h
theorem keepBits_cleared {v m : Word} (h : v &&& m ≠ v) : (keepBits v m).2 = 1 := if_neg h

/-! ### What a selector's write does -/

/-- A thread whose context the master may write (R89). -/
def Writable (t : Thread) : Prop := t.st = .stopped ∨ t.st = .trapped ∨ t.st = .halted

theorem ctxWrite_refused (s : State) (id sel : Nat) (v : Word) (h : ¬ Writable (s.thr id) ∨ 0x14 ≤ sel) :
    s.ctxWrite id sel v = (s, false) := by
  simp only [State.ctxWrite]
  split
  · rfl
  · rename_i hopen
    have hsel : 0x14 ≤ sel := h.resolve_left fun h => h (by simpa [Writable, imp_iff_not_or, or_assoc] using hopen)
    rw [if_neg (by omega)]
    split <;> first | omega | rfl

section

variable {s : State} {id : Nat} (h : Writable (s.thr id)) (v : Word)
include h

theorem ctxWrite_reg (r : Reg) : s.ctxWrite id r.val v = (s.setThr id ((s.thr id).wr r v), true) := by
  rcases h with h | h | h <;> simp [State.ctxWrite, h, r.isLt]

theorem ctxWrite_pc : s.ctxWrite id 0x10 v =
    ((s.clamp (keepBits v 0xFFFC).2).updThr id ({ · with pc := v &&& 0xFFFC }), true) := by
  rcases h with h | h | h <;> simp [State.ctxWrite, h, keepBits]

theorem ctxWrite_status : s.ctxWrite id 0x11 v =
    (s.setThr id { (s.thr id).cancel .flagT with status := v &&& 0xF8FF0000 }, true) := by
  rcases h with h | h | h <;> simp [State.ctxWrite, h, statusBits]

theorem ctxWrite_vbase : s.ctxWrite id 0x12 v =
    ((s.clamp (keepBits v 0xFF00).2).updThr id ({ · with vbase := v &&& 0xFF00 }), true) := by
  rcases h with h | h | h <;> simp [State.ctxWrite, h, keepBits]

theorem ctxWrite_slim : s.ctxWrite id 0x13 v =
    ((s.clamp (keepBits v 0x1FFFC).2).updThr id ({ · with slim := v &&& 0x1FFFC }), true) := by
  rcases h with h | h | h <;> simp [State.ctxWrite, h, keepBits]

end

theorem ctxRead_reg (s : State) (id : Nat) (r : Reg) : s.ctxRead id r.val = ((s.thr id).rd r, true) := by
  simp [State.ctxRead, r.isLt]

theorem ctxRead_reserved (s : State) (id sel : Nat) (h : 0x17 ≤ sel) : s.ctxRead id sel = (0, false) := by
  simp only [State.ctxRead]
  rw [if_neg (by omega)]
  split <;> first | omega | rfl

theorem sel_reg (r : Reg) : (BitVec.ofNat 8 r.val).toNat = r.val := by
  have := r.isLt
  rw [BitVec.toNat_ofNat]; omega

end Sys2Proof

/-! SUPPORT. TSET, TGET and TGO: what they do to the target and leave of everything else (R89 to R91). -/

namespace Sys2Proof

open Machine

/-! ### The state that a command leaves -/

/-- What a command of the master to the thread `target` leaves that succeeds and changes the target's context, in the state
`u` of its action: success, and the frame. -/
structure TargetDone (b : Beat) (target : Nat) (s u t : State) : Prop where
  thr : t.thr target = u.thr target
  done : ∀ i, i < 32 → (t.thr b.id).status.getLsbD i = (i == 27 || (s.thr b.id).status.getLsbD i)
  regs : OtherRegs b.id [] s t
  pc : GoesOn b.id s t
  others : ∀ j, j ≠ b.id → j ≠ target → t.thr j = s.thr j
  memory : SameMemory s t
  only : OnlyIn [.engines, .threads] u t

/-- What the action of such a command may change: its target among the threads, registers and the fabric. -/
structure ActsOn (target : Nat) (p u : State) : Prop where
  only : OnlyIn [.threads, .regs, .hinge] p u
  others : OtherThreads target p u
  inject : u.reg aEccInj = p.reg aEccInj
  twin : u.reg aTwin = p.reg aTwin

theorem setThr_actsOn (p : State) (target : Nat) (t : Thread) : ActsOn target p (p.setThr target t) where
  only := (setThr_only p target t).mono (by simp)
  others := fun j hj => by rw [State.setThr_thr, if_neg hj]
  inject := rfl
  twin := rfl

theorem clamp_actsOn (p : State) (n target : Nat) (g : Thread → Thread) :
    ActsOn target p ((p.clamp n).updThr target g) where
  only := ((clamp_only p n).mono (by simp)).trans ((setThr_only _ target _).mono (by simp))
  others := fun j hj => by
    rw [State.updThr_thr, if_neg hj]; exact State.thr_of_threads _ _ ((clamp_only p n).threads (by simp)) j
  inject := by rw [State.updThr_reg, clamp_reg _ _ _ (by decide) (by decide) (by decide)]
  twin := by rw [State.updThr_reg, clamp_reg _ _ _ (by decide) (by decide) (by decide)]

section

variable {b : Beat} {reads : List Dest} {ra : Reg} {w : Word} {f : Nat → Nat → State → State × Bool} {s : State}
  (hr : Ready b (.reg ra :: reads) false s) (hc : Clean s) (hthr : b.thr = 0) (hn : masterTarget b ra s ≠ 0)
include hr hc hthr hn

/-- A command that acts on its target. -/
theorem masterBeat_targetDone {u : State}
    (hu : f b.id (masterThread b ra s) (s.takePosition b.eng.val b.pos.val b.thr.val) = (u, true))
    (ha : ActsOn (masterThread b ra s) (s.takePosition b.eng.val b.pos.val b.thr.val) u) :
    TargetDone b (masterThread b ra s) s u (masterBeat b reads ra w f s) := by
  have hp := takePosition_begun s b
  have hne := masterThread_ne hthr hn
  have hd := masterBeat_other (w := w) hr hthr hn hu ((hp.errorFree hc.errorFree).of_same (ha.only .ecc (by simp)) ha.inject)
    (ha.twin.trans (hp.reg _))
  have hid : u.thr b.id = (s.takePosition b.eng.val b.pos.val b.thr.val).thr b.id := ha.others b.id hne.symm
  refine ⟨hd.others _ hne, hd.done (by rw [hid, hp.status]), fun r _ => by rw [hd.rd, hid, hp.rd], hd.pc,
    fun j hj hjt => ?_, SameMemory.of_mem ?_, hd.only⟩
  · rw [hd.others j hj, ha.others j hjt, hp.others j hj]
  · rw [hd.only.mem (by simp), ha.only.mem (by simp), hp.mem]

/-- R88: a command that its target refuses. -/
theorem masterBeat_refused
    (hu : f b.id (masterThread b ra s) (s.takePosition b.eng.val b.pos.val b.thr.val)
      = (s.takePosition b.eng.val b.pos.val b.thr.val, false)) :
    ((∀ i, i < 32 → ((masterBeat b reads ra w f s).thr b.id).status.getLsbD i
        = (i != 27 && (s.thr b.id).status.getLsbD i)) ∧ GoesOn b.id s (masterBeat b reads ra w f s)
      ∧ OnlyThread b.id s (masterBeat b reads ra w f s)) ∧ OtherRegs b.id [] s (masterBeat b reads ra w f s) := by
  have hp := takePosition_begun s b
  exact refused_frame hp (masterBeat_other hr hthr hn hu (hp.errorFree hc.errorFree) (hp.reg _))

/-- TGET's form: the master's register takes `v`, T the success (R90). -/
theorem masterBeat_reads {rd : Reg} {v : Word} {ok : Bool}
    (hu : f b.id (masterThread b ra s) (s.takePosition b.eng.val b.pos.val b.thr.val)
      = ((s.takePosition b.eng.val b.pos.val b.thr.val).updThr b.id (·.wr rd v), ok)) :
    let s' := masterBeat b reads ra w f s
    (s'.thr b.id).rd rd = v ∧ (s'.thr b.id).status = setBit (s.thr b.id).status 27 ok ∧ OtherRegs b.id [rd] s s'
      ∧ GoesOn b.id s s' ∧ OnlyThread b.id s s' := by
  intro s'
  have hp := takePosition_begun s b
  have hset := setThr_only (s.takePosition b.eng.val b.pos.val b.thr.val) b.id
    (((s.takePosition b.eng.val b.pos.val b.thr.val).thr b.id).wr rd v)
  have hd := masterBeat_other (w := w) hr hthr hn hu ((hp.errorFree hc.errorFree).of_only hset (by simp) (by simp))
    (hp.reg _)
  have honly := (hp.only.trans (hset.mono (by simp))).trans hd.only
  have hrd (r : Reg) : (s'.thr b.id).rd r = if r = rd then v else (s.thr b.id).rd r := by
    rw [hd.rd, State.updThr_thr_same, rd_wr, hp.rd]
  refine ⟨by rw [hrd, if_pos rfl], ?_, fun r hrr => ?_, hd.pc, SameMemory.of_mem (honly.mem (by simp)), fun j hj => ?_,
    (honly.mono (by simp)).sameUnits⟩
  · rw [hd.status, State.updThr_thr_same, ← hp.status]; rfl
  · rw [hrd, if_neg (by simpa using hrr)]
  · rw [hd.others j hj, State.updThr_thr, if_neg hj, hp.others j hj]

end

end Sys2Proof

/-! SUPPORT. TSET and TGET selector by selector, and TGO (R89 to R91). -/

namespace Sys2Proof

open Machine

/-! ### The four instructions as beats of the master -/

def tset (b : Beat) (rd ra : Reg) (sel : BitVec 8) (s : State) : State :=
  masterBeat b [.reg rd] ra (wordI14 0x28 rd ra sel.toNat) (fun id target s => s.ctxWrite target sel.toNat ((s.thr id).rd rd)) s

def tget (b : Beat) (rd ra : Reg) (sel : BitVec 8) (s : State) : State :=
  masterBeat b [] ra (wordI14 0x29 rd ra sel.toNat)
    (fun id target s => (s.updThr id (·.wr rd (s.ctxRead target sel.toNat).1), (s.ctxRead target sel.toNat).2)) s

def tgo (b : Beat) (ra : Reg) (s : State) : State :=
  masterBeat b [] ra (wordI14 0x2A 0 ra 0)
    (fun _ target s => if (s.thr target).st = .stopped then (s.releaseStopped target, true) else (s, false)) s

def trst (b : Beat) (ra : Reg) (s : State) : State :=
  masterBeat b [] ra (wordI14 0x2C 0 ra 0) (fun _ target s => (s.resetThread target, true)) s

section

variable {b : Beat} {rd ra : Reg} {sel : BitVec 8} {s : State} {p : State → Prop}

theorem after_tset (h : p (tset b rd ra sel s)) : After (.tset b rd ra sel) s p := ⟨_, rfl, h⟩
theorem after_tget (h : p (tget b rd ra sel s)) : After (.tget b rd ra sel) s p := ⟨_, rfl, h⟩
theorem after_tgo (h : p (tgo b ra s)) : After (.tgo b ra) s p := ⟨_, rfl, h⟩
theorem after_trst (h : p (trst b ra s)) : After (.trst b ra) s p := ⟨_, rfl, h⟩

end

section

variable {b : Beat} {rd ra : Reg} {sel : BitVec 8} {s : State} (hr : Ready b [.reg ra, .reg rd] false s) (hc : Clean s)
  (hthr : b.thr = 0) (hn : masterTarget b ra s ≠ 0)
include hr hc hthr hn

/-! ### TSET (R89) -/

/-- A selector that the target takes. -/
theorem tset_targetDone {u : State}
    (hctx : (s.takePosition b.eng.val b.pos.val b.thr.val).ctxWrite (masterThread b ra s) sel.toNat ((s.thr b.id).rd rd)
      = (u, true))
    (ha : ActsOn (masterThread b ra s) (s.takePosition b.eng.val b.pos.val b.thr.val) u) :
    TargetDone b (masterThread b ra s) s u (tset b rd ra sel s) := by
  rw [← (takePosition_begun s b).rd rd] at hctx
  exact masterBeat_targetDone hr hc hthr hn hctx ha

/-- A target that keeps its context, or a selector that no context has. -/
theorem tset_refused (h : ¬ Writable (s.thr (masterThread b ra s)) ∨ 0x14 ≤ sel.toNat) :
    ((∀ i, i < 32 → ((tset b rd ra sel s).thr b.id).status.getLsbD i = (i != 27 && (s.thr b.id).status.getLsbD i))
      ∧ GoesOn b.id s (tset b rd ra sel s) ∧ OnlyThread b.id s (tset b rd ra sel s))
      ∧ OtherRegs b.id [] s (tset b rd ra sel s) := by
  have hp := takePosition_begun s b
  rw [← hp.others _ (masterThread_ne hthr hn)] at h
  exact masterBeat_refused hr hc hthr hn (ctxWrite_refused _ _ _ _ h)

/-- A write of the target's thread that leaves the units as they are. -/
theorem tset_setThr {t : Thread}
    (hctx : (s.takePosition b.eng.val b.pos.val b.thr.val).ctxWrite (masterThread b ra s) sel.toNat ((s.thr b.id).rd rd)
      = ((s.takePosition b.eng.val b.pos.val b.thr.val).setThr (masterThread b ra s) t, true)) :
    let u := (s.takePosition b.eng.val b.pos.val b.thr.val).setThr (masterThread b ra s) t
    TargetDone b (masterThread b ra s) s u (tset b rd ra sel s) ∧ (tset b rd ra sel s).thr (masterThread b ra s) = t
      ∧ SameUnits s (tset b rd ra sel s) := by
  intro u
  have hd := tset_targetDone hr hc hthr hn hctx (setThr_actsOn _ _ _)
  refine ⟨hd, hd.thr.trans (State.setThr_thr_same ..), ?_⟩
  exact ((((takePosition_begun s b).only.trans ((setThr_only _ _ _).mono (by simp))).trans hd.only).mono (by simp)).sameUnits

/-- A selector that keeps the bits `m` of what is written; bits cleared from it count as one clamp (R41, R89). -/
theorem tset_kept {m : Word} (g : Thread → Thread)
    (hctx : (s.takePosition b.eng.val b.pos.val b.thr.val).ctxWrite (masterThread b ra s) sel.toNat ((s.thr b.id).rd rd)
      = (((s.takePosition b.eng.val b.pos.val b.thr.val).clamp (keepBits ((s.thr b.id).rd rd) m).2).updThr
          (masterThread b ra s) g, true)) :
    let s' := tset b rd ra sel s
    s'.thr (masterThread b ra s) = g (s.thr (masterThread b ra s))
      ∧ ((s.thr b.id).rd rd &&& m ≠ (s.thr b.id).rd rd →
          Counted 0x500F0014 0 32 1 s s' ∧ (Raisable 668 s → RaisedNow 668 s s'))
      ∧ ((s.thr b.id).rd rd &&& m = (s.thr b.id).rd rd → SameUnits s s')
      ∧ ∃ u, TargetDone b (masterThread b ra s) s u s' := by
  intro s'
  have hp := takePosition_begun s b
  have hd := tset_targetDone hr hc hthr hn hctx (clamp_actsOn _ _ _ _)
  have hclamp := clamp_only (s.takePosition b.eng.val b.pos.val b.thr.val) (keepBits ((s.thr b.id).rd rd) m).2
  refine ⟨?_, fun hm => ?_, fun hm => ?_, _, hd⟩
  · rw [hd.thr, State.updThr_thr_same, State.thr_of_threads _ _ (hclamp.threads (by simp)),
      hp.others _ (masterThread_ne hthr hn)]
  · rw [keepBits_cleared hm] at hd
    obtain ⟨hcount, hraise⟩ := clamp_counted (s.takePosition b.eng.val b.pos.val b.thr.val)
    refine ⟨hcount.of_reg (hp.reg _).symm (State.reg_of_regs _ s' (hd.only.regs (by simp)) _), fun hx => ?_⟩
    exact ((hraise (hp.raisable hx)).of_same hp.only (by simp) (by simp) (by simp)).of_hinge (hd.only.hinge (by simp))
  · rw [keepBits_clean hm, clamp_zero] at hd
    exact (((hp.only.trans ((setThr_only _ _ _).mono (by simp))).trans hd.only).mono (by simp)).sameUnits

/-! ### TGET (R90) -/

/-- The value and the success of a read of the target's selector. -/
theorem tget_reads {v : Word} {ok : Bool}
    (hctx : (s.takePosition b.eng.val b.pos.val b.thr.val).ctxRead (masterThread b ra s) sel.toNat = (v, ok)) :
    let s' := tget b rd ra sel s
    (s'.thr b.id).rd rd = v ∧ (s'.thr b.id).status = setBit (s.thr b.id).status 27 ok ∧ OtherRegs b.id [rd] s s'
      ∧ GoesOn b.id s s' ∧ OnlyThread b.id s s' :=
  masterBeat_reads (hr.fewer (by simp)) hc hthr hn (by rw [hctx])

/-- The value of a selector that exists. -/
theorem tget_value {v : Word}
    (hctx : (s.takePosition b.eng.val b.pos.val b.thr.val).ctxRead (masterThread b ra s) sel.toNat = (v, true)) :
    let s' := tget b rd ra sel s
    (s'.thr b.id).rd rd = v
      ∧ (∀ i, i < 32 → (s'.thr b.id).status.getLsbD i = (i == 27 || (s.thr b.id).status.getLsbD i))
      ∧ OtherRegs b.id [rd] s s' ∧ GoesOn b.id s s' ∧ OnlyThread b.id s s' := by
  intro s'
  obtain ⟨hv, hst, hrest⟩ := tget_reads hr hc hthr hn hctx
  refine ⟨hv, fun i hi => ?_, hrest⟩
  rw [hst, bit_setT _ _ i hi]
  by_cases h27 : i = 27 <;> simp [h27]

/-- A selector that shows the field `x` of its target's context. -/
theorem tget_field (x : Thread → Word)
    (hctx : ∀ u : State, u.ctxRead (masterThread b ra s) sel.toNat = (x (u.thr (masterThread b ra s)), true)) :
    let s' := tget b rd ra sel s
    (s'.thr b.id).rd rd = x (s.thr (masterThread b ra s))
      ∧ (∀ i, i < 32 → (s'.thr b.id).status.getLsbD i = (i == 27 || (s.thr b.id).status.getLsbD i))
      ∧ OtherRegs b.id [rd] s s' ∧ GoesOn b.id s s' ∧ OnlyThread b.id s s' :=
  tget_value hr hc hthr hn ((hctx _).trans (by rw [(takePosition_begun s b).others _ (masterThread_ne hthr hn)]))

/-- A reserved selector reads 0 and clears T. -/
theorem tget_reserved (hsel : 0x17 ≤ sel.toNat) :
    let s' := tget b rd ra sel s
    ((∀ i, i < 32 → (s'.thr b.id).status.getLsbD i = (i != 27 && (s.thr b.id).status.getLsbD i)) ∧ GoesOn b.id s s'
      ∧ OnlyThread b.id s s') ∧ (s'.thr b.id).rd rd = 0 ∧ OtherRegs b.id [rd] s s' := by
  intro s'
  obtain ⟨hv, hst, hrd, hpc, hframe⟩ := tget_reads (rd := rd) hr hc hthr hn (ctxRead_reserved _ _ _ hsel)
  refine ⟨⟨fun i hi => ?_, hpc, hframe⟩, hv, hrd⟩
  rw [hst, bit_setT _ _ i hi]
  by_cases h27 : i = 27 <;> simp [h27]

end

/-! ### TGO (R91, R118) -/

/-- The word of a code word of an engine's memories, or of the doubleword that an address beyond them names. -/
theorem word_leNat_readBytes (m : Memory) (a n : Nat) (h : 4 ≤ n) : word (leNat (readBytes m a n)) = readWord m a := by
  obtain ⟨r, rfl⟩ := Nat.exists_eq_add_of_le h
  apply BitVec.eq_of_toNat_eq
  rw [leNat_readBytes_add, word, readWord, BitVec.toNat_ofNat, BitVec.toNat_ofNat,
    show (256 : Nat) ^ 4 = 2 ^ 32 from rfl, Nat.add_mul_mod_self_left]

/-- Filling the fetch-ahead word of a thread of no Twin pair, with memory free of errors: the word of its engine's SRAM. -/
theorem fill_word (s : State) (id : Nat) (a : Word) (vec : Bool) (h : ErrorFree s) (ht : s.twin (id / 16) = false) :
    s.fill id a vec = s.updThr id fun t =>
      { t with faAddr := a, faWord := readWord s.mem (engKey (id / 16) a.toNat), faBad := false, faVec := vec,
               faWord2 := readWord s.mem (engKey (id / 16) a.toNat), faBad2 := false } := by
  have hl : s.lead (id / 16) = id / 16 := by simp [State.lead, ht]
  have hcw : 4 ≤ cwBytes (memNum (engKey (id / 16) a.toNat)) := by simp only [cwBytes]; split <;> omega
  simp only [State.fill, readCode_errorFree s _ _ _ h, hl, ht, ← word_leNat_readBytes _ _ _ hcw]
  rfl

/-- What a thread's release changes of it beside its watchdog (R91): READY at its pc, with the word there fetched. -/
structure Released (k : Nat) (m : Memory) (t u : Thread) : Prop where
  st : u.st = .ready
  pc : u.pc = t.pc
  w : u.w = t.w
  faAddr : u.faAddr = t.pc
  faWord : u.faWord = readWord m (engKey k t.pc.toNat)

@[simp] theorem enter_faAddr (t : Thread) (c : Nat) (st : ThreadState) : (t.enter c st).faAddr = t.faAddr := by
  simp only [Thread.enter]; split <;> rfl
@[simp] theorem enter_faWord (t : Thread) (c : Nat) (st : ThreadState) : (t.enter c st).faWord = t.faWord := by
  simp only [Thread.enter]; split <;> rfl

/-- A STOPPED thread of no Twin pair is released. -/
theorem releaseStopped_released (s : State) (id : Nat) (hf : ErrorFree s) (ht : s.twin (id / 16) = false) :
    Released (id / 16) s.mem (s.thr id) ((s.releaseStopped id).thr id) ∧ OnlyIn [.threads] s (s.releaseStopped id)
      ∧ OtherThreads id s (s.releaseStopped id) := by
  have hw := fill_word (s.updThr id (·.wdRestart s.cycle)) id ((s.updThr id (·.wdRestart s.cycle)).thr id).pc false
    (hf.of_only (setThr_only s id _) (by simp) (by simp)) ht
  simp only [State.releaseStopped, State.toReady, hw]
  refine ⟨?_, ((setThr_only s id _).trans (setThr_only _ id _)).trans (setThr_only _ id _), fun j hj => ?_⟩
  · simp only [State.updThr_thr_same]
    constructor <;> split <;> simp [Thread.wdRestart]
  · simp [State.updThr_thr, hj]

section

variable {b : Beat} {ra : Reg} {s : State} (hr : Ready b [.reg ra] false s) (hc : Clean s)
  (hthr : b.thr = 0) (hn : masterTarget b ra s ≠ 0)
include hr hc hthr hn

theorem tgo_released (hst : (s.thr (masterThread b ra s)).st = .stopped) :
    Released b.eng.val s.mem (s.thr (masterThread b ra s)) ((tgo b ra s).thr (masterThread b ra s))
      ∧ SameUnits s (tgo b ra s) ∧ ∃ u, TargetDone b (masterThread b ra s) s u (tgo b ra s) := by
  have hp := takePosition_begun s b
  have htgt := hp.others _ (masterThread_ne hthr hn)
  have hdiv := masterThread_div b ra s
  obtain ⟨hrel, honly, hothers⟩ := releaseStopped_released (s.takePosition b.eng.val b.pos.val b.thr.val)
    (masterThread b ra s) (hp.errorFree hc.errorFree) (by rw [hdiv, hp.twin]; exact hr.single)
  rw [hdiv, hp.mem, htgt] at hrel
  have hreg (a : Nat) := State.reg_of_regs _ _ (honly.regs (by simp)) a
  have hd : TargetDone b (masterThread b ra s) s _ (tgo b ra s) := masterBeat_targetDone hr hc hthr hn
    (if_pos (by rw [htgt]; exact hst)) ⟨honly.mono (by simp), hothers, hreg _, hreg _⟩
  refine ⟨hd.thr ▸ hrel, ?_, _, hd⟩
  exact (((hp.only.trans (honly.mono (by simp))).trans hd.only).mono (by simp)).sameUnits

theorem tgo_refused (hst : (s.thr (masterThread b ra s)).st ≠ .stopped) :
    ((∀ i, i < 32 → ((tgo b ra s).thr b.id).status.getLsbD i = (i != 27 && (s.thr b.id).status.getLsbD i))
      ∧ GoesOn b.id s (tgo b ra s) ∧ OnlyThread b.id s (tgo b ra s)) ∧ OtherRegs b.id [] s (tgo b ra s) :=
  masterBeat_refused hr hc hthr hn
    (if_neg (by rw [(takePosition_begun s b).others _ (masterThread_ne hthr hn)]; exact hst))

end

end Sys2Proof

/-! SUPPORT. TRST: a thread's reset, with the locks that it held and the waiters that they complete (R93, R194, R197). -/

namespace Sys2Proof

open Machine

/-! ### Waiters that a freed lock completes (R63, R194) -/

/-- What the completion of waits changes: threads that wait, and the power of their islands. -/
structure Woken (s t : State) : Prop where
  only : OnlyIn [.threads, .sys, .regs] s t
  regs : RegsBut [aEngPwr] s t
  still : ∀ j, (s.thr j).inWait = false → t.thr j = s.thr j

theorem Woken.refl (s : State) : Woken s s := ⟨OnlyIn.refl _ s, fun _ _ => rfl, fun _ _ => rfl⟩

theorem Woken.trans {s t u : State} (h : Woken s t) (h' : Woken t u) : Woken s u where
  only := h.only.trans h'.only
  regs := h.regs.trans h'.regs
  still := fun j hj => by
    have ht := h.still j hj
    exact (h'.still j (by rw [ht]; exact hj)).trans ht

theorem Woken.errorFree {s t : State} (h : Woken s t) (hf : ErrorFree s) : ErrorFree t :=
  hf.of_same (h.only .ecc (by simp)) (h.regs _ (by decide))

/-- A wake queues power-ups and tells of them in SYS_ENGPWR. -/
theorem wakeIsland_only (s : State) (k : Nat) :
    OnlyIn [.sys, .regs] s (s.wakeIsland k) ∧ RegsBut [aEngPwr] s (s.wakeIsland k) := by
  refine foldl_keeps (fun t => OnlyIn [.sys, .regs] s t ∧ RegsBut [aEngPwr] s t) _ _ s
    ⟨OnlyIn.refl _ s, fun _ _ => rfl⟩ fun t j h => ?_
  split
  · exact ⟨(h.1.trans ((setSys_only t _).mono (by simp))).trans ((setReg_only _ _ _).mono (by simp)),
      h.2.trans (setReg_regsBut (t.govQueue j true false) _ _)⟩
  · exact h

theorem wakeIsland_woken (s : State) (k : Nat) : Woken s (s.wakeIsland k) :=
  ⟨(wakeIsland_only s k).1.mono (by simp), (wakeIsland_only s k).2,
    fun j _ => State.thr_of_threads _ _ ((wakeIsland_only s k).1.threads (by simp)) j⟩

/-- Filling the fetch-ahead word with memory free of errors changes its thread only. -/
theorem fill_only (s : State) (id : Nat) (a : Word) (vec : Bool) (hf : ErrorFree s) :
    OnlyIn [.threads] s (s.fill id a vec) ∧ OtherThreads id s (s.fill id a vec) := by
  simp only [State.fill, readCode_errorFree s _ _ _ hf]
  split <;> exact ⟨setThr_only s id _, fun j hj => by rw [State.updThr_thr, if_neg hj]⟩

/-- A wait that completes changes its thread only. -/
theorem completeWait_only (s : State) (id : Nat) (hf : ErrorFree s) :
    OnlyIn [.threads] s (s.completeWait id) ∧ OtherThreads id s (s.completeWait id) := by
  obtain ⟨ho, hj⟩ := fill_only (s.updThr id ({ · with pc := pcOf ((s.thr id).pc + 4) })) id (pcOf ((s.thr id).pc + 4)) false
    (hf.of_only (setThr_only s id _) (by simp) (by simp))
  refine ⟨((setThr_only s id _).trans ho).trans (setThr_only _ id _), fun j hne => ?_⟩
  simp only [State.completeWait, State.goTo]
  rw [State.updThr_thr, if_neg hne, hj j hne, State.updThr_thr, if_neg hne]

theorem completeWait_woken (s : State) (id : Nat) (hf : ErrorFree s) (hw : (s.thr id).inWait = true) :
    Woken s (s.completeWait id) := by
  obtain ⟨ho, hj⟩ := completeWait_only s id hf
  refine ⟨ho.mono (by simp), fun a _ => State.reg_of_regs _ _ (ho.regs (by simp)) a, fun j hs => hj j fun he => ?_⟩
  rw [he, hw] at hs
  cases hs

/-- A lock's waiters leave the table, and each that still waits completes. -/
theorem completeWaiters_woken (s : State) (a : Nat) (hf : ErrorFree s) :
    Woken { s with tum := { s.tum with waiters := s.tum.waiters.filter fun w => w.2 != a } } (s.completeWaiters a) := by
  simp only [State.completeWaiters]
  generalize hu : ({ s with tum := { s.tum with waiters := s.tum.waiters.filter fun w => w.2 != a } } : State) = u
  have hfu : ErrorFree u := by subst hu; exact hf
  refine foldl_keeps (Woken u) _ _ u (Woken.refl u) fun t id h => ?_
  split
  · rename_i hw
    simp only [Bool.and_eq_true] at hw
    obtain ⟨⟨hwait, -⟩, -⟩ := hw
    have hi := wakeIsland_woken t (id / 16)
    have hthr : (t.wakeIsland (id / 16)).thr id = t.thr id :=
      State.thr_of_threads _ _ ((wakeIsland_only t _).1.threads (by simp)) id
    exact (h.trans hi).trans (completeWait_woken _ id (hi.errorFree (h.errorFree hfu)) (by rw [hthr]; exact hwait))
  · exact h

/-! ### Locks that a reset frees (R193, R197) -/

/-- What the release of locks with BROKEN marks at the addresses `as` leaves: threads that do not wait, and mail. -/
structure Marked (as : List Nat) (s t : State) : Prop where
  only : OnlyIn [.tum, .threads, .sys, .regs] s t
  regs : RegsBut [aEngPwr] s t
  still : ∀ j, (s.thr j).inWait = false → t.thr j = s.thr j
  locks : ∀ a, tabFind t.tum.locks a = if a ∈ as then some .marked else tabFind s.tum.locks a
  mail : t.tum.mail = s.tum.mail
  quiet : s.tum.waiters = [] → t.tum.waiters = [] ∧ t.threads = s.threads

theorem Marked.errorFree {as : List Nat} {s t : State} (h : Marked as s t) (hf : ErrorFree s) : ErrorFree t :=
  hf.of_same (h.only .ecc (by simp)) (h.regs _ (by decide))

theorem Marked.trans {as bs : List Nat} {s t u : State} (h : Marked as s t) (h' : Marked bs t u) :
    Marked (as ++ bs) s u where
  only := h.only.trans h'.only
  regs := h.regs.trans h'.regs
  still := fun j hj => by
    have ht := h.still j hj
    exact (h'.still j (by rw [ht]; exact hj)).trans ht
  locks := fun a => by
    rw [h'.locks, h.locks]
    by_cases hb : a ∈ bs <;> by_cases ha : a ∈ as <;> simp [ha, hb]
  mail := h'.mail.trans h.mail
  quiet := fun hw => by
    obtain ⟨hwt, htt⟩ := h.quiet hw
    obtain ⟨hwu, htu⟩ := h'.quiet hwt
    exact ⟨hwu, htu.trans htt⟩

theorem freeLock_marked (s : State) (a : Nat) (hf : ErrorFree s) : Marked [a] s (s.freeLock a true) := by
  have hw : Woken _ (s.freeLock a true) :=
    completeWaiters_woken { s with tum := { s.tum with locks := tabSet s.tum.locks a .marked } } a hf
  have htum := hw.only .tum (by simp)
  refine ⟨((setTum_only s _).mono (by simp)).trans (hw.only.mono (by simp)), hw.regs, hw.still, fun x => ?_, ?_,
    fun hq => ⟨?_, (freeLock_alone s a true hq).threads (by simp)⟩⟩
  · rw [htum]
    simp [tabFind_tabSet]
  · rw [htum]
  · rw [htum]
    simp [hq]

theorem freeLocks_marked (as : List Nat) (s : State) (hf : ErrorFree s) :
    Marked as s (as.foldl (fun s a => s.freeLock a true) s) := by
  induction as generalizing s with
  | nil => exact ⟨OnlyIn.refl _ s, fun _ _ => rfl, fun _ _ => rfl, fun _ => rfl, rfl, fun hw => ⟨hw, rfl⟩⟩
  | cons a as ih =>
    have h := freeLock_marked s a hf
    exact h.trans (ih _ (h.errorFree hf))

/-- The addresses of the locks that thread `id` holds. -/
def heldBy (id : Nat) (s : State) : List Nat := (s.tum.locks.filter fun l => l.2 == .held id).map (·.1)

theorem heldBy_of_find {id a : Nat} {s : State} (h : tabFind s.tum.locks a = some (.held id)) : a ∈ heldBy id s :=
  List.mem_map.2 ⟨_, List.mem_filter.2 ⟨mem_of_tabFind _ _ _ h, by simp⟩, rfl⟩

theorem not_heldBy {id a : Nat} {s : State} (h : ∀ l ∈ s.tum.locks, l.1 = a → l.2 ≠ .held id) : a ∉ heldBy id s := by
  intro hm
  obtain ⟨l, hl, ha⟩ := List.mem_map.1 hm
  obtain ⟨hl, hh⟩ := List.mem_filter.1 hl
  exact h l hl ha (by simpa using hh)

/-- What the reset of the holder `id` leaves at the Tumbler unit (R197, R203). -/
structure HolderGone (id : Nat) (s t : State) : Prop where
  only : OnlyIn [.tum, .threads, .sys, .regs] s t
  regs : RegsBut [aEngPwr] s t
  still : ∀ j, (s.thr j).inWait = false → t.thr j = s.thr j
  locks : ∀ a, tabFind t.tum.locks a = if a ∈ heldBy id s then some .marked else tabFind s.tum.locks a
  mail : ∀ m ∈ t.tum.mail, m.2.half = true → m.2.writer ≠ id
  quiet : s.tum.waiters = [] → t.threads = s.threads

theorem holderReset_holderGone (s : State) (id : Nat) (hf : ErrorFree s) : HolderGone id s (s.holderReset id) := by
  have hm := freeLocks_marked (heldBy id s) (s.deregister id) hf
  refine ⟨(((setTum_only s _).mono (by simp)).trans hm.only).trans ((setTum_only _ _).mono (by simp)), hm.regs, hm.still,
    hm.locks, fun m hmem hhalf => ?_, fun hq => (hm.quiet ?_).2⟩
  · obtain ⟨x, -, rfl⟩ := List.mem_map.1 hmem
    simp only at hhalf ⊢
    split at hhalf
    · cases hhalf
    · rename_i hx
      rw [if_neg hx]
      intro hw
      exact hx (by simp [hhalf, hw])
  · simp [State.deregister, hq, tabErase]

/-! ### The reset of a thread (R93, R213) -/

/-- What the reset of thread `id` leaves in an engine of no pair with empty merge entries. -/
structure ThreadGone (id : Nat) (s t : State) : Prop where
  only : OnlyIn [.tum, .threads, .sys, .regs, .engines, .hinge] s t
  regs : RegsBut [aEngPwr] s t
  thr : t.thr id = {}
  still : ∀ j, j ≠ id → (s.thr j).inWait = false → t.thr j = s.thr j
  inputs : ∀ k, k < 4 → tabFind t.hinge.inputs (4 * id + k) = none
  locks : ∀ a, tabFind t.tum.locks a = if a ∈ heldBy id s then some .marked else tabFind s.tum.locks a
  mail : ∀ m ∈ t.tum.mail, m.2.half = true → m.2.writer ≠ id
  quiet : s.tum.waiters = [] → OtherThreads id s t

theorem resetThread_threadGone (s : State) (id : Nat) (hf : ErrorFree s) (ht : s.twin (id / 16) = false)
    (hl : (s.eng (id / 16)).localMerge = none) (hm : (s.eng (id / 16)).farMerge = none) :
    ThreadGone id s (s.resetThread id) := by
  have hd : OnlyIn [.engines] s (s.dropHolder id) := setEng_only s _ _
  have hg := holderReset_holderGone (s.dropHolder id) id (hf.of_only hd (by simp) (by simp))
  generalize hr : (s.dropHolder id).holderReset id = r at hg
  have he : s.resetThread id = { r.setThr id {} with hinge := { r.hinge with
      inputs := tabDrop (fun i _ => i / 4 == id) r.hinge.inputs
      drops := tabDrop (fun i _ => i / 4 == id) r.hinge.drops
      notes := r.hinge.notes.filter fun n => n.id != id } } := by
    simp only [State.resetThread, State.both, ht, hl, hm, Bool.false_eq_true, if_false, List.foldl_cons, List.foldl_nil,
      Option.any_none, hr]
    rfl
  rw [he]
  refine ⟨?_, fun a ha => hg.regs a ha, State.setThr_thr_same .., fun j hj hs => ?_, fun k hk => ?_, hg.locks, hg.mail,
    fun hq j hj => ?_⟩
  · exact (((hd.mono (by simp)).trans (hg.only.mono (by simp))).trans ((setThr_only r id {}).mono (by simp))).trans
      ((setHinge_only _ _).mono (by simp))
  · have h1 : (r.setThr id {}).thr j = r.thr j := by rw [State.setThr_thr, if_neg hj]
    exact h1.trans (hg.still j hs)
  · have := tabFind_filterKey r.hinge.inputs (fun i => !(i / 4 == id)) (4 * id + k)
    rw [if_neg (by simp; omega)] at this
    exact this
  · have h1 : (r.setThr id {}).thr j = r.thr j := by rw [State.setThr_thr, if_neg hj]
    exact h1.trans (State.thr_of_threads (s.dropHolder id) r (hg.quiet hq) j)

/-- R93: TRST of a thread of the master's engine. -/
theorem trst_threadGone {b : Beat} {ra : Reg} {s : State} (hr : Ready b [.reg ra] false s) (hc : Clean s)
    (hthr : b.thr = 0) (hn : masterTarget b ra s ≠ 0) (hl : (s.eng b.eng.val).localMerge = none)
    (hm : (s.eng b.eng.val).farMerge = none) :
    let p := s.takePosition b.eng.val b.pos.val b.thr.val
    ThreadGone (masterThread b ra s) p (p.resetThread (masterThread b ra s))
      ∧ Commanded b.id true s (p.resetThread (masterThread b ra s)) (trst b ra s) := by
  intro p
  have hp : Begun b.id s p := takePosition_begun s b
  have hdiv := masterThread_div b ra s
  have hg := resetThread_threadGone p (masterThread b ra s) (hp.errorFree hc.errorFree)
    (by rw [hdiv, hp.twin]; exact hr.single) (by rw [hdiv, (hp.engines _).2.1]; exact hl)
    (by rw [hdiv, (hp.engines _).2.2]; exact hm)
  exact ⟨hg, masterBeat_other hr hthr hn rfl
    ((hp.errorFree hc.errorFree).of_same (hg.only .ecc (by simp)) (hg.regs _ (by decide)))
    ((hg.regs _ (by decide)).trans (hp.reg _))⟩

theorem Begun.inWait {id : Nat} {s p : State} (hp : Begun id s p) : (p.thr id).inWait = false := by
  simp [Thread.inWait, hp.thr]

/-- R93, R197, R203, R213: what TRST leaves of its target, of its locks and mail, and of everything else. -/
theorem trst_resets {b : Beat} {ra : Reg} {s : State} (hr : Ready b [.reg ra] false s) (hc : Clean s) (hthr : b.thr = 0)
    (hn : masterTarget b ra s ≠ 0) (hl : (s.eng b.eng.val).localMerge = none) (hm : (s.eng b.eng.val).farMerge = none) :
    let s' := trst b ra s
    let target := masterThread b ra s
    s'.thr target = {} ∧ (∀ k, k < 4 → tabFind s'.hinge.inputs (4 * target + k) = none)
      ∧ (∀ m ∈ s'.tum.mail, m.2.half = true → m.2.writer ≠ target)
      ∧ (∀ a, tabFind s.tum.locks a = some (.held target) → tabFind s'.tum.locks a = some .marked)
      ∧ (∀ a, (∀ l ∈ s.tum.locks, l.1 = a → l.2 ≠ .held target) → tabFind s'.tum.locks a = tabFind s.tum.locks a)
      ∧ (∀ i, i < 32 → (s'.thr b.id).status.getLsbD i = (i == 27 || (s.thr b.id).status.getLsbD i))
      ∧ OtherRegs b.id [] s s' ∧ GoesOn b.id s s'
      ∧ (s.tum.waiters = [] → ∀ j, j ≠ b.id → j ≠ target → s'.thr j = s.thr j) ∧ SameMemory s s' := by
  intro s' target
  obtain ⟨hg, hd⟩ := trst_threadGone hr hc hthr hn hl hm
  have hp := takePosition_begun s b
  have hne := masterThread_ne hthr hn
  have htum : s'.tum = _ := hd.only .tum (by simp)
  have hptum : (s.takePosition b.eng.val b.pos.val b.thr.val).tum = s.tum := hp.only .tum (by simp)
  have hlocks (a : Nat) : tabFind s'.tum.locks a = if a ∈ heldBy target s then some .marked else tabFind s.tum.locks a := by
    have hheld : heldBy target (s.takePosition b.eng.val b.pos.val b.thr.val) = heldBy target s := by
      simp only [heldBy, hptum]
    rw [htum, hg.locks, hheld, hptum]
  have hid := hg.still b.id hne.symm hp.inWait
  refine ⟨(hd.others _ hne).trans hg.thr, fun k hk => ?_, ?_, fun a ha => ?_, fun a ha => ?_,
    hd.done (by rw [hid, hp.status]), fun r _ => by rw [hd.rd, hid, hp.rd], hd.pc, fun hw j hj hjt => ?_, SameMemory.of_mem ?_⟩
  · rw [hd.only.hinge (by simp)]; exact hg.inputs k hk
  · rw [htum]; exact hg.mail
  · rw [hlocks, if_pos (heldBy_of_find ha)]
  · rw [hlocks, if_neg (not_heldBy ha)]
  · rw [hd.others j hj, hg.quiet (hptum ▸ hw) j hjt, hp.others j hj]
  · rw [hd.only.mem (by simp), hg.only.mem (by simp), hp.mem]

end Sys2Proof

/-! SUPPORT. O19: the engine master's commands, by the state of their target. -/

namespace Sys2Proof

open Machine

section

variable {b : Beat} {rd ra : Reg} {s : State} (hr : Ready b [.reg ra, .reg rd] false s) (hc : Clean s)
include hr hc

/-- R88: the four commands of a thread that is not the master. -/
theorem master_priv (sel : BitVec 8) (hthr : b.thr ≠ 0) (hstep : (s.thr b.id).stepping = false) :
    TrapsAt b.id .priv (wordI14 0x28 rd ra sel.toNat) s (tset b rd ra sel s)
      ∧ TrapsAt b.id .priv (wordI14 0x29 rd ra sel.toNat) s (tget b rd ra sel s)
      ∧ TrapsAt b.id .priv (wordI14 0x2A 0 ra 0) s (tgo b ra s)
      ∧ TrapsAt b.id .priv (wordI14 0x2C 0 ra 0) s (trst b ra s) :=
  have hr1 : Ready b [.reg ra] false s := hr.fewer (by simp)
  ⟨masterBeat_priv hr hc hthr hstep, masterBeat_priv hr1 hc hthr hstep, masterBeat_priv hr1 hc hthr hstep,
    masterBeat_priv hr1 hc hthr hstep⟩

/-- R88: the four commands to the master itself. -/
theorem master_self (sel : BitVec 8) (hthr : b.thr = 0) (hn : masterTarget b ra s = 0) (s' : State)
    (hs' : s' = tset b rd ra sel s ∨ s' = tget b rd ra sel s ∨ s' = tgo b ra s ∨ s' = trst b ra s) :
    ((∀ i, i < 32 → (s'.thr b.id).status.getLsbD i = (i != 27 && (s.thr b.id).status.getLsbD i)) ∧ GoesOn b.id s s'
      ∧ OnlyThread b.id s s') ∧ OtherRegs b.id [] s s' := by
  have hr1 : Ready b [.reg ra] false s := hr.fewer (by simp)
  refine refused_frame (takePosition_begun s b) ?_
  rcases hs' with rfl | rfl | rfl | rfl
  · exact masterBeat_self hr hc hthr hn
  · exact masterBeat_self hr1 hc hthr hn
  · exact masterBeat_self hr1 hc hthr hn
  · exact masterBeat_self hr1 hc hthr hn

end

/-- Settles O19, by the target: the master itself, a thread in a state that the command refuses, a thread that it acts on. A
TSET of the status cancels a pending T of its target, which R89 does not say (log entry 17). -/
theorem masterControl : Obligations.MasterControl := by
  unfold Obligations.MasterControl
  intro b rd ra r sel s hc hr me n target other done open_ set get no kept clean
  have hr1 : Ready b [.reg ra] false s := hr.fewer (by simp)
  have hp := takePosition_begun s b
  have htgt (hthr : b.thr = 0) (hn : n ≠ 0) := hp.others _ (masterThread_ne hthr hn)
  refine ⟨fun hthr hstep => ?priv, fun hthr hn => ?self, fun hthr hn => ⟨fun hopen => ?writes, fun h => ?refusedSet,
    after_tget (tget_field hr hc hthr hn (·.pc) fun _ => rfl), after_tget (tget_field hr hc hthr hn (·.status) fun _ => rfl),
    after_tget (tget_field hr hc hthr hn (·.vbase) fun _ => rfl),
    after_tget (tget_field hr hc hthr hn (·.slim) fun _ => rfl), fun hsel => ?getReserved, fun hst => ?refusedGo⟩,
    fun hthr hn => ⟨fun hopen => ?writesReg, after_tget (tget_field hr hc hthr hn (·.rd r) fun _ => ?getReg), fun hst => ?go, fun hl hm => ?reset⟩⟩
  case priv =>
    obtain ⟨hset, hget, hgo, hrst⟩ := master_priv hr hc sel hthr hstep
    have hw (op : Nat) : wordI14 op 0 ra 0 = BitVec.ofNat 32 (op * 2 ^ 26 + ra.val * 2 ^ 18) := by simp [wordI14, word]
    exact ⟨after_tset hset, after_tget hget, after_tgo (hw 0x2A ▸ hgo), after_trst (hw 0x2C ▸ hrst)⟩
  case self =>
    have hall := master_self hr hc sel hthr hn
    exact ⟨after_tset (hall _ (.inl rfl)), after_tget (hall _ (.inr (.inl rfl))), after_tgo (hall _ (.inr (.inr (.inl rfl)))),
      after_trst (hall _ (.inr (.inr (.inr rfl))))⟩
  case writes =>
    have htgt := htgt hthr hn
    have hopen' : Writable ((s.takePosition b.eng.val b.pos.val b.thr.val).thr (masterThread b ra s)) := htgt ▸ hopen
    refine ⟨?pc, ?status, ?vbase, ?slim⟩
    case pc =>
      obtain ⟨ht, hkept, hclean, u, hd⟩ := tset_kept hr hc hthr hn ({ · with pc := me.rd rd &&& 0xFFFC })
        (sel := BitVec.ofNat 8 0x10) (ctxWrite_pc hopen' _)
      exact after_tset ⟨⟨(congrArg Thread.pc ht :), (congrArg Thread.status ht :), hkept, hclean⟩, hd.done,
        hd.regs, hd.pc, hd.others, hd.memory, fun x _ => rd_of_w (congrArg Thread.w ht :) x⟩
    case status =>
      obtain ⟨hd, ht, hunits⟩ := tset_setThr hr hc hthr hn (sel := BitVec.ofNat 8 0x11) (ctxWrite_status hopen' _)
      rw [htgt] at ht
      exact after_tset ⟨⟨(congrArg Thread.status ht :), (congrArg Thread.pc ht :),
        (congrArg (Thread.pendingOn · .flagT) ht).trans (pendingOn_cancel_same _ _), hunits⟩, hd.done, hd.regs,
        hd.pc, hd.others, hd.memory, fun x _ => rd_of_w (congrArg Thread.w ht :) x⟩
    case vbase =>
      obtain ⟨ht, hkept, hclean, u, hd⟩ := tset_kept hr hc hthr hn ({ · with vbase := me.rd rd &&& 0xFF00 })
        (sel := BitVec.ofNat 8 0x12) (ctxWrite_vbase hopen' _)
      exact after_tset ⟨⟨(congrArg Thread.vbase ht :), (congrArg Thread.pc ht :), hkept, hclean⟩, hd.done,
        hd.regs, hd.pc, hd.others, hd.memory, fun x _ => rd_of_w (congrArg Thread.w ht :) x⟩
    case slim =>
      obtain ⟨ht, hkept, hclean, u, hd⟩ := tset_kept hr hc hthr hn ({ · with slim := me.rd rd &&& 0x1FFFC })
        (sel := BitVec.ofNat 8 0x13) (ctxWrite_slim hopen' _)
      exact after_tset ⟨⟨(congrArg Thread.slim ht :), (congrArg Thread.pc ht :), hkept, hclean⟩, hd.done,
        hd.regs, hd.pc, hd.others, hd.memory, fun x _ => rd_of_w (congrArg Thread.w ht :) x⟩
  case refusedSet => exact after_tset (tset_refused hr hc hthr hn h)
  case getReserved => exact after_tget (tget_reserved hr hc hthr hn hsel)
  case refusedGo => exact after_tgo (tgo_refused hr1 hc hthr hn hst)
  case writesReg =>
    have htgt := htgt hthr hn
    have hopen' : Writable ((s.takePosition b.eng.val b.pos.val b.thr.val).thr (masterThread b ra s)) := htgt ▸ hopen
    obtain ⟨hd, ht, hunits⟩ := tset_setThr hr hc hthr hn (sel := BitVec.ofNat 8 r.val)
      ((sel_reg r).symm ▸ ctxWrite_reg hopen' _ r)
    rw [htgt] at ht
    have hrd (x : Reg) := (congrArg (Thread.rd · x) ht).trans (rd_wr (s.thr target) r x (me.rd rd))
    exact after_tset ⟨(hrd r).trans (if_pos rfl), fun x hx => (hrd x).trans (if_neg (by simpa using hx)),
      (congrArg Thread.pc ht :), hd.done, hd.regs, hd.pc, hd.others, hd.memory, hunits⟩
  case getReg => rw [sel_reg]; exact ctxRead_reg _ _ r
  case go =>
    obtain ⟨hrel, hunits, u, hd⟩ := tgo_released hr1 hc hthr hn hst
    exact after_tgo ⟨hrel.st, hrel.pc, hrel.faAddr, hrel.faWord, fun x _ => rd_of_w hrel.w x, hd.done, hd.regs,
      hd.pc, hd.others, hd.memory, hunits⟩
  case reset => exact after_trst (trst_resets hr1 hc hthr hn hl hm)

end Sys2Proof

/-! SUPPORT. O14: a reply to a frame word of a register that no frame holds. -/

namespace Sys2Proof

open Machine

/-- A reply due to a frame word of w6 in the highest frame. R154 moves w0 to w3 and lk only; the model gives w6 the offset
0x20, the first behind a frame. -/
def strayReply : FarReq := ⟨0, .done, [(.frame 0x13FE0 6, 1)], none, .fabric, 1⟩

/-- Thread 0 of an engine whose island runs awaits that reply alone. -/
def strayState : State :=
  { State.reset with engines := [(0, { power := .on })], threads := [(0, { outst := [strayReply] })] }

/-- The stray word lands at 0x14000, behind the data SRAM of engine 0. -/
theorem strayReply_lands : readByte (strayState.farReply 0 0).mem (engKey 0 0x14000) = 1 := by decide +kernel

/-- Refutes O14: its clause on the words of the frame binds every register `r` with 32 bytes of room at `base`, but only
w0 to w3 and lk lie in those 32 bytes (R154, Table 5.2). At `base` = 0x13FE0 the word of w6 lies at 0x14000, outside the data
SRAM that the clause holds all other memory to. -/
theorem not_farReplies : ¬ Obligations.FarReplies := by
  unfold Obligations.FarReplies
  intro h
  obtain ⟨t, he, -, hframe, -⟩ := (h 0 0 0 strayReply strayState rfl rfl (by decide +kernel)).1 rfl
  have ht : strayState.farReply 0 0 = t := Host.Outcome.next.inj he
  obtain ⟨-, -, hmem, -, -⟩ := hframe 0x13FE0 6 1 rfl ⟨rfl, by decide +kernel, rfl⟩ rfl (by decide +kernel) (by decide)
    (by decide) (by decide)
  have hbyte := hmem (engKey 0 0x14000) (.inr (by decide))
  rw [← ht, strayReply_lands] at hbyte
  exact absurd hbyte (by decide +kernel)

end Sys2Proof

/-! SUPPORT. O59: the state right after a power-on reset. -/

namespace Sys2Proof

open Machine

/-- Settles O59: the reset state lists nothing, so that every table answers its default; SYS_RSTCAUSE resets to POR
(Table 2.6). -/
theorem resetHolds : Obligations.ResetHolds := by
  unfold Obligations.ResetHolds
  have hcause : State.reset.reg aRstCause = 1 := by decide +kernel
  exact ⟨rfl, hcause, fun _ => rfl, fun _ => ⟨rfl, rfl⟩, fun _ => rfl, rfl, rfl, rfl⟩

end Sys2Proof

/-! SUPPORT. O26: an engine of a Twin pair that is switched off while a thread of the pair waits on one of its locks. -/

namespace Sys2Proof

open Machine

/-- Engines 2 and 3 are a Twin pair whose islands are retained. Thread 0 of engine 2 waits on a lock that thread 0 of
engine 3 holds. -/
def pairOnLock : State :=
  { State.reset with
    regs := [(aTwin, 0x20000)]
    engines := [(2, { power := .retained }), (3, { power := .retained })]
    threads := [(32, { st := .waiting, wait := .lock 0x40000000 })]
    tum := { locks := [(0x40000000, .held 48)], waiters := [(32, 0x40000000)] }
    sys := { mode := .preparation } }

/-- Debug's write that keeps engine 2 retained and switches every other engine off lands. -/
theorem pairOnLock_lands : Lands 290 aEngPwr 0x10 pairOnLock where
  runs := rfl
  issues := by decide +kernel
  still := fun h => absurd h (by unfold PadWindow; decide)
  alone := fun h => absurd h (by decide)
  settled := ⟨rfl, rfl⟩
  window := by decide +kernel
  may := by decide +kernel
  island := by decide +kernel
  free := by decide +kernel
  first := rfl
  keeper := fun h => absurd h (by decide)

/-- R197 frees engine 3's lock as its island goes off, R194 completes the wait of engine 2's thread, and R63 and R61 queue
the power-up of both engines of the pair, engine 3 with them. -/
theorem pairOnLock_requeued : (pairOnLock.masterWrite 290 aEngPwr 0x10).engPwr 3 = 2 := by decide +kernel

/-- Refutes O26: its clause on a write of SYS_ENGPWR has every engine with code 0b00 end with that code in SYS_ENGPWR, Twin
pairs included. In `pairOnLock` the release of engine 3's lock wakes its pair while engine 3 is still retained, so that
SYS_ENGPWR.ENG3 ends at 0b10. -/
theorem not_enginePower : ¬ Obligations.EnginePower := by
  unfold Obligations.EnginePower
  intro h
  obtain ⟨hwrite, -⟩ := h 290 3 0x10 pairOnLock
  obtain ⟨t, he, hoff, -⟩ := hwrite pairOnLock_lands
  have ht : pairOnLock.masterWrite 290 aEngPwr 0x10 = t := Host.Outcome.next.inj he
  obtain ⟨-, hcode, -⟩ := hoff (by decide)
  rw [← ht] at hcode
  exact absurd (pairOnLock_requeued.symm.trans hcode) (by decide)

end Sys2Proof

/-! SUPPORT. Unit resets: what the test port and the Keeper leave to a reset, and the state that it starts with (R54 to R56,
R463, R467). -/

namespace Sys2Proof

open Machine

/-! ### What a reset cuts short -/

/-- No debug write is in flight that could land before the reset (R463). -/
theorem tapLands_idle (s : State) (h : ∀ a d, s.tap.access ≠ some (a, some d)) : s.tapLands = s := by
  match ha : s.tap.access with
  | none => simp only [State.tapLands, ha]
  | some (a, none) => simp only [State.tapLands, ha]
  | some (a, some d) => exact absurd ha (h a d)

theorem cutRaw_idle (s : State) (h : s.kpr.cmd = none) : s.cutRaw = s := by simp only [State.cutRaw, h]

theorem cutRing_idle (s : State) (h : s.kpr.queue = []) : s.cutRing = s := by simp only [State.cutRing, h]

/-- Nothing of the Keeper's or of the test port's is on the way that a reset would cut at a free place. -/
structure Uncut (s : State) : Prop where
  command : s.kpr.cmd = none
  ring : s.kpr.queue = []
  access : ∀ a d, s.tap.access ≠ some (a, some d)

theorem resetNow_uncut {s : State} (h : Uncut s) (cause : Nat) : s.resetNow cause = s.unitReset cause := by
  rw [State.resetNow, tapLands_idle s h.access]

/-! ### The governor's queue after a reset (R60, Table 2.15) -/

/-- What queueing power-ups changes: the governor's queue and SYS_ENGPWR. -/
structure Queued (s t : State) : Prop where
  only : OnlyIn [.sys, .regs] s t
  regs : RegsBut [aEngPwr] s t
  sys : ∃ g, t.sys = { s.sys with gov := g }

theorem Queued.refl (s : State) : Queued s s := ⟨OnlyIn.refl _ s, fun _ _ => rfl, _, rfl⟩

theorem Queued.trans {s t u : State} (h : Queued s t) (h' : Queued t u) : Queued s u := by
  obtain ⟨g, hg⟩ := h.sys
  obtain ⟨g', hg'⟩ := h'.sys
  exact ⟨h.only.trans h'.only, h.regs.trans h'.regs, g', by rw [hg', hg]⟩

theorem setRegFld_engPwr_queued (s : State) (lo n v : Nat) : Queued s (s.setRegFld aEngPwr lo n v) :=
  ⟨(setReg_only s _ _).mono (by simp), setReg_regsBut s _ _, _, rfl⟩

theorem govQueue_queued (s : State) (k : Nat) (powerUp start : Bool) : Queued s (s.govQueue k powerUp start) :=
  ⟨(setSys_only s _).mono (by simp), fun _ _ => rfl, _, rfl⟩

theorem maskUp_queued (s : State) : Queued s s.maskUp := by
  simp only [State.maskUp]
  split
  · exact Queued.refl s
  · refine foldl_keeps (Queued s) _ _ s (Queued.refl s) fun t k h => ?_
    split
    · exact h
    · exact (h.trans (setRegFld_engPwr_queued t _ _ _)).trans (govQueue_queued _ k true false)

/-- Before the NV pages can be read the engine mask is not known (R457). -/
theorem maskUp_unready (s : State) (h : s.kpr.nvReady = false) : s.maskUp = s := by simp [State.maskUp, h]

/-! ### The state that a reset starts with -/

/-- What a unit reset leaves before it marks its cause and the straps: the memories that keep their power, the always-on
registers, the latch slots, the NV pages, pins that are high. -/
def resetBase (s : State) (off : Bool) (por : Option Straps) : State :=
  let straps := por.getD { s.sys.straps with dictsrc := s.pins }
  { mem := s.mem.filter fun c => nvAt c.1 || (keptAt c.1 && !off)
    ecc := { bad := if off then [] else s.ecc.bad.filter fun c => keptAt c.1 }
    regs := if por.isSome then [] else s.regs.filter fun c => aonRegs.contains c.1
    hinge := { slots := if por.isSome then [] else s.hinge.slots }
    pads := (s.pads.filter (·.2.pin)).map fun c => (c.1, ({ pin := true } : Pad))
    sys := { held := s.sys.held, straps := straps, keepAddr := if por.isSome then 0 else s.sys.keepAddr
             keepSel := if por.isSome then straps.profsel.toNat else s.sys.keepSel
             profsel := if por.isSome then straps.profsel.toNat else s.sys.profsel }
    nv := s.nv
    kpr := { nvReady := s.kpr.nvReady && !off }
    tap := s.tap.afterReset por.isSome
    pins := straps.dictsrc, reply := s.reply, free := s.free, pending := s.pending }

/-- A strap that keeps the chain out sets the local schedule and the timebase's own source (Table 2.6, R43). -/
def strapLocal (dictsrc : BitVec 2) (r : State) : State :=
  if dictsrc = 1 then (r.setRegFld (aCh 0) 2 1 1).setRegFld aTbCtl 0 1 1 else r

/-- The cause, CAL_STAT.SETTLED of a pad island that kept its power, and the chain address that the always-on island retains. -/
def resetMarks (s : State) (cause : Nat) (off : Bool) : State :=
  let r := (resetBase s off none).setFlag aRstCause cause
  let r := if off then r else r.setRegFld aCal 31 1 (fld (s.reg aCal) 31 1)
  if s.sys.keepAddr = 0 then r else r.setReg (aCh 8) (word s.sys.keepAddr)

/-- The state after a unit reset that is no power-on reset. -/
def warmStart (s : State) (cause : Nat) (off : Bool) : State := (strapLocal s.pins (resetMarks s cause off)).maskUp

theorem unitReset_warm {s : State} (h : Uncut s) (cause : Nat) (off : Bool) :
    s.unitReset cause off = warmStart s cause (off || s.sys.mode == .dormant) := by
  simp only [State.unitReset, cutRaw_idle s h.command, cutRing_idle s h.ring]
  rfl

theorem strapLocal_only (d : BitVec 2) (r : State) : OnlyIn [.regs] r (strapLocal d r) := by
  simp only [strapLocal]
  split
  · exact (setReg_only r _ _).trans (setReg_only _ _ _)
  · exact OnlyIn.refl _ r

theorem strapLocal_regs (d : BitVec 2) (r : State) : RegsBut [aCh 0, aTbCtl] r (strapLocal d r) := by
  intro a ha
  simp only [List.mem_cons, List.not_mem_nil, or_false, not_or] at ha
  simp only [strapLocal]
  split
  · simp only [State.setRegFld, State.setReg_reg, if_neg ha.1, if_neg ha.2]
  · rfl

theorem unitReset_por {s : State} (h : Uncut s) (cause : Nat) (pins : Straps) :
    s.unitReset cause true (some pins) = strapLocal pins.dictsrc (resetBase s true (some pins)) := by
  have he : s.unitReset cause true (some pins) = (strapLocal pins.dictsrc (resetBase s true (some pins))).maskUp := by
    simp only [State.unitReset, cutRaw_idle s h.command, cutRing_idle s h.ring]
    rfl
  rw [he]
  refine maskUp_unready _ ?_
  rw [strapLocal_only _ _ .kpr (by simp)]
  simp [resetBase]

theorem resetMarks_only (s : State) (cause : Nat) (off : Bool) : OnlyIn [.regs] (resetBase s off none) (resetMarks s cause off) := by
  simp only [resetMarks]
  have h1 := setFlag_only (resetBase s off none) aRstCause cause
  have h2 : OnlyIn [.regs] (resetBase s off none) (if off then (resetBase s off none).setFlag aRstCause cause
      else ((resetBase s off none).setFlag aRstCause cause).setRegFld aCal 31 1 (fld (s.reg aCal) 31 1)) := by
    split
    · exact h1
    · exact h1.trans (setReg_only _ _ _)
  split
  · exact h2
  · exact h2.trans (setReg_only _ _ _)

/-- The always-on registers outlive every reset but a power-on reset; every other register is at its Reset value. -/
theorem resetBase_reg (s : State) (off : Bool) (a : Nat) :
    (resetBase s off none).reg a = if aonRegs.contains a then s.reg a else regReset a := by
  have h : tabFind (resetBase s off none).regs a = _ := tabFind_filterKey s.regs aonRegs.contains a
  simp only [State.reg, h]
  split <;> rfl

/-- What the registers hold once a reset has marked its cause. -/
theorem resetMarks_reg (s : State) (cause : Nat) (off : Bool) (a : Nat) (hcal : a ≠ aCal) (haddr : a ≠ aCh 8) :
    (resetMarks s cause off).reg a = ((resetBase s off none).setFlag aRstCause cause).reg a := by
  simp only [resetMarks, State.setRegFld]
  split <;> split <;> simp only [State.setReg_reg, if_neg hcal, if_neg haddr]

/-- CAL_STAT shows no lap time yet (R273). -/
theorem resetMarks_cal (s : State) (cause : Nat) (off : Bool) : fld ((resetMarks s cause off).reg aCal) 0 16 = 0 := by
  have hbase : ((resetBase s off none).setFlag aRstCause cause).reg aCal = 0 := by
    rw [setFlag_reg, if_neg (by decide), resetBase_reg, if_neg (by decide)]
    decide +kernel
  have hcal : fld ((if off then (resetBase s off none).setFlag aRstCause cause
      else ((resetBase s off none).setFlag aRstCause cause).setRegFld aCal 31 1 (fld (s.reg aCal) 31 1)).reg aCal) 0 16 = 0 := by
    split
    · rw [hbase]; decide
    · rw [State.setRegFld, State.setReg_reg_same, hbase, fld_setFld_other _ _ _ _ _ _ (by decide) (by decide)]
      decide
  simp only [resetMarks]
  split
  · exact hcal
  · rw [State.setReg_reg, if_neg (by decide)]
    exact hcal

/-- CH_ADDR shows the chain address that the always-on island retains (R54, R334). -/
theorem resetMarks_addr (s : State) (cause : Nat) (off : Bool) : (resetMarks s cause off).reg (aCh 8) = word s.sys.keepAddr := by
  simp only [resetMarks]
  split
  · rename_i h
    have hbase : ((resetBase s off none).setFlag aRstCause cause).reg (aCh 8) = 0 := by
      rw [setFlag_reg, if_neg (by decide), resetBase_reg, if_neg (by decide)]
      decide +kernel
    rw [h]
    split
    · exact hbase
    · rw [State.setRegFld, State.setReg_reg, if_neg (by decide)]
      exact hbase
  · exact State.setReg_reg_same ..

/-! ### What a unit reset leaves -/

/-- What every unit reset leaves: mode Recall, no thread, engine, timer, port or channel in use, the NV pages and the memories at
`kept`. -/
def Restarted (kept : Nat → Bool) (s t : State) : Prop :=
  t.sys.mode = .recall ∧ t.sys.noRef = false ∧ t.sys.porLow = false ∧ t.sys.resetReq = false ∧ t.sys.entry = none
    ∧ t.cycle = 200 ∧ t.tb = 0 ∧ t.threads = [] ∧ t.engines = [] ∧ t.timers = [] ∧ t.cvts = [] ∧ t.chans = []
    ∧ t.corrections = [] ∧ t.tum = {} ∧ t.chain = {} ∧ t.scan = {} ∧ t.shk = {} ∧ t.agent = {} ∧ t.lrp = {}
    ∧ t.upd = {} ∧ t.nv = s.nv ∧ t.pending = s.pending
    ∧ ∀ a, readByte t.mem a = if kept a then readByte s.mem a else 0

/-- What a unit reset other than a power-on reset leaves beside that: its cause, the always-on registers, what the always-on island
retains, the latch slots. -/
def WarmRestarted (cause : Nat) (kept : Nat → Bool) (s t : State) : Prop :=
  Restarted kept s t ∧ Flagged aRstCause cause s t ∧ t.reg aWakeCfg = s.reg aWakeCfg ∧ t.reg aWakeTmr = s.reg aWakeTmr
    ∧ t.sys.keepAddr = s.sys.keepAddr ∧ t.sys.keepSel = s.sys.keepSel ∧ t.hinge = { slots := s.hinge.slots }
    ∧ t.sys.straps = { s.sys.straps with dictsrc := s.pins } ∧ t.pins = s.pins ∧ fld (t.reg aCal) 0 16 = 0
    ∧ t.reg (aCh 8) = word s.sys.keepAddr
    ∧ ∀ a, a ∉ aonRegs → a ∉ [aCal, aCh 8, aCh 0, aTbCtl, aEngPwr] → t.reg a = regReset a

/-- A state that differs from what a reset starts with in registers and the governor's queue only. -/
theorem resetBase_restarted {s t : State} {off : Bool} {por : Option Straps} (ho : OnlyIn [.sys, .regs] (resetBase s off por) t)
    (hs : ∃ g, t.sys = { (resetBase s off por).sys with gov := g }) :
    Restarted (fun a => nvAt a || (keptAt a && !off)) s t := by
  obtain ⟨g, hg⟩ := hs
  refine ⟨by rw [hg]; rfl, by rw [hg]; rfl, by rw [hg]; rfl, by rw [hg]; rfl, by rw [hg]; rfl, ho .cycle (by simp),
    ho .tb (by simp), ho .threads (by simp), ho .engines (by simp), ho .timers (by simp), ho .cvts (by simp),
    ho .chans (by simp), ho .corrections (by simp), ho .tum (by simp), ho .chain (by simp), ho .scan (by simp),
    ho .shk (by simp), ho .agent (by simp), ho .lrp (by simp), ho .upd (by simp), ho .nv (by simp), ho .pending (by simp),
    fun a => ?_⟩
  rw [ho .mem (by simp)]
  exact readByte_filter s.mem (fun a => nvAt a || (keptAt a && !off)) a

/-- The memories of islands that stay powered include the NV pages. -/
theorem keptAt_powered : (fun a => nvAt a || (keptAt a && !false)) = keptAt := by
  funext a
  simp only [nvAt, keptAt, Bool.not_false, Bool.and_true]
  cases h : decide (0x80000000 ≤ a) && decide (a < 0x90000000)
  · simp
  · simp only [Bool.and_eq_true, decide_eq_true_eq] at h
    simp; omega

theorem keptAt_unpowered : (fun a => nvAt a || (keptAt a && !true)) = nvAt := by
  funext a
  simp

/-- A unit reset that is no power-on reset. -/
structure WarmReset (cause : Nat) (off : Bool) (s t : State) : Prop where
  restarted : WarmRestarted cause (fun a => nvAt a || (keptAt a && !off)) s t
  held : t.sys.held = s.sys.held
  tap : t.tap = s.tap.cut
  ready : t.kpr.nvReady = (s.kpr.nvReady && !off)
  wake : t.reg aWakeSrc = s.reg aWakeSrc

theorem warmStart_only (s : State) (cause : Nat) (off : Bool) :
    OnlyIn [.sys, .regs] (resetBase s off none) (warmStart s cause off)
      ∧ ∃ g, (warmStart s cause off).sys = { (resetBase s off none).sys with gov := g } := by
  have hr := (resetMarks_only s cause off).trans (strapLocal_only s.pins _)
  have hq := maskUp_queued (strapLocal s.pins (resetMarks s cause off))
  obtain ⟨g, hg⟩ := hq.sys
  exact ⟨(hr.mono (by simp)).trans hq.only, g, by rw [warmStart, hg, hr.sys (by simp)]⟩

theorem warmStart_reg (s : State) (cause : Nat) (off : Bool) {a : Nat} (ha : a ∉ [aCh 0, aTbCtl, aEngPwr]) :
    (warmStart s cause off).reg a = (resetMarks s cause off).reg a := by
  simp only [List.mem_cons, List.not_mem_nil, or_false, not_or] at ha
  obtain ⟨h1, h2, h3⟩ := ha
  exact ((maskUp_queued _).regs a (by simp [h3])).trans (strapLocal_regs _ _ a (by simp [h1, h2]))

theorem warmStart_aon (s : State) (cause : Nat) (off : Bool) {a : Nat} (ha : a ∈ aonRegs) :
    (warmStart s cause off).reg a = (s.setFlag aRstCause cause).reg a := by
  have hne : a ∉ [aCh 0, aTbCtl, aEngPwr] ∧ a ≠ aCal ∧ a ≠ aCh 8 := by
    revert a; decide
  rw [warmStart_reg s cause off hne.1, resetMarks_reg s cause off a hne.2.1 hne.2.2, setFlag_reg, setFlag_reg,
    resetBase_reg, resetBase_reg, if_pos (show aonRegs.contains aRstCause = true by decide),
    if_pos (List.contains_iff_mem.2 ha)]

/-- R54: the registers of the islands that a reset resets. -/
theorem warmStart_fabric (s : State) (cause : Nat) (off : Bool) {a : Nat} (ha : a ∉ aonRegs)
    (hn : a ∉ [aCal, aCh 8, aCh 0, aTbCtl, aEngPwr]) : (warmStart s cause off).reg a = regReset a := by
  simp only [List.mem_cons, List.not_mem_nil, or_false, not_or] at hn
  obtain ⟨h1, h2, h3⟩ := hn
  have hr : a ≠ aRstCause := fun he => ha (he ▸ by decide)
  rw [warmStart_reg s cause off (by simp [h3]), resetMarks_reg s cause off a h1 h2, setFlag_reg, if_neg hr, resetBase_reg,
    if_neg (by simpa using ha)]

theorem warmStart_warmReset (s : State) {cause : Nat} (hc : cause < 32) (off : Bool) :
    WarmReset cause off s (warmStart s cause off) := by
  obtain ⟨ho, g, hg⟩ := warmStart_only s cause off
  have haon (a : Nat) (ha : a ∈ aonRegs) (hne : a ≠ aRstCause) : (warmStart s cause off).reg a = s.reg a := by
    rw [warmStart_aon s cause off ha, setFlag_reg, if_neg hne]
  refine ⟨⟨resetBase_restarted ho ⟨g, hg⟩,
    (setFlag_flagged s aRstCause cause hc).of_reg rfl (warmStart_aon s cause off (by decide)), haon _ (by decide) (by decide),
    haon _ (by decide) (by decide), by rw [hg]; rfl, by rw [hg]; rfl, ho .hinge (by simp), by rw [hg]; rfl, ho .pins (by simp),
    ?_, ?_, fun a => warmStart_fabric s cause off⟩, by rw [hg]; rfl, ho .tap (by simp), by rw [ho .kpr (by simp)]; rfl,
    haon _ (by decide) (by decide)⟩
  · rw [warmStart_reg s cause off (by decide)]
    exact resetMarks_cal s cause off
  · rw [warmStart_reg s cause off (by decide)]
    exact resetMarks_addr s cause off

end Sys2Proof

/-! SUPPORT. O57: what starts each unit reset, and the pads while REFCLK is absent. -/

namespace Sys2Proof

open Machine

/-! ### Reset of a powered unit (R54, R467) -/

theorem unitReset_powered {s : State} (h : Uncut s) (hm : s.sys.mode ≠ .dormant) {cause : Nat} (hc : cause < 32) :
    WarmRestarted cause keptAt s (s.unitReset cause) ∧ (s.unitReset cause).sys.held = s.sys.held
      ∧ (s.unitReset cause).tap = s.tap.cut ∧ (s.unitReset cause).kpr.nvReady = s.kpr.nvReady := by
  have hd : (false || s.sys.mode == .dormant) = false := by simpa using hm
  have hw := warmStart_warmReset s hc false
  rw [unitReset_warm h, hd]
  exact ⟨keptAt_powered ▸ hw.restarted, hw.held, hw.tap, by simpa using hw.ready⟩

/-- R68: the wake from Dormant resets a unit whose islands had lost their power. -/
theorem unitReset_unpowered {s : State} (h : Uncut s) {cause : Nat} (hc : cause < 32) :
    WarmRestarted cause nvAt s (s.unitReset cause true) ∧ (s.unitReset cause true).reg aWakeSrc = s.reg aWakeSrc := by
  have hw := warmStart_warmReset s hc true
  rw [unitReset_warm h]
  exact ⟨keptAt_unpowered ▸ hw.restarted, hw.wake⟩

theorem resetNow_powered {s : State} (h : Uncut s) (hm : s.sys.mode ≠ .dormant) {cause : Nat} (hc : cause < 32) :
    WarmRestarted cause keptAt s (s.resetNow cause) ∧ (s.resetNow cause).sys.held = s.sys.held
      ∧ (s.resetNow cause).tap = s.tap.cut ∧ (s.resetNow cause).kpr.nvReady = s.kpr.nvReady := by
  rw [resetNow_uncut h]
  exact unitReset_powered h hm hc

theorem running_mode {s : State} (h : s.running = true) : s.sys.mode ≠ .doze ∧ s.sys.mode ≠ .dormant := by
  simp only [State.running, Bool.and_eq_true, bne_iff_ne] at h
  exact ⟨h.1.2, h.2⟩

/-! ### Power-on reset (R56, R447) -/

/-- A power-on reset takes the always-on island, too, and samples the straps. -/
theorem powerOnReset_restarts {s : State} (pins : Straps) (t : State)
    (ht : t = strapLocal pins.dictsrc (resetBase s true (some pins))) :
    Restarted nvAt s t ∧ t.reg aRstCause = 1 ∧ t.sys.straps = pins ∧ t.sys.keepAddr = 0
      ∧ t.sys.keepSel = pins.profsel.toNat ∧ t.hinge = {} ∧ t.pins = pins.dictsrc ∧ t.sys.held = s.sys.held
      ∧ t.tap = s.tap.afterReset true ∧ ∀ a, a ∉ [aCh 0, aTbCtl] → t.reg a = regReset a := by
  have ho := strapLocal_only pins.dictsrc (resetBase s true (some pins))
  have hr := strapLocal_regs pins.dictsrc (resetBase s true (some pins))
  rw [← ht] at ho hr
  have hsys := ho.sys (by simp)
  refine ⟨keptAt_unpowered ▸ resetBase_restarted (ho.mono (by simp)) ⟨_, hsys⟩, ?_, by rw [hsys]; rfl, by rw [hsys]; rfl,
    by rw [hsys]; rfl, ho .hinge (by simp), ho .pins (by simp), by rw [hsys]; rfl, ho .tap (by simp), fun a ha => hr a ha⟩
  rw [hr _ (by decide)]
  show regReset aRstCause = 1
  decide +kernel

theorem porst_levels (s : State) : s.porst.running = false ∧ s.porst.ownLvl = 2 ∧ (∀ p, p < 8 → s.porst.trigLvl p = 2)
    ∧ ∀ q, q < 128 → s.porst.shown q = 2 :=
  ⟨by simp [State.porst, State.running], rfl, fun _ _ => rfl, fun _ _ => rfl⟩

/-! ### Force latches (R450) -/

theorem padForce_only (s : State) (p : Nat) : OnlyIn [.pads] s (s.padForce p) := by
  intro q hq; cases q <;> first | rfl | exact absurd (by simp) hq

theorem padForce_force (s : State) (p q : Nat) (h : q = p ∨ (s.pad q).force.isSome = true) :
    ((s.padForce p).pad q).force.isSome = true := by
  by_cases hq : q = p
  · subst hq
    simp [State.padForce, State.setLatches]
  · simpa [State.padForce, State.setLatches, State.updPad_pad, hq] using h

theorem padForces_force (l : List Nat) (s : State) (q : Nat) (h : q ∈ l ∨ (s.pad q).force.isSome = true) :
    ((l.foldl (fun s p => s.padForce p) s).pad q).force.isSome = true := by
  induction l generalizing s with
  | nil => simpa using h
  | cons p l ih =>
    refine ih _ ?_
    rw [List.mem_cons, or_assoc, or_comm, or_assoc] at h
    exact h.imp_right fun h => padForce_force s p q h.symm

/-! ### Wake sources (Table 2.12) -/

theorem wakeRecord_latch (s : State) (i : Fin 32) :
    bit ((s.wakeRecord (.latch i)).reg aWakeSrc) 0 = true ∧ fld ((s.wakeRecord (.latch i)).reg aWakeSrc) 5 5 = i.val
      ∧ RegsBut [aWakeSrc] s (s.wakeRecord (.latch i)) ∧ OnlyIn [.regs] s (s.wakeRecord (.latch i)) := by
  have he : (s.wakeRecord (.latch i)).reg aWakeSrc = setFld (setBit (s.reg aWakeSrc) 0 true) 5 5 i.val := by
    simp only [State.wakeRecord, State.setRegFld, State.setReg_reg_same, setFlag_reg, if_true]
  refine ⟨?_, ?_, fun a ha => ?_, (setFlag_only s _ _).trans (setReg_only _ _ _)⟩
  · rw [he, testBit_setFld _ _ _ _ _ (by decide), if_neg (by decide), bit_setBit _ _ _ _ (by decide) (by decide), if_pos rfl]
  · rw [he, fld_setFld _ _ _ _ (by decide)]
    exact Nat.mod_eq_of_lt i.isLt
  · have hne : a ≠ aWakeSrc := by simpa using ha
    simp only [State.wakeRecord, State.setRegFld, State.setReg_reg, setFlag_reg, if_neg hne]

theorem wakeRecord_timer (s : State) : bit ((s.wakeRecord .timer).reg aWakeSrc) 1 = true
    ∧ OnlyIn [.regs] s (s.wakeRecord .timer) :=
  ⟨(setFlag_flagged s aWakeSrc 1 (by decide)).1, setFlag_only s _ _⟩

/-- A slot whose route names WAKE asks for a wake (R67). -/
theorem exec_wakeEvent_latch (s : State) (i : Fin 32) (h : ∃ l ∈ s.slotTasks i.val, 0x8C0 ∈ l) :
    exec (.wakeEvent (.latch i)) s = .next (s.wake (.latch i)) := by
  obtain ⟨l, hl, hm⟩ := h
  show execWakeEvent (.latch i) s = _
  simp [execWakeEvent, Option.mem_def.1 hl, hm]

/-- A reset of a state that differs from `s` in other registers only. -/
theorem WarmRestarted.of_regs {cause : Nat} {kept : Nat → Bool} {s s1 t : State} (h : WarmRestarted cause kept s1 t)
    (hr : RegsBut [aWakeSrc] s s1) (ho : OnlyIn [.regs] s s1) : WarmRestarted cause kept s t := by
  obtain ⟨hafter, hcause, hcfg, htmr, hkeep, hsel, hhinge, hstraps, hpins, hcal, haddr, hregs⟩ := h
  have hmem : s1.mem = s.mem := ho.mem (by simp)
  have hsys : s1.sys = s.sys := ho.sys (by simp)
  have hp : s1.pins = s.pins := ho .pins (by simp)
  rw [hsys] at hkeep hsel hstraps haddr
  rw [hp] at hstraps hpins
  rw [ho.hinge (by simp)] at hhinge
  refine ⟨?_, hcause.of_reg (hr _ (by decide)).symm rfl, hcfg.trans (hr _ (by decide)), htmr.trans (hr _ (by decide)), hkeep,
    hsel, hhinge, hstraps, hpins, hcal, haddr, hregs⟩
  simpa only [Restarted, hmem, show s1.nv = s.nv from ho .nv (by simp), show s1.pending = s.pending from ho .pending (by simp)]
    using hafter

/-! ### SYS_RST (R54, Table 2.7) -/

/-- A write of SYS_RST that lands holds nothing; one with the key asks for a reset. -/
theorem regWrite_sysRst {id : Id} {v : Word} {s : State} (h : Lands id 0x500F010C v s) :
    s.regWrite id.toNat 0x500F010C v = if fld v 16 16 = 0xC1A5 ∧ bit v 0 = true then
      { s.noteWrites id.toNat [0x500F010C] with sys := { s.sys with resetReq := true } }
    else s.noteWrites id.toNat [0x500F010C] := by
  have hrow : regRow 0x500F010C = none := by decide +kernel
  rw [regWrite_own s _ _ v h.free (by decide) h.still h.first]
  have hw (u : State) : u.writeActs id.toNat 0x500F010C v =
      if fld v 16 16 = 0xC1A5 && bit v 0 then { u with sys := { u.sys with resetReq := true } } else u := by
    simp only [State.writeActs, State.fieldWrite, hrow]
    rfl
  rw [hw]
  by_cases hk : fld v 16 16 = 0xC1A5 ∧ bit v 0 = true
  · rw [if_pos hk, if_pos (by simp [hk.1, hk.2])]
    rfl
  · rw [if_neg hk, if_neg (by simpa using hk)]

theorem softReset_keyed {id : Id} {v : Word} {s : State} (hu : Uncut s) (h : Lands id 0x500F010C v s)
    (hk : fld v 16 16 = 0xC1A5) (hb : bit v 0 = true) : After (.softReset id v) s (WarmRestarted 3 keptAt s) := by
  refine ⟨_, writeCmd_lands id _ v s h, ?_⟩
  rw [regWrite_sysRst h, if_pos ⟨hk, hb⟩, State.settle, if_pos rfl]
  exact (resetNow_powered (s := { s.noteWrites id.toNat [0x500F010C] with sys := { s.sys with resetReq := true } })
    ⟨hu.command, hu.ring, hu.access⟩ (running_mode h.runs).2 (by decide)).1

theorem softReset_unkeyed {id : Id} {v : Word} {s : State} (h : Lands id 0x500F010C v s)
    (hk : fld v 16 16 ≠ 0xC1A5 ∨ bit v 0 = false) :
    After (.softReset id v) s fun s' => RegsBut [] s s' ∧ OnlyIn [.regs] s s' := by
  refine ⟨_, writeCmd_lands id _ v s h, ?_⟩
  have hn : ¬ (fld v 16 16 = 0xC1A5 ∧ bit v 0 = true) := fun ⟨h1, h2⟩ => hk.elim (· h1) fun h => by simp [h2] at h
  rw [regWrite_sysRst h, if_neg hn, settle_of_sys (t := s.noteWrites id.toNat [0x500F010C]) h.settled rfl]
  exact ⟨fun _ _ => rfl, (noteWrites_only s _ _).mono (by simp)⟩

/-! ### DBGRST (R463) -/

theorem dbgrst_resets {s : State} (hu : Uncut s) (hd : s.tap.dbgen = true) (hr : s.running = true) :
    After (.dbgrst 0xC1A5) s (WarmRestarted 4 keptAt s) := by
  have hsel : ({ s.tap with ir := TapReg.dbgrst.code } : Tap).selected = .dbgrst := by
    simp only [Tap.selected, hd, Bool.not_true, Bool.false_eq_true, if_false]
    rfl
  have hrun : State.running { s with tap := { s.tap with ir := TapReg.dbgrst.code } } = true := hr
  refine ⟨_, rfl, ?_⟩
  rw [State.tapScan, if_pos hsel, if_pos (by rw [hrun]; rfl)]
  exact (resetNow_powered (s := { s with tap := { s.tap with ir := TapReg.dbgrst.code } })
    ⟨hu.command, hu.ring, hu.access⟩ (running_mode hr).2 (by decide)).1

/-! ### The reset of a wake from Dormant (R68) -/

theorem wake_dormant {s : State} (hu : Uncut s) (hm : s.sys.mode = .dormant) (hh : s.sys.held = false) (hn : s.sys.noRef = false)
    (hc : bit (s.reg aWakeCfg) 0 = true) (slot : Fin 32) :
    WarmRestarted 5 nvAt s (s.wake (.latch slot)) ∧ bit ((s.wake (.latch slot)).reg aWakeSrc) 0 = true
      ∧ fld ((s.wake (.latch slot)).reg aWakeSrc) 5 5 = slot.val := by
  obtain ⟨hbit, hfld, hregs, honly⟩ := wakeRecord_latch s slot
  have he : s.wake (.latch slot) = (s.wakeRecord (.latch slot)).unitReset 5 true := by
    simp [State.wake, State.wakeOn, hc, hm, hh, hn]
  have hu' : Uncut (s.wakeRecord (.latch slot)) := ⟨hu.command, hu.ring, hu.access⟩
  obtain ⟨hw, hsrc⟩ := unitReset_unpowered hu' (cause := 5) (by decide)
  rw [he, hsrc]
  exact ⟨hw.of_regs hregs honly, hbit, hfld⟩

/-! ### The resets by their causes -/

/-- DICT_RESET waits for the responses and for the always-on write of a reload (R375, R382). -/
theorem resetDue_over (l : List DrWait) : l.any DrWait.over = true ↔ ∃ w ∈ l, w.left = 0 ∧ w.aon = 0 := by
  simp [List.any_eq_true, DrWait.over]

theorem execDictReset_due {s : State} (hr : s.running = true) : execDictReset s =
    .next (if ∃ w ∈ s.agent.resetDue, w.left = 0 ∧ w.aon = 0 then s.resetNow 2 else s) := by
  simp only [execDictReset, hr, Bool.true_and, resetDue_over]

/-- Every force latch as a loss of REFCLK sets it (R450). -/
def padsForced (s : State) : State := (upTo 128).foldl (fun s p => s.padForce p) s

theorem padsForced_forces (s : State) :
    OnlyIn [.pads] s (padsForced s) ∧ ∀ q, q < 128 → ((padsForced s).pad q).force.isSome = true :=
  ⟨OnlyIn.foldl _ _ s padForce_only, fun q hq => padForces_force (upTo 128) s q (.inl (by simpa [upTo] using hq))⟩

/-- The islands without REFCLK (R450). -/
def withoutRef (s : State) : State := { s with sys := { s.sys with noRef := true } }

theorem withoutRef_running (s : State) : (withoutRef s).running = false := by simp [withoutRef, State.running]

theorem withoutRef_pad (s : State) (q : Nat) : (withoutRef s).pad q = s.pad q := rfl

theorem exec_refclkLoss (s : State) : exec .refclkLoss s = .next (withoutRef (padsForced s)) := by
  show execRefclkLoss s = _
  simp only [execRefclkLoss, padsForced, withoutRef]

/-- R450: every force latch is set while REFCLK is absent. -/
theorem refclkLoss_forces (s : State) : After .refclkLoss s fun s' =>
    s'.sys.noRef = true ∧ s'.running = false ∧ (∀ q, q < 128 → (s'.pad q).force.isSome = true) ∧ OnlyIn [.sys, .pads] s s' := by
  obtain ⟨honly, hforce⟩ := padsForced_forces s
  refine ⟨_, exec_refclkLoss s, rfl, withoutRef_running _, fun q hq => ?_,
    (honly.mono (by simp)).trans ((setSys_only _ _).mono (by simp))⟩
  rw [withoutRef_pad]
  exact hforce q hq

/-- Settles O57, by the event that starts the reset: each is the same reset of an uncut state, which keeps what stays powered
(`warmStart_warmReset`), or a power-on reset (`powerOnReset_restarts`). -/
theorem unitResets : Obligations.UnitResets := by
  unfold Obligations.UnitResets
  intro id v pins slot s nv powered after warm cut hcmd hring haccess _
  have hu : Uncut s := ⟨hcmd, hring, haccess⟩
  refine ⟨?power, porst_levels s, fun hm hn => ?pin, fun hn => ?pinAbsent, fun hm hn => ?refclk, softReset_keyed hu,
    softReset_unkeyed, fun hr => ⟨fun hd => ?dict, fun hd => ?dictIdle⟩, dbgrst_resets hu,
    fun hm hh hn hc hs => ⟨_, exec_wakeEvent_latch s slot hs, wake_dormant hu hm hh hn hc slot⟩, ?assert, refclkLoss_forces s⟩
  case power =>
    have hu' : Uncut s.porst := ⟨hcmd, hring, haccess⟩
    have he : exec (.powerOnReset pins) s = .next (s.tapLands.porst.unitReset 0 true (some pins)) := rfl
    rw [tapLands_idle s haccess] at he
    exact ⟨_, he, powerOnReset_restarts pins _ (unitReset_por hu' 0 pins)⟩
  case pin =>
    obtain ⟨hw, hheld, htap, hready⟩ := resetNow_powered (s := { s with sys := { s.sys with held := false } })
      ⟨hcmd, hring, haccess⟩ hm (cause := 1) (by decide)
    refine ⟨_, congrArg Host.Outcome.next (if_neg (by simp [hn])), hw, hheld, htap, hready⟩
  case pinAbsent =>
    exact ⟨_, congrArg Host.Outcome.next (if_pos hn), rfl, (setSys_only s _)⟩
  case refclk =>
    obtain ⟨hw, hheld, htap, -⟩ := resetNow_powered hu hm (cause := 1) (by decide)
    exact ⟨_, congrArg Host.Outcome.next (if_pos hn), hw, hheld, htap⟩
  case dict =>
    exact ⟨_, (execDictReset_due hr).trans (congrArg _ (if_pos hd)),
      (resetNow_powered hu (running_mode hr).2 (by decide)).1⟩
  case dictIdle =>
    have hd' : ¬ ∃ w ∈ s.agent.resetDue, w.left = 0 ∧ w.aon = 0 := fun ⟨w, hw, h1, h2⟩ => by
      rcases hd w hw with h | h <;> contradiction
    exact ⟨_, (execDictReset_due hr).trans (congrArg _ (if_neg hd')), rfl⟩
  case assert =>
    exact ⟨_, rfl, rfl, by simp [State.running], setSys_only s _⟩

end Sys2Proof

/-! SUPPORT. Changes of mode: the transition that every mode request and cause goes through (R50, R53), and the gates that
follow it (R277, R279). -/

namespace Sys2Proof

open Machine

/-! ### Raises (R211) -/

/-- A raise of a channel that is not stopped is among the raises of its cycle, fresh or merged. -/
theorem raise_present (s : State) (ch : Nat) (hr : s.running = true) (hl : bit (s.reg (aHfCh ch)) 31 = false) :
    ∃ q ∈ (s.raise ch).hinge.raised, q.ch = ch ∧ q.cyc = s.cycle := by
  simp only [State.raise, State.raiseIn, hr, hl, Bool.not_true, Bool.false_eq_true, if_false]
  split
  · exact ⟨_, List.mem_append_right _ (List.mem_singleton_self _), rfl, rfl⟩
  · rename_i r hf
    have hm : r ∈ s.hinge.raised := List.mem_of_find?_eq_some hf
    have hp : r.cyc = s.cycle ∧ r.ch = ch := by simpa using List.find?_some hf
    have hj : ∃ q ∈ s.hinge.raised.map fun x : Raise =>
        if x.cyc == s.cycle && x.ch == ch then { x with merged := true, route := x.route || false } else x,
        q.ch = ch ∧ q.cyc = s.cycle :=
      ⟨_, List.mem_map_of_mem hm, by simp [hp]⟩
    split <;> exact hj

/-- A raise takes no other raise away. -/
theorem raise_keeps (s : State) (ch : Nat) {q : Raise} (h : q ∈ s.hinge.raised) :
    ∃ q' ∈ (s.raise ch).hinge.raised, q'.ch = q.ch ∧ q'.cyc = q.cyc := by
  simp only [State.raise, State.raiseIn]
  split
  · exact ⟨q, h, rfl, rfl⟩
  · split
    · exact ⟨q, h, rfl, rfl⟩
    · split
      · exact ⟨q, List.mem_append_left _ h, rfl, rfl⟩
      · have hj : ∃ q' ∈ s.hinge.raised.map fun x : Raise =>
            if x.cyc == s.cycle && x.ch == ch then { x with merged := true, route := x.route || false } else x,
            q'.ch = q.ch ∧ q'.cyc = q.cyc := by
          refine ⟨_, List.mem_map_of_mem h, ?_⟩
          split <;> exact ⟨rfl, rfl⟩
        split <;> exact hj

/-! ### The transition (R53) -/

/-- SYS_MODE shows the mode before and the change; a unit that leaves Run withdraws SHK_CTL.SWREQ. -/
def modeMarked (s : State) : State :=
  let s1 := (s.setRegFld aMode 4 3 s.sys.mode.code).setFlag aMode 8
  if s1.sys.mode == .run then s1.clearFlag 0x500F7000 1 else s1

/-- The mode takes effect. -/
def modeEntered (m : Mode) (s : State) : State :=
  { s with sys := { s.sys with mode := m, entry := none }
           shk := { s.shk with began := if m == .run || m == .tracking then s.shk.began else none } }

/-- The mode-change event, in whichever of the two modes the fabric runs. -/
def modeRaised (m : Mode) (s : State) : State :=
  if (modeEntered m s).running then (modeEntered m s).raise 656 else modeEntered m (s.raise 656)

theorem setMode_eq (s : State) (m : Mode) : s.setMode m =
    if m = .safe then (modeRaised m (modeMarked (s.lapMode m))).raise 657 else modeRaised m (modeMarked (s.lapMode m)) := rfl

theorem setEcc_only (s : State) (e : Ecc) : OnlyIn [.ecc] s { s with ecc := e } := by
  intro p hp; cases p <;> first | rfl | exact absurd (by simp) hp

theorem lapGo_only (s : State) (ms : List Nat) : OnlyIn [.ecc] s (s.lapGo ms) := setEcc_only s _

theorem lapHold_only (s : State) (ms : List Nat) : OnlyIn [.ecc] s (s.lapHold ms) := setEcc_only s _

theorem lapMode_only (s : State) (m : Mode) : OnlyIn [.ecc] s (s.lapMode m) := by
  simp only [State.lapMode]
  split
  · exact OnlyIn.refl _ s
  · split
    · exact lapGo_only s _
    · exact lapHold_only s _

theorem lapMode_executes (s : State) (m : Mode) (h : s.sys.mode.executes = m.executes) : s.lapMode m = s := by
  simp [State.lapMode, h]

theorem modeMarked_only (s : State) : OnlyIn [.regs] s (modeMarked s) := by
  have h := (setReg_only s aMode (setFld (s.reg aMode) 4 3 s.sys.mode.code)).trans (setFlag_only _ aMode 8)
  simp only [modeMarked]
  split
  · exact h.trans (clearFlag_only _ _ _)
  · exact h

theorem modeMarked_reg (s : State) (a : Nat) (h : a ≠ 0x500F7000) : (modeMarked s).reg a =
    if a = aMode then setBit (setFld (s.reg aMode) 4 3 s.sys.mode.code) 8 true else s.reg a := by
  have hs : ((s.setRegFld aMode 4 3 s.sys.mode.code).setFlag aMode 8).reg a =
      if a = aMode then setBit (setFld (s.reg aMode) 4 3 s.sys.mode.code) 8 true else s.reg a := by
    rw [setFlag_reg, State.setRegFld, State.setReg_reg_same, State.setReg_reg]
    split <;> rfl
  simp only [modeMarked]
  split
  · rw [clearFlag_reg, if_neg (fun hc => h hc.1), hs]
  · exact hs

theorem modeEntered_only (m : Mode) (s : State) : OnlyIn [.sys, .shk] s (modeEntered m s) := by
  intro p hp; cases p <;> first | rfl | exact absurd (by simp) hp

theorem modeRaised_only (m : Mode) (s : State) : OnlyIn [.sys, .shk, .regs, .hinge] s (modeRaised m s) := by
  simp only [modeRaised]
  split
  · exact ((modeEntered_only m s).mono (by simp)).trans ((raise_only _ _).mono (by simp))
  · exact ((raise_only s _).mono (by simp)).trans ((modeEntered_only m _).mono (by simp))

theorem modeRaised_sys (m : Mode) (s : State) : (modeRaised m s).sys = { s.sys with mode := m, entry := none } := by
  simp only [modeRaised]
  split
  · exact (raise_only (modeEntered m s) 656).sys (by simp)
  · show ({ (s.raise 656).sys with mode := m, entry := none } : Sys) = _
    rw [(raise_only s 656).sys (by simp)]

theorem modeRaised_reg (m : Mode) (s : State) (a : Nat) (h1 : a ≠ aHfCnt) (h2 : a ≠ aHfCh 656) :
    (modeRaised m s).reg a = s.reg a := by
  simp only [modeRaised]
  split
  · exact raise_reg (modeEntered m s) 656 a h1 h2
  · exact raise_reg s 656 a h1 h2

/-- What every transition does (R50, R53). -/
structure Transition (m : Mode) (s t : State) : Prop where
  only : OnlyIn [.regs, .sys, .hinge, .shk, .ecc] s t
  sys : t.sys = { s.sys with mode := m, entry := none }
  prev : fld (t.reg aMode) 4 3 = s.sys.mode.code
  changed : bit (t.reg aMode) 8 = true
  rejected : bit (t.reg aMode) 9 = bit (s.reg aMode) 9
  regs : RegsBut [aMode, 0x500F7000, aHfCnt, aHfCh 656, aHfCh 657] s t
  ecc : s.sys.mode.executes = m.executes → t.ecc = s.ecc

theorem mode_code_lt (m : Mode) : m.code < 2 ^ 3 := by cases m <;> decide

theorem setMode_reg (s : State) (m : Mode) (a : Nat) (h1 : a ≠ aHfCnt) (h2 : a ≠ aHfCh 656) (h3 : a ≠ aHfCh 657) :
    (s.setMode m).reg a = (modeMarked (s.lapMode m)).reg a := by
  rw [setMode_eq]
  split
  · rw [raise_reg _ _ _ h1 h3, modeRaised_reg m _ a h1 h2]
  · exact modeRaised_reg m _ a h1 h2

theorem setMode_transition (s : State) (m : Mode) : Transition m s (s.setMode m) := by
  have hlap := lapMode_only s m
  have hmark := modeMarked_only (s.lapMode m)
  have hraise := modeRaised_only m (modeMarked (s.lapMode m))
  have hrest : OnlyIn [.sys, .shk, .regs, .hinge] (s.lapMode m) (s.setMode m) := by
    rw [setMode_eq]
    split
    · exact ((hmark.mono (by simp)).trans hraise).trans ((raise_only _ _).mono (by simp))
    · exact (hmark.mono (by simp)).trans hraise
  have hsys : (s.setMode m).sys = { s.sys with mode := m, entry := none } := by
    rw [← hlap.sys (by simp), ← hmark.sys (by simp), ← modeRaised_sys, setMode_eq]
    split
    · exact (raise_only _ _).sys (by simp)
    · rfl
  have hmode : (s.setMode m).reg aMode = setBit (setFld (s.reg aMode) 4 3 s.sys.mode.code) 8 true := by
    rw [setMode_reg s m aMode (by decide) (by decide) (by decide), modeMarked_reg _ _ (by decide), if_pos rfl,
      State.reg_of_regs s _ (hlap.regs (by simp)), hlap.sys (by simp)]
  refine ⟨(hlap.mono (by simp)).trans (hrest.mono (by simp)), hsys, ?_, ?_, ?_, fun a ha => ?_, fun he => ?_⟩
  · rw [hmode, setBit, fld_setFld_other _ _ _ _ _ _ (by decide) (by decide), fld_setFld _ _ _ _ (by decide)]
    exact Nat.mod_eq_of_lt (mode_code_lt _)
  · rw [hmode, bit_setBit _ _ _ _ (by decide) (by decide), if_pos rfl]
  · rw [hmode, bit_setBit _ _ _ _ (by decide) (by decide), if_neg (by decide), testBit_setFld _ _ _ _ _ (by decide),
      if_neg (by decide)]
  · simp only [List.mem_cons, List.not_mem_nil, or_false, not_or] at ha
    obtain ⟨hne, hswreq, hcnt, h656, h657⟩ := ha
    rw [setMode_reg s m a hcnt h656 h657, modeMarked_reg _ a hswreq, if_neg hne]
    exact State.reg_of_regs s _ (hlap.regs (by simp)) a
  · rw [hrest .ecc (by simp), lapMode_executes s m he]

/-- The mode-change event of a transition between modes in which the fabric runs. -/
theorem setMode_raises (s : State) (m : Mode) (hr : s.running = true) (hm : m ≠ .doze ∧ m ≠ .dormant)
    (hl : bit (s.reg (aHfCh 656)) 31 = false) :
    ∃ q ∈ (s.setMode m).hinge.raised, q.ch = 656 ∧ q.cyc = s.cycle := by
  have hlap := lapMode_only s m
  have hmark := modeMarked_only (s.lapMode m)
  have hrun : (modeEntered m (modeMarked (s.lapMode m))).running = true := by
    have hsys : (modeMarked (s.lapMode m)).sys = s.sys := (hmark.sys (by simp)).trans (hlap.sys (by simp))
    simp only [State.running, Bool.and_eq_true, bne_iff_ne] at hr ⊢
    simp only [modeEntered, hsys]
    exact ⟨⟨hr.1.1, hm.1⟩, hm.2⟩
  have hreg : bit ((modeEntered m (modeMarked (s.lapMode m))).reg (aHfCh 656)) 31 = false := by
    have h : (modeEntered m (modeMarked (s.lapMode m))).reg (aHfCh 656) = s.reg (aHfCh 656) := by
      refine Eq.trans (modeMarked_reg (s.lapMode m) (aHfCh 656) (by decide)) ?_
      rw [if_neg (by decide)]
      exact State.reg_of_regs s _ (hlap.regs (by simp)) _
    rw [h]
    exact hl
  obtain ⟨q, hq, hch, hcyc⟩ := raise_present _ 656 hrun hreg
  have hq' : q ∈ (modeRaised m (modeMarked (s.lapMode m))).hinge.raised := by
    rw [modeRaised, if_pos hrun]
    exact hq
  have hc : q.cyc = s.cycle := by
    rw [hcyc, (modeEntered_only m _) .cycle (by simp), hmark .cycle (by simp), hlap .cycle (by simp)]
  rw [setMode_eq]
  split
  · obtain ⟨q2, hq2, hch2, hcyc2⟩ := raise_keeps _ 657 hq'
    exact ⟨q2, hq2, hch2.trans hch, hcyc2.trans hc⟩
  · exact ⟨q, hq', hch, hc⟩

theorem setMode_entered (s : State) (m : Mode) (hr : s.running = true) (hm : m ≠ .doze ∧ m ≠ .dormant)
    (hl : bit (s.reg (aHfCh 656)) 31 = false) : Entered m s (s.setMode m) where
  mode := by rw [(setMode_transition s m).sys]
  prev := (setMode_transition s m).prev
  changed := (setMode_transition s m).changed
  event := setMode_raises s m hr hm hl

/-! ### Gates (R277, R279) -/

theorem updPad_only (s : State) (p : Nat) (f : Pad → Pad) : OnlyIn [.pads] s (s.updPad p f) := by
  intro q hq; cases q <;> first | rfl | exact absurd (by simp) hq

theorem gateOn_only (s : State) : OnlyIn [.sys, .pads] s s.gateOn := by
  simp only [State.gateOn]
  split
  · exact OnlyIn.refl _ s
  · refine OnlyIn.trans ((OnlyIn.foldl (ps := [.pads]) _ _ s fun t p => ?_).mono (by simp)) ((setSys_only _ _).mono (by simp))
    split
    · exact OnlyIn.refl _ t
    · exact updPad_only t p _

theorem gateOn_sys (s : State) : ∃ b, s.gateOn.sys = { s.sys with gate := true, gatePend := b } := by
  simp only [State.gateOn]
  split
  · rename_i h
    exact ⟨s.sys.gatePend, by rw [← h]⟩
  · refine ⟨false, ?_⟩
    have ho := OnlyIn.foldl (ps := [.pads]) (fun s' p =>
      if s.shownOut p = (s.pad p).gateLvl then s' else s'.updPad p ({ · with gateLvl := s.shownOut p })) (upTo 128) s fun t p => by
        split
        · exact OnlyIn.refl _ t
        · exact updPad_only t p _
    exact congrArg (fun x : Sys => { x with gate := true, gatePend := false }) (ho.sys (by simp))

theorem shkGateOn_only (s : State) : OnlyIn [.pads] s s.shkGateOn := by
  refine OnlyIn.foldl _ _ s fun t p => ?_
  split
  · exact updPad_only t p _
  · exact OnlyIn.refl _ t

end Sys2Proof

/-! SUPPORT. O56: what a mode request does that the unit grants at once, refuses or clamps (R50 to R53, Table 2.13). -/

namespace Sys2Proof

open Machine

/-! ### Table 2.13 -/

/-- The unit can enter Run: chain time is set or the strap keeps the chain out, no cause of Safe is held, the partner does not own. -/
def RunReady (s : State) : Prop :=
  ((bit (s.reg aTbStat) 31 = true ∧ s.untilUp = 0) ∨ s.sys.straps.dictsrc = 1) ∧ s.reg aSafeCause = 0
    ∧ ¬ (s.paired = true ∧ bit (s.reg (aShk 0x18)) 28 = true)

/-- A request for mode `m` moves the unit between modes in which it stays powered, Safe aside. -/
def Moves (s : State) (m : Mode) : Prop :=
  (s.sys.mode = .preparation ∧ m = .run ∧ RunReady s) ∨ (s.sys.mode = .preparation ∧ m = .tracking ∧ s.paired = true)
    ∨ ((s.sys.mode = .run ∨ s.sys.mode = .tracking) ∧ m = .preparation)
    ∨ (s.sys.mode = .safe ∧ m = .preparation ∧ s.reg aSafeCause = 0)

/-- A request for mode `m` takes the unit to Safe. -/
def Halts (s : State) (m : Mode) : Prop :=
  (s.sys.mode = .unaddressed ∨ s.sys.mode = .preparation ∨ s.sys.mode = .run ∨ s.sys.mode = .tracking) ∧ m = .safe

/-- A request for mode `m` starts an entry to Doze or Dormant. -/
def Sleeps (s : State) (m : Mode) : Prop :=
  (s.sys.mode = .preparation ∧ m = .doze)
    ∨ ((s.sys.mode = .unaddressed ∨ s.sys.mode = .preparation ∨ s.sys.mode = .safe) ∧ m = .dormant)

/-- The requests that a write of SYS_MODEREQ is granted are those of Table 2.13. -/
theorem allows_iff (s : State) (m : Mode) : s.allows m false = true ↔ Moves s m ∨ Halts s m ∨ Sleeps s m := by
  cases hm : s.sys.mode <;> cases m <;> simp [State.allows, Moves, Halts, Sleeps, RunReady, hm, and_assoc, imp_iff_not_or]

/-! ### The decision on a request (R42, R50, R52) -/

/-- The state with another record of what its cycle has seen. -/
def withSame (s : State) (x : Same) : State := { s with same := x }

theorem withSame_only (s : State) (x : Same) : OnlyIn [] s (withSame s x) := fun p _ => by cases p <;> rfl

/-- What a granted request for mode `m` does, with no wait for a response. -/
def modeChange (m : Mode) (s : State) : State :=
  match m with
  | .safe => s.enterSafe 0
  | .doze | .dormant => s.startEntry m
  | .preparation =>
    let fromRun := s.sys.mode == .run || s.sys.mode == .tracking
    let s := s.setMode m
    { s with sys := { s.sys with gatePend := fromRun && !s.sys.gate } }
  | .tracking => (s.setMode m).disown
  | _ => s.setMode m

/-- The request for mode `m` is noted in its cycle, with what a later decision of the cycle would take back (R52). -/
def asking (s : State) (id : Nat) (m : Mode) : State :=
  let raised := s.hinge.raised.any fun r => r.cyc == s.cycle && r.ch == 656
  s.note ({ · with req := some ⟨s.sys.mode, m, id, fld (s.reg aMode) 4 3, bit (s.reg aMode) 8, bit (s.reg aSafeCause) 0,
    bit (s.reg 0x500F7000) 1, s.shk, s.reg (aShk 0x1C), raised⟩ })

/-- A request that does not wait for a response is decided as the state with its note stands. -/
theorem takeMode_eq (s : State) (id : Nat) (m : Mode) (port : Bool) : s.takeMode id m port none =
    if m = (asking s id m).sys.mode then (asking s id m, true)
    else if !(asking s id m).allows m port then ((asking s id m).note ({ · with req := none }), false)
    else (modeChange m (asking s id m), true) := by
  unfold State.takeMode
  refine if_congr Iff.rfl rfl (if_congr Iff.rfl rfl (congrArg (·, true) ?_))
  cases m
  case doze => exact if_neg Bool.false_ne_true
  case dormant => exact if_neg Bool.false_ne_true
  all_goals rfl

theorem asking_mode (s : State) (id : Nat) (m : Mode) : (asking s id m).sys.mode = s.sys.mode := rfl

theorem asking_allows (s : State) (id : Nat) (m : Mode) (port : Bool) :
    (asking s id m).allows m port = s.allows m port := rfl

theorem takeMode_same (s : State) (id : Nat) (port : Bool) :
    ∃ x, s.takeMode id s.sys.mode port none = (withSame s x, true) :=
  ⟨(asking s id s.sys.mode).same, by rw [takeMode_eq, asking_mode, if_pos rfl]; rfl⟩

theorem takeMode_refused (s : State) (id : Nat) {m : Mode} (port : Bool) (hne : m ≠ s.sys.mode) (h : s.allows m port = false) :
    ∃ x, s.takeMode id m port none = (withSame s x, false) :=
  ⟨((asking s id m).note ({ · with req := none })).same, by
    rw [takeMode_eq, asking_mode, if_neg hne, asking_allows, h, if_pos (by decide)]
    rfl⟩

theorem takeMode_granted (s : State) (id : Nat) {m : Mode} (port : Bool) (hne : m ≠ s.sys.mode) (h : s.allows m port = true) :
    ∃ x, s.takeMode id m port none = (modeChange m (withSame s x), true) :=
  ⟨(asking s id m).same, by
    rw [takeMode_eq, asking_mode, if_neg hne, asking_allows, h, if_neg (by decide)]
    rfl⟩

/-- No cause of Safe and no earlier mode request stand in a cycle that has seen nothing. -/
theorem requestMode_first {s : State} (h : Fresh s) (id id' : Nat) (as : List Nat) (m : Mode) (port : Bool) (wait : Option Nat) :
    (s.noteWrites id' as).requestMode id m port wait = (s.noteWrites id' as).takeMode id m port wait := by
  have hn := noteWrites_sameNow s id' as
  rw [h] at hn
  simp only [State.requestMode, hn, Bool.false_eq_true, if_false]

/-- A write of SYS_MODEREQ that lands holds nothing; it asks for its mode. -/
theorem regWrite_modeReq {id : Id} {v : Word} {s : State} (h : Lands id 0x500F0104 v s) :
    s.regWrite id.toNat 0x500F0104 v = (s.noteWrites id.toNat [0x500F0104]).modeReq id.toNat v := by
  have hrow : regRow 0x500F0104 = none := by decide +kernel
  rw [regWrite_own s _ _ v h.free (by decide) h.still h.first]
  have hw (u : State) (id : Nat) : u.writeActs id 0x500F0104 v = u.modeReq id v := by
    simp only [State.writeActs, State.fieldWrite, hrow]
    rfl
  exact hw _ _

section
variable {id : Id} {v : Word} {s : State}

theorem exec_modeRequest (h : Lands id 0x500F0104 v s) :
    exec (.modeRequest id v) s = .next ((s.noteWrites id.toNat [0x500F0104]).modeReq id.toNat v).settle :=
  (writeCmd_lands id _ v s h).trans (by rw [regWrite_modeReq h])

theorem modeReq_named (h : Lands id 0x500F0104 v s) (hc : 2 ≤ fld v 0 3) {t : State} {ok : Bool}
    (ht : (s.noteWrites id.toNat [0x500F0104]).takeMode id.toNat (modeOf (fld v 0 3)) false none = (t, ok)) :
    (s.noteWrites id.toNat [0x500F0104]).modeReq id.toNat v = if ok then t else t.setFlag aMode 9 := by
  simp only [State.modeReq, if_neg (Nat.not_lt.2 hc), requestMode_first h.first, ht]

/-- A request for the mode that the unit is in changes nothing. -/
theorem exec_modeRequest_same (h : Lands id 0x500F0104 v s) (hc : 2 ≤ fld v 0 3) (hm : modeOf (fld v 0 3) = s.sys.mode) :
    ∃ x, exec (.modeRequest id v) s = .next (withSame s x) := by
  obtain ⟨x, hx⟩ := takeMode_same (s.noteWrites id.toNat [0x500F0104]) id.toNat false
  refine ⟨x, ?_⟩
  rw [exec_modeRequest h, modeReq_named h hc (hm ▸ hx), if_pos rfl]
  exact congrArg _ (settle_of_sys h.settled rfl)

/-- A request that Table 2.13 does not grant leaves SYS_MODE.REJ. -/
theorem exec_modeRequest_refused (h : Lands id 0x500F0104 v s) (hc : 2 ≤ fld v 0 3) (hm : modeOf (fld v 0 3) ≠ s.sys.mode)
    (ha : s.allows (modeOf (fld v 0 3)) false = false) :
    ∃ x, exec (.modeRequest id v) s = .next ((withSame s x).setFlag aMode 9) := by
  obtain ⟨x, hx⟩ := takeMode_refused (s.noteWrites id.toNat [0x500F0104]) id.toNat false hm ha
  refine ⟨x, ?_⟩
  rw [exec_modeRequest h, modeReq_named h hc hx, if_neg Bool.false_ne_true]
  exact congrArg _ (settle_of_sys h.settled rfl)

/-- A request that Table 2.13 grants. -/
theorem exec_modeRequest_granted (h : Lands id 0x500F0104 v s) (hc : 2 ≤ fld v 0 3) (hm : modeOf (fld v 0 3) ≠ s.sys.mode)
    (ha : s.allows (modeOf (fld v 0 3)) false = true) :
    ∃ x, exec (.modeRequest id v) s = .next (modeChange (modeOf (fld v 0 3)) (withSame s x)).settle := by
  obtain ⟨x, hx⟩ := takeMode_granted (s.noteWrites id.toNat [0x500F0104]) id.toNat false hm ha
  refine ⟨x, ?_⟩
  rw [exec_modeRequest h, modeReq_named h hc hx, if_pos rfl]
  rfl

/-- The codes 0 and 1 are clamped. -/
theorem exec_modeRequest_clamped (h : Lands id 0x500F0104 v s) (hc : fld v 0 3 < 2) :
    ∃ x, exec (.modeRequest id v) s = .next ((withSame s x).clamp) := by
  have hcl : (s.noteWrites id.toNat [0x500F0104]).modeReq id.toNat v = (s.noteWrites id.toNat [0x500F0104]).clamp := by
    simp only [State.modeReq, if_pos hc]
  refine ⟨(s.noteWrites id.toNat [0x500F0104]).same, ?_⟩
  rw [exec_modeRequest h, hcl]
  exact congrArg _ (settle_of_sys h.settled ((clamp_only _ _).sys (by simp)))

end

/-! ### Transitions between powered modes -/

theorem Transition.powered {m : Mode} {s t : State} (h : Transition m s t) (he : s.sys.mode.executes = m.executes) :
    OnlyIn [.regs, .sys, .hinge, .shk] s t := by
  intro p hp
  by_cases hecc : p = .ecc
  · subst hecc
    exact h.ecc he
  · exact h.only p (by simp at hp ⊢; simp [hp, hecc])

theorem setShk_only (s : State) (x : Shackle) : OnlyIn [.shk] s { s with shk := x } := by
  intro p hp; cases p <;> first | rfl | exact absurd (by simp) hp

/-- The Shackle unit of a unit that no longer owns. -/
def unowned (s : State) : State := { s with shk := { s.shk with owner := false, take := 0xFFFFFFFF, outDue := some false } }

theorem disown_owner {s : State} (h : s.shk.owner = true) : s.disown =
    (((unowned s).setRegFld (aShk 0x14) 31 1 0).count (aShk 0x1C) 8 8).clearFlag (aShk 0) 1 := by
  rw [State.disown, if_pos h]
  rfl

/-- Ownership passes on without a change of mode (R387). -/
theorem disown_disowned (s : State) : s.disown.shk.owner = false ∧ OnlyIn [.regs, .shk] s s.disown
    ∧ s.disown.reg aMode = s.reg aMode := by
  cases h : s.shk.owner with
  | false =>
    have he : s.disown = s := by rw [State.disown, if_neg (by rw [h]; decide)]
    rw [he]
    exact ⟨h, OnlyIn.refl _ s, rfl⟩
  | true =>
    have hregs : OnlyIn [.regs] (unowned s) s.disown := by
      rw [disown_owner h]
      exact ((setReg_only _ _ _).trans (count_only _ _ _ _ _)).trans (clearFlag_only _ _ _)
    refine ⟨?_, ((setShk_only s _).mono (by simp)).trans (hregs.mono (by simp)), ?_⟩
    · rw [hregs .shk (by simp)]
      rfl
    · rw [disown_owner h, clearFlag_reg, if_neg (fun hc => absurd hc.1 (by decide)), count_reg, if_neg (by decide),
        State.setRegFld, State.setReg_reg, if_neg (by decide)]
      rfl

theorem Entered.of_same {m : Mode} {s t u : State} (h : Entered m s t) (hs : u.sys.mode = t.sys.mode)
    (hr : u.reg aMode = t.reg aMode) (hh : u.hinge = t.hinge) : Entered m s u :=
  ⟨hs.trans h.mode, hr ▸ h.prev, hr ▸ h.changed, hh ▸ h.event⟩

end Sys2Proof

/-! SUPPORT. O56: the mode requests that a powered unit is granted at once, and those that it refuses. -/

namespace Sys2Proof

open Machine

/-! ### Transitions between Preparation, Run, Tracking and Safe -/

theorem Moves.powered {s : State} {m : Mode} (h : Moves s m) :
    m ≠ s.sys.mode ∧ (m = .run ∨ m = .tracking ∨ m = .preparation) ∧ s.sys.mode.executes = m.executes := by
  rcases h with ⟨hs, hm, -⟩ | ⟨hs, hm, -⟩ | ⟨hs | hs, hm⟩ | ⟨hs, hm, -⟩ <;> rw [hs, hm] <;> decide

theorem Halts.powered {s : State} {m : Mode} (h : Halts s m) : m = .safe ∧ m ≠ s.sys.mode ∧ s.sys.mode.executes = true := by
  obtain ⟨hs | hs | hs | hs, rfl⟩ := h <;> rw [hs] <;> decide

/-- What a granted move leaves beside the transition: the gate's end is asked for, or ownership passes on. -/
theorem modeChange_transition (u : State) {m : Mode} (hm : m = .run ∨ m = .tracking ∨ m = .preparation) :
    (modeChange m u).sys.mode = (u.setMode m).sys.mode ∧ (modeChange m u).sys.entry = (u.setMode m).sys.entry
      ∧ (modeChange m u).sys.resetReq = (u.setMode m).sys.resetReq ∧ (modeChange m u).reg aMode = (u.setMode m).reg aMode
      ∧ (m = .tracking → (modeChange m u).shk.owner = false) ∧ OnlyIn [.regs, .sys, .shk] (u.setMode m) (modeChange m u) := by
  rcases hm with rfl | rfl | rfl
  · exact ⟨rfl, rfl, rfl, rfl, nofun, OnlyIn.refl _ _⟩
  · obtain ⟨hown, honly, hreg⟩ := disown_disowned (u.setMode .tracking)
    have hsys := honly.sys (by simp)
    exact ⟨congrArg Sys.mode hsys, congrArg Sys.entry hsys, congrArg Sys.resetReq hsys, hreg, fun _ => hown, honly.mono (by simp)⟩
  · exact ⟨rfl, rfl, rfl, rfl, nofun, (setSys_only (u.setMode .preparation) _).mono (by simp)⟩

theorem modeChange_moves {u : State} {m : Mode} (hr : u.running = true) (hset : Settled u)
    (hl : bit (u.reg (aHfCh 656)) 31 = false) (hm : Moves u m) :
    Entered m u (modeChange m u) ∧ bit ((modeChange m u).reg aMode) 9 = bit (u.reg aMode) 9
      ∧ (m = .tracking → (modeChange m u).shk.owner = false) ∧ OnlyIn [.regs, .sys, .hinge, .shk] u (modeChange m u)
      ∧ Settled (modeChange m u) := by
  obtain ⟨-, hto, hexec⟩ := hm.powered
  have ht := setMode_transition u m
  obtain ⟨hmode, hentry, hreset, hreg, hown, honly⟩ := modeChange_transition u hto
  have hpow : m ≠ .doze ∧ m ≠ .dormant := by rcases hto with rfl | rfl | rfl <;> decide
  refine ⟨(setMode_entered u m hr hpow hl).of_same hmode hreg (honly.hinge (by simp)), by rw [hreg, ht.rejected], hown,
    (ht.powered hexec).trans (honly.mono (by simp)), ?_, ?_⟩
  · rw [hreset, ht.sys]
    exact hset.1
  · rw [hentry, ht.sys]

/-! ### Safe (R52, R157) -/

/-- What a cause of Safe does ahead of the transition: its bit, and the Shackle gate where the unit drives its outputs. -/
def safeCaused (s : State) : State :=
  let s := s.setFlag aSafeCause 0
  if bit (s.reg aOwnStat) 0 && !s.sys.gate then s.shkGateOn else s

theorem safeCaused_only (s : State) : OnlyIn [.regs, .pads] s (safeCaused s) := by
  simp only [safeCaused]
  split
  · exact ((setFlag_only s _ _).mono (by simp)).trans ((shkGateOn_only _).mono (by simp))
  · exact (setFlag_only s _ _).mono (by simp)

theorem safeCaused_reg (s : State) (a : Nat) : (safeCaused s).reg a = (s.setFlag aSafeCause 0).reg a := by
  simp only [safeCaused]
  split
  · exact State.reg_of_regs _ _ ((shkGateOn_only _).regs (by simp)) a
  · rfl

theorem enterSafe_halts {s : State} (h : Halts s .safe) :
    ∃ x, s.enterSafe 0 = ((safeCaused (withSame s x)).setMode .safe).gateOn := by
  obtain ⟨hs, -⟩ := h
  refine ⟨(s.note fun x => { x with safe := true, cause := x.cause || false }).same, ?_⟩
  have hm (f : Same → Same) : (s.note f).sys.mode = s.sys.mode := rfl
  rcases hs with hs | hs | hs | hs <;> simp only [State.enterSafe, if_true, hm, hs] <;> rfl

/-- The Safe event of a transition to Safe. -/
theorem setMode_safe_raises {s : State} (hr : s.running = true) (hl : bit (s.reg (aHfCh 657)) 31 = false) :
    ∃ q ∈ (s.setMode .safe).hinge.raised, q.ch = 657 := by
  have hlap := lapMode_only s .safe
  have hmark := modeMarked_only (s.lapMode .safe)
  have hsys : (modeMarked (s.lapMode .safe)).sys = s.sys := (hmark.sys (by simp)).trans (hlap.sys (by simp))
  have hrun : (modeRaised .safe (modeMarked (s.lapMode .safe))).running = true := by
    simp only [State.running, Bool.and_eq_true] at hr ⊢
    rw [modeRaised_sys, hsys]
    exact ⟨⟨hr.1.1, rfl⟩, rfl⟩
  have hreg : bit ((modeRaised .safe (modeMarked (s.lapMode .safe))).reg (aHfCh 657)) 31 = false := by
    rw [modeRaised_reg _ _ _ (by decide) (by decide), modeMarked_reg _ _ (by decide), if_neg (by decide),
      State.reg_of_regs s _ (hlap.regs (by simp))]
    exact hl
  obtain ⟨q, hq, hch, -⟩ := raise_present _ 657 hrun hreg
  exact ⟨q, by rw [setMode_eq, if_pos rfl]; exact hq, hch⟩

theorem enterSafe_entered {s : State} (hr : s.running = true) (hset : Settled s) (h6 : bit (s.reg (aHfCh 656)) 31 = false)
    (h7 : bit (s.reg (aHfCh 657)) 31 = false) (h : Halts s .safe) :
    Entered .safe s (s.enterSafe 0) ∧ bit ((s.enterSafe 0).reg aSafeCause) 0 = true ∧ (s.enterSafe 0).sys.gate = true
      ∧ (∃ q ∈ (s.enterSafe 0).hinge.raised, q.ch = 657) ∧ OnlyIn [.regs, .sys, .hinge, .pads, .shk] s (s.enterSafe 0)
      ∧ Settled (s.enterSafe 0) := by
  obtain ⟨x, hx⟩ := enterSafe_halts h
  have hc := (withSame_only s x).mono (qs := [.regs, .pads]) (by simp) |>.trans (safeCaused_only (withSame s x))
  have hcsys : (safeCaused (withSame s x)).sys = s.sys := hc.sys (by simp)
  have hcreg (a : Nat) (ha : a ≠ aSafeCause) : (safeCaused (withSame s x)).reg a = s.reg a := by
    rw [safeCaused_reg, setFlag_reg, if_neg ha]
    rfl
  have hcrun : (safeCaused (withSame s x)).running = true := by
    rw [State.running, hcsys]
    exact hr
  have ht := setMode_transition (safeCaused (withSame s x)) .safe
  have hg := gateOn_only ((safeCaused (withSame s x)).setMode .safe)
  obtain ⟨b, hgs⟩ := gateOn_sys ((safeCaused (withSame s x)).setMode .safe)
  have hgr (a : Nat) : (s.enterSafe 0).reg a = ((safeCaused (withSame s x)).setMode .safe).reg a := by
    rw [hx]
    exact State.reg_of_regs _ _ (hg.regs (by simp)) a
  have hgh : (s.enterSafe 0).hinge = ((safeCaused (withSame s x)).setMode .safe).hinge := by
    rw [hx]
    exact hg.hinge (by simp)
  have hsys : (s.enterSafe 0).sys = { s.sys with mode := .safe, entry := none, gate := true, gatePend := b } := by
    rw [hx, hgs, ht.sys, hcsys]
  have hcyc : (safeCaused (withSame s x)).cycle = s.cycle := hc .cycle (by simp)
  obtain ⟨q, hq, hch, hqc⟩ := setMode_raises _ .safe hcrun (by decide) (by rw [hcreg _ (by decide)]; exact h6)
  refine ⟨⟨by rw [hsys], ?_, ?_, q, hgh ▸ hq, hch, hqc.trans hcyc⟩, ?_, by rw [hsys], ?_, ?_, ?_⟩
  · rw [hgr, ht.prev, hcsys]
  · rw [hgr, ht.changed]
  · rw [hgr, ht.regs _ (by decide), safeCaused_reg]
    exact (setFlag_flagged (withSame s x) aSafeCause 0 (by decide)).1
  · rw [hgh]
    exact setMode_safe_raises hcrun (by rw [hcreg _ (by decide)]; exact h7)
  · rw [hx]
    have he : (safeCaused (withSame s x)).sys.mode.executes = Mode.safe.executes := by
      rw [hcsys]
      exact h.powered.2.2
    exact ((hc.mono (by simp)).trans ((ht.powered he).mono (by simp))).trans (hg.mono (by simp))
  · exact ⟨by rw [hsys]; exact hset.1, by rw [hsys]⟩

/-! ### The requests -/

section
variable {id : Id} {v : Word} {s : State}

theorem modeRequest_same (h : Lands id 0x500F0104 v s) (hc : 2 ≤ fld v 0 3) (hm : modeOf (fld v 0 3) = s.sys.mode) :
    After (.modeRequest id v) s fun s' => RegsBut [] s s' ∧ OnlyIn [.regs] s s' := by
  obtain ⟨x, hx⟩ := exec_modeRequest_same h hc hm
  exact ⟨_, hx, fun _ _ => rfl, (withSame_only s x).mono (by simp)⟩

theorem modeRequest_moves (h : Lands id 0x500F0104 v s) (hc : 2 ≤ fld v 0 3) (hl : bit (s.reg (aHfCh 656)) 31 = false)
    (hm : Moves s (modeOf (fld v 0 3))) : After (.modeRequest id v) s fun s' =>
      Entered (modeOf (fld v 0 3)) s s' ∧ bit (s'.reg aMode) 9 = bit (s.reg aMode) 9
      ∧ (modeOf (fld v 0 3) = .tracking → s'.shk.owner = false) ∧ OnlyIn [.regs, .sys, .hinge, .shk] s s' := by
  obtain ⟨x, hx⟩ := exec_modeRequest_granted h hc hm.powered.1 ((allows_iff s _).2 (.inl hm))
  obtain ⟨hent, hrej, hown, honly, hset⟩ := modeChange_moves (u := withSame s x) h.runs h.settled hl hm
  rw [settle_settled _ hset] at hx
  exact ⟨_, hx, ⟨hent.mode, hent.prev, hent.changed, hent.event⟩, hrej, hown,
    ((withSame_only s x).mono (by simp)).trans honly⟩

theorem modeRequest_halts (h : Lands id 0x500F0104 v s) (hc : 2 ≤ fld v 0 3) (h6 : bit (s.reg (aHfCh 656)) 31 = false)
    (hm : Halts s (modeOf (fld v 0 3))) (h7 : bit (s.reg (aHfCh 657)) 31 = false) : After (.modeRequest id v) s fun s' =>
      Entered .safe s s' ∧ bit (s'.reg aSafeCause) 0 = true ∧ s'.sys.gate = true ∧ (∃ q ∈ s'.hinge.raised, q.ch = 657)
      ∧ OnlyIn [.regs, .sys, .hinge, .pads, .shk] s s' := by
  obtain ⟨hsafe, hne, -⟩ := hm.powered
  obtain ⟨x, hx⟩ := exec_modeRequest_granted h hc hne ((allows_iff s _).2 (.inr (.inl hm)))
  rw [hsafe] at hx hm
  obtain ⟨hent, hcause, hgate, hev, honly, hset⟩ := enterSafe_entered (s := withSame s x) h.runs h.settled h6 h7 hm
  have hx' : exec (.modeRequest id v) s = .next ((withSame s x).enterSafe 0) := by rw [hx, ← settle_settled _ hset]; rfl
  exact ⟨_, hx', ⟨hent.mode, hent.prev, hent.changed, hent.event⟩, hcause, hgate, hev,
    ((withSame_only s x).mono (by simp)).trans honly⟩

theorem modeRequest_refused (h : Lands id 0x500F0104 v s) (hc : 2 ≤ fld v 0 3) (hne : modeOf (fld v 0 3) ≠ s.sys.mode)
    (hm : ¬ Moves s (modeOf (fld v 0 3))) (hh : ¬ Halts s (modeOf (fld v 0 3))) (hs : ¬ Sleeps s (modeOf (fld v 0 3))) :
    After (.modeRequest id v) s fun s' => Flagged aMode 9 s s' ∧ RegsBut [aMode] s s' ∧ OnlyIn [.regs] s s' := by
  have ha : s.allows (modeOf (fld v 0 3)) false = false := by
    rw [Bool.eq_false_iff, Ne, allows_iff]
    exact fun h => h.elim hm fun h => h.elim hh hs
  obtain ⟨x, hx⟩ := exec_modeRequest_refused h hc hne ha
  refine ⟨_, hx, (setFlag_flagged (withSame s x) aMode 9 (by decide)).of_reg rfl rfl, fun a ha => ?_,
    ((withSame_only s x).mono (by simp)).trans (setFlag_only _ _ _)⟩
  rw [setFlag_reg, if_neg (by simpa using ha)]
  rfl

theorem modeRequest_clamped (h : Lands id 0x500F0104 v s) (hc : fld v 0 3 < 2) (hr : Raisable 668 s) :
    After (.modeRequest id v) s fun s' => Counted 0x500F0014 0 32 1 s s' ∧ RegsBut [0x500F0014] s s' ∧ RaisedNow 668 s s'
      ∧ OnlyIn [.regs, .hinge] s s' := by
  obtain ⟨x, hx⟩ := exec_modeRequest_clamped h hc
  obtain ⟨hcount, hraise⟩ := clamp_counted (withSame s x)
  refine ⟨_, hx, hcount.of_reg rfl rfl, fun a ha => ?_, hraise hr, ((withSame_only s x).mono (by simp)).trans (clamp_only _ _)⟩
  have ho := count_only { withSame s x with clamps := s.clamps + 1 } 0x500F0014 0 32 1
  have hr' := hr.of_same ho (by simp) (by simp) (by simp) (count_regsBut _ _ _ _ _ _ (by decide))
  exact (State.reg_of_regs _ _ (raise_taken_regs _ 668 hr') a).trans (count_regsBut _ _ _ _ _ a ha)

end

end Sys2Proof

/-! SUPPORT. What the last work of an island that stops can touch: memory and its error records, threads, pads, the lock table
(R64, R95, R177, R180, R197). -/

namespace Sys2Proof

open Machine

/-! ### Memory accesses, errors of code words included (R169 to R174) -/

/-- The parts that an access of memory can touch where code words hold errors. -/
def memoryParts : List Part := [.mem, .ecc, .regs, .hinge, .free]

/-- The count and the record of a corrected read (R186). -/
def correctedRecord (s : State) (key src id bitNo : Nat) : State :=
  let m := memNum key
  (((s.count (aEcc m 0) 0 16).noteSet (aEcc m 4) 31).setReg (aEcc m 4)
    (word (2 ^ 31 + src * 2 ^ 29 + id * 2 ^ 17 + bitNo))).setReg (aEcc m 8) (word (reported key))

/-- The ECC event, where corrected reads raise it. -/
def correctedEvent (s : State) : State := if bit (s.reg 0x500F4000) 1 then s.raise 658 else s

theorem corrected_eq (s : State) (key src id bitNo : Nat) : s.corrected key src id bitNo =
    let t := correctedEvent (correctedRecord s key src id bitNo)
    if src = 1 || !bit (t.reg 0x500F4000) 0 || (tabFind t.ecc.repair (memNum key)).isSome then t
    else { t with ecc := { t.ecc with repair := tabSet t.ecc.repair (memNum key) key } } := rfl

theorem corrected_only (s : State) (key src id bitNo : Nat) : OnlyIn [.regs, .hinge, .ecc] s (s.corrected key src id bitNo) := by
  have hrecord : OnlyIn [.regs] s (correctedRecord s key src id bitNo) :=
    (((count_only s _ _ _ _).trans ((note_only _ _).mono (by simp))).trans (setReg_only _ _ _)).trans (setReg_only _ _ _)
  have hevent (t : State) : OnlyIn [.regs, .hinge] t (correctedEvent t) := by
    simp only [correctedEvent]
    split
    · exact raise_only t 658
    · exact OnlyIn.refl _ t
  have hboth := (hrecord.mono (qs := [.regs, .hinge, .ecc]) (by simp)).trans ((hevent _).mono (by simp))
  simp only [corrected_eq]
  split
  · exact hboth
  · exact hboth.trans ((setEcc_only _ _).mono (by simp))

theorem uncorrectable_only (s : State) (key src id : Nat) (p : Bool) : OnlyIn [.regs, .hinge] s (s.uncorrectable key src id p) := by
  have hc := count_only s (aEcc (memNum key) 0) 16 16 1
  simp only [State.uncorrectable]
  refine OnlyIn.trans ?_ (raise_only _ _)
  split
  · exact ((hc.trans (setFlag_only _ _ _)).trans ((note_only _ _).mono (by simp))).mono (by simp)
  · exact (((hc.trans ((note_only _ _).mono (by simp))).trans (setReg_only _ _ _)).trans (setReg_only _ _ _)).mono (by simp)

theorem setFree_only (s : State) (n : Nat) : OnlyIn [.free] s { s with free := n } := by
  intro p hp; cases p <;> first | rfl | exact absurd (by simp) hp

theorem readCode_only (s : State) (key src id : Nat) : OnlyIn memoryParts s (s.readCode key src id).1 := by
  have hun (t : State) (p : Bool) : OnlyIn memoryParts t (t.uncorrectable key src id p) :=
    (uncorrectable_only t _ _ _ _).mono (by simp [memoryParts])
  have hco (t : State) (n : Nat) : OnlyIn memoryParts t (t.corrected key src id n) :=
    (corrected_only t _ _ _ _).mono (by simp [memoryParts])
  have hfree (t : State) : OnlyIn memoryParts t t.drawNat.1 := (setFree_only t _).mono (by simp [memoryParts])
  simp only [State.readCode]
  split
  · exact OnlyIn.refl _ s
  · split
    · exact hco s _
    · split
      · exact hun s _
      · split
        · exact (hfree s).trans (hun _ _)
        · split
          · exact ((hfree s).trans (hfree _)).trans (hco _ _)
          · exact hfree s

theorem markCode_only (s : State) (key : Nat) (bad : BitVec 72) : OnlyIn memoryParts s (s.markCode key bad) := by
  simp only [State.markCode]
  split
  · exact (setEcc_only s _).mono (by simp [memoryParts])
  · exact ((setEcc_only s _).mono (by simp [memoryParts])).trans ((clearFlag_only _ _ _).mono (by simp [memoryParts]))

theorem setMem_memory (s : State) (m : Memory) : OnlyIn memoryParts s { s with mem := m } :=
  (setMem_only s m).mono (by simp [memoryParts])

theorem writeCode_only (s : State) (key v : Nat) : OnlyIn memoryParts s (s.writeCode key v) :=
  (setMem_memory s _).trans (markCode_only _ _ _)

theorem mergeCode_only (s : State) (key id : Nat) (lanes : Tab Byte) : OnlyIn memoryParts s (s.mergeCode key id lanes) := by
  simp only [State.mergeCode]
  split
  · exact (setMem_memory s _).trans (markCode_only _ _ _)
  · have hr := readCode_only s key 2 id
    split <;> exact (hr.trans (setMem_memory _ _)).trans (markCode_only _ _ _)

theorem landLanes_only (s : State) (key id : Nat) (lanes : Tab Byte) (who : Nat) :
    OnlyIn memoryParts s (s.landLanes key id lanes who) := by
  simp only [State.landLanes]
  split
  · exact OnlyIn.refl _ s
  · exact ((noteWrites_only s _ _).mono (by simp)).trans (mergeCode_only _ _ _ _)

/-! ### The work of an island -/

/-- The parts that the last work of an island can touch, its engine and the governor's queue aside. -/
def workParts : List Part := [.mem, .ecc, .regs, .hinge, .free, .scan, .threads, .pads, .tum]

/-- What the last work of an island does: it switches no island and changes no mode. -/
structure IslandWork (s t : State) : Prop where
  only : OnlyIn (.engines :: .sys :: workParts) s t
  sys : ∃ g, t.sys = { s.sys with gov := g }
  power : ∀ j, (t.eng j).power = (s.eng j).power

namespace IslandWork

theorem refl (s : State) : IslandWork s s := ⟨OnlyIn.refl _ s, ⟨_, rfl⟩, fun _ => rfl⟩

theorem trans {s t u : State} (h : IslandWork s t) (h' : IslandWork t u) : IslandWork s u := by
  obtain ⟨g, hg⟩ := h.sys
  obtain ⟨g', hg'⟩ := h'.sys
  exact ⟨h.only.trans h'.only, ⟨g', by rw [hg', hg]⟩, fun j => (h'.power j).trans (h.power j)⟩

theorem of_parts {s t : State} (h : OnlyIn workParts s t) : IslandWork s t :=
  ⟨h.mono (by simp [workParts]), ⟨s.sys.gov, h.sys (by simp [workParts])⟩,
    fun j => congrArg Engine.power (State.eng_of_engines s t (h.engines (by simp [workParts])) j)⟩

theorem of_only {s t : State} {ps : List Part} (h : OnlyIn ps s t) (hp : ∀ p ∈ ps, p ∈ workParts) : IslandWork s t :=
  of_parts (h.mono hp)

theorem of_memory {s t : State} (h : OnlyIn memoryParts s t) : IslandWork s t :=
  of_only h (by simp [memoryParts, workParts])

theorem of_queued {s t : State} (h : Queued s t) : IslandWork s t :=
  ⟨h.only.mono (by simp [workParts]), h.sys,
    fun j => congrArg Engine.power (State.eng_of_engines s t (h.only.engines (by simp)) j)⟩

theorem foldl {α : Type} (f : State → α → State) (l : List α) (s : State) (h : ∀ t a, IslandWork t (f t a)) :
    IslandWork s (l.foldl f s) := foldl_keeps (IslandWork s) f l s (refl s) fun t a ht => ht.trans (h t a)

end IslandWork

theorem updEng_work (s : State) (k : Nat) (f : Engine → Engine) (h : (f (s.eng k)).power = (s.eng k).power) :
    IslandWork s (s.updEng k f) where
  only := (setEng_only s k _).mono (by simp [workParts])
  sys := ⟨_, rfl⟩
  power j := by
    rw [State.updEng_eng]
    split
    · rename_i hj
      rw [hj, h]
    · rfl

theorem setThr_work (s : State) (id : Nat) (t : Thread) : IslandWork s (s.setThr id t) :=
  .of_only (setThr_only s id t) (by simp [workParts])

theorem updThr_work (s : State) (id : Nat) (f : Thread → Thread) : IslandWork s (s.updThr id f) := setThr_work s id _

theorem setTum_work (s : State) (x : Tumbler) : IslandWork s { s with tum := x } :=
  .of_only (setTum_only s x) (by simp [workParts])

/-! ### Merge entries (R177, R180) -/

theorem flushLocal_work (s : State) (k : Nat) : IslandWork s (s.flushLocal k) := by
  simp only [State.flushLocal]
  split
  · exact .refl s
  · exact (updEng_work s k _ rfl).trans (.of_memory (mergeCode_only _ _ _ _))

theorem flushLocalAt_work (s : State) (k a : Nat) : IslandWork s (s.flushLocalAt k a) := by
  simp only [State.flushLocalAt]
  split
  · exact flushLocal_work s k
  · exact .refl s

theorem imageCycles_only (s : State) (n : Nat) : OnlyIn [.scan] s (s.imageCycles n) := by
  simp only [State.imageCycles]
  split
  · exact OnlyIn.refl _ s
  · intro p hp; cases p <;> first | rfl | exact absurd (by simp) hp

theorem flushFar_work (s : State) (k : Nat) : IslandWork s (s.flushFar k) := by
  simp only [State.flushFar]
  split
  · exact .refl s
  · have hi (n : Nat) : IslandWork s (s.imageCycles n) := .of_only (imageCycles_only s _) (by simp [workParts])
    exact (((hi _).trans (updEng_work _ k _ rfl)).trans (.of_memory (landLanes_only _ _ _ _ _))).trans (updThr_work _ _ _)

/-! ### Waits and locks (R63, R194, R197) -/

theorem fill_work (s : State) (id : Nat) (a : Word) (vec : Bool) : IslandWork s (s.fill id a vec) := by
  simp only [State.fill]
  have h1 := IslandWork.of_memory (readCode_only s (engKey (s.lead (id / 16)) a.toNat) 0 id)
  split
  · exact (h1.trans (.of_memory (readCode_only _ _ _ _))).trans (updThr_work _ _ _)
  · exact h1.trans (updThr_work _ _ _)

theorem completeWait_work (s : State) (id : Nat) : IslandWork s (s.completeWait id) := by
  simp only [State.completeWait, State.goTo]
  exact ((updThr_work s id _).trans (fill_work _ id _ _)).trans (updThr_work _ id _)

theorem wakeIsland_queued (s : State) (k : Nat) : Queued s (s.wakeIsland k) := by
  refine foldl_keeps (Queued s) _ _ s (Queued.refl s) fun t j h => ?_
  split
  · exact (h.trans (govQueue_queued t j true false)).trans (setRegFld_engPwr_queued _ _ _ _)
  · exact h

theorem completeWaiters_work (s : State) (a : Nat) : IslandWork s (s.completeWaiters a) := by
  refine (setTum_work s _).trans (.foldl _ _ _ fun t id => ?_)
  dsimp only
  split
  · exact (IslandWork.of_queued (wakeIsland_queued t _)).trans (completeWait_work _ id)
  · exact .refl t

theorem freeLock_work (s : State) (a : Nat) (mark : Bool) : IslandWork s (s.freeLock a mark) :=
  (setTum_work s _).trans (completeWaiters_work _ a)

theorem holderReset_work (s : State) (id : Nat) : IslandWork s (s.holderReset id) :=
  ((setTum_work s _).trans (.foldl _ _ _ fun t a => freeLock_work t a true)).trans (setTum_work _ _)

/-! ### Replies that are on the way (R64, R126, R143) -/

theorem writeFrame_work (s : State) (k a : Nat) (v : Word) : IslandWork s (s.writeFrame k a v) :=
  .foldl _ _ s fun t j => (flushLocalAt_work t j a).trans (.of_memory (writeCode_only _ _ _))

theorem deliver_work (s : State) (id : Nat) (d : Dest) (v : Word) : IslandWork s (s.deliver id d v) := by
  simp only [State.deliver]
  cases d with
  | reg r => exact updThr_work s id _
  | flagT => exact updThr_work s id _
  | frame base r => exact writeFrame_work s _ _ v
  | frameT base =>
    dsimp only
    refine .foldl _ _ s fun t j => (flushLocalAt_work t j (base.toNat + 4)).trans ?_
    have hr := IslandWork.of_memory (readCode_only (t.flushLocalAt j (base.toNat + 4)) (engKey j (base.toNat + 4)) 2 id)
    split
    · rename_i u w he
      rw [he] at hr
      exact hr.trans (.of_memory (writeCode_only u _ _))
    · rename_i u he
      rw [he] at hr
      exact hr.trans (.of_memory ((setMem_memory u _).trans (markCode_only _ _ _)))

theorem farWake_work (s : State) (id : Nat) : IslandWork s (s.farWake id) := by
  simp only [State.farWake]
  split
  · exact .refl s
  · exact updThr_work s id _

theorem leaveWait_work (s : State) (id : Nat) : IslandWork s (s.leaveWait id) := by
  simp only [State.leaveWait]
  split
  · exact (setTum_work s _).trans (updThr_work _ id _)
  · exact .refl s

theorem farReply_work (s : State) (id n : Nat) : IslandWork s (s.farReply id n) := by
  simp only [State.farReply]
  split
  · exact .refl s
  · split
    · exact ((IslandWork.foldl _ _ s fun t (d : Dest × Word) => deliver_work t id d.1 d.2).trans (updThr_work _ id _)).trans
        (farWake_work _ id)
    · exact .refl s

theorem farError_work (s : State) (id n : Nat) : IslandWork s (s.farError id n) := by
  simp only [State.farError]
  split
  · exact .refl s
  · split
    · exact .refl s
    · split
      · exact (((IslandWork.foldl _ _ s fun t (d : Dest × Word) => deliver_work t id d.1 0).trans (updThr_work _ id _)).trans
          (leaveWait_work _ id)).trans (farWake_work _ id)
      · exact .refl s

theorem setPad_work (s : State) (p : Nat) (x : Pad) : IslandWork s (s.setPad p x) :=
  .of_only (updPad_only s p fun _ => x) (by simp [workParts])

theorem psetLand_work (s : State) (p : Nat) (lvl : BitVec 2) (off : Word) : IslandWork s (s.psetLand p lvl off) := by
  have hmiss (i : Nat) : IslandWork s ((s.setFlag (aPadStat p) i).count aPadEcnt 16 16) :=
    .of_only ((setFlag_only s _ i).trans (count_only _ _ _ _ _)) (by simp [workParts])
  simp only [State.psetLand]
  split
  · exact hmiss 1
  · split
    · exact hmiss 2
    · exact setPad_work s p _

theorem storeStamp_work (s : State) (p : Nat) (t : Time64) : IslandWork s (s.storeStamp p t) := by
  simp only [State.storeStamp]
  split
  · exact setPad_work s p _
  · exact .of_only ((setReg_only s _ _).trans (setReg_only _ _ _)) (by simp [workParts])

theorem stampOut_work (s : State) (p : Nat) : IslandWork s (s.stampOut p).1 := by
  have hset : IslandWork s (s.settlePad p) := by
    simp only [State.settlePad]
    split
    · exact .refl s
    · exact (setPad_work s p _).trans (.foldl _ _ _ fun t e => storeStamp_work t p e.2)
  simp only [State.stampOut]
  split
  · exact hset
  · exact hset.trans (setPad_work _ p _)

theorem padLand_work (s : State) (k : Nat) : IslandWork s (s.padLand k) := by
  simp only [State.padLand]
  split
  · exact .refl s
  · rename_i r rs _
    have hq : IslandWork s (s.updEng k ({ · with padReqs := rs })) := updEng_work s k _ rfl
    split
    · exact (hq.trans (psetLand_work _ _ _ _)).trans (updThr_work _ _ _)
    · exact (hq.trans (stampOut_work _ _)).trans (updThr_work _ _ _)

theorem settleFar_work (s : State) (k : Nat) : IslandWork s (s.settleFar k) := by
  refine (IslandWork.foldl _ _ s fun t _ => padLand_work t k).trans (.foldl _ _ _ fun t i => .foldl _ _ t fun u _ => ?_)
  dsimp only
  split
  · split
    · exact farError_work u _ _
    · exact farReply_work u _ _
  · exact .refl u

end Sys2Proof

/-! SUPPORT. O56: the entry to Doze and Dormant (R65, Table 2.2). -/

namespace Sys2Proof

open Machine

/-! ### Islands that go off or into retention -/

/-- Island `k` ends with the power state `p`; no other island is switched and no mode changes. -/
structure IslandSet (k : Nat) (p : Power) (s t : State) : Prop where
  only : OnlyIn (.engines :: .sys :: workParts) s t
  sys : ∃ g, t.sys = { s.sys with gov := g }
  power : ∀ j, (t.eng j).power = if j = k then p else (s.eng j).power

theorem IslandWork.set {s t : State} (h : IslandWork s t) {k : Nat} {p : Power} (hp : (s.eng k).power = p) :
    IslandSet k p s t :=
  ⟨h.only, h.sys, fun j => by
    rw [h.power]
    split
    · rename_i hj
      rw [hj, hp]
    · rfl⟩

theorem IslandWork.then_set {s t u : State} {k : Nat} {p : Power} (h : IslandWork s t) (h' : IslandSet k p t u) :
    IslandSet k p s u := by
  obtain ⟨g, hg⟩ := h.sys
  obtain ⟨g', hg'⟩ := h'.sys
  exact ⟨h.only.trans h'.only, ⟨g', by rw [hg', hg]⟩, fun j => by rw [h'.power, h.power]⟩

theorem IslandSet.then_work {s t u : State} {k : Nat} {p : Power} (h : IslandSet k p s t) (h' : IslandWork t u) :
    IslandSet k p s u := by
  obtain ⟨g, hg⟩ := h.sys
  obtain ⟨g', hg'⟩ := h'.sys
  exact ⟨h.only.trans h'.only, ⟨g', by rw [hg', hg]⟩, fun j => by rw [h'.power, h.power]⟩

theorem setEng_set (s : State) (k : Nat) (e : Engine) : IslandSet k e.power s (s.setEng k e) where
  only := (setEng_only s k e).mono (by simp [workParts])
  sys := ⟨_, rfl⟩
  power j := by
    rw [State.setEng_eng]
    split <;> rfl

theorem updEng_set (s : State) (k : Nat) (f : Engine → Engine) {p : Power} (h : ∀ e, (f e).power = p) :
    IslandSet k p s (s.updEng k f) := h (s.eng k) ▸ setEng_set s k (f (s.eng k))

theorem loseEngine_only (s : State) (k : Nat) : OnlyIn [.mem, .ecc] s (s.loseEngine k) := by
  intro p hp; cases p <;> first | rfl | exact absurd (by simp) hp

theorem engDefaults_only (s : State) (k : Nat) : OnlyIn [.regs] s (s.engDefaults k) := by
  intro p hp; cases p <;> first | rfl | exact absurd (by simp) hp

theorem govDrop_work (s : State) (k : Nat) : IslandWork s (s.govDrop k) :=
  .of_queued ⟨(setSys_only s _).mono (by simp), fun _ _ => rfl, _, rfl⟩

theorem lapHold_work (s : State) (ms : List Nat) : IslandWork s (s.lapHold ms) :=
  .of_only (lapHold_only s ms) (by simp [workParts])

theorem switchOff_set (s : State) (k : Nat) : IslandSet k .off s (s.switchOff k) := by
  have hdrop := govDrop_work s k
  simp only [State.switchOff]
  split
  · rename_i hoff
    exact hdrop.set hoff
  · have hflush : IslandWork s (((((s.govDrop k).flushLocal k).flushFar k).deregisterAll (engIds k)).lapHold [k, 16 + k]) :=
      (((hdrop.trans (flushLocal_work _ k)).trans (flushFar_work _ k)).trans (setTum_work _ _)).trans (lapHold_work _ _)
    refine IslandWork.then_set ?_ (setEng_set _ k {})
    refine ((hflush.trans (.foldl _ _ _ fun t i => (holderReset_work t _).trans (setThr_work _ _ _))).trans
      (.of_only (loseEngine_only _ k) (by simp [workParts]))).trans (.of_only (engDefaults_only _ k) (by simp [workParts]))

theorem retain_set (s : State) (k : Nat) : IslandSet k .retained s (s.retain k) := by
  simp only [State.retain]
  have hflush : IslandWork s ((((s.flushLocal k).flushFar k).settleFar k).lapHold [k, 16 + k]) :=
    (((flushLocal_work s k).trans (flushFar_work _ k)).trans (settleFar_work _ k)).trans (lapHold_work _ _)
  refine IslandWork.then_set ?_ (updEng_set _ k _ fun _ => rfl)
  exact hflush.trans (.foldl _ _ _ fun t i => updThr_work t _ _)

/-- The engines `ks` end with the power states `p`; no other island is switched and no mode changes. -/
structure IslandsSet (ks : List Nat) (p : Nat → Power) (s t : State) : Prop where
  only : OnlyIn (.engines :: .sys :: workParts) s t
  sys : ∃ g, t.sys = { s.sys with gov := g }
  power : ∀ j ∈ ks, (t.eng j).power = p j
  others : ∀ j, j ∉ ks → (t.eng j).power = (s.eng j).power

theorem foldl_islandsSet (p : Nat → Power) (f : State → Nat → State) (h : ∀ t k, IslandSet k (p k) t (f t k)) (ks : List Nat)
    (s : State) : IslandsSet ks p s (ks.foldl f s) := by
  induction ks generalizing s with
  | nil => exact ⟨OnlyIn.refl _ s, ⟨_, rfl⟩, nofun, fun _ _ => rfl⟩
  | cons k ks ih =>
    obtain ⟨honly, ⟨g, hg⟩, hpower⟩ := h s k
    obtain ⟨honly', ⟨g', hg'⟩, hpower', hothers⟩ := ih (f s k)
    refine ⟨honly.trans honly', ⟨g', by rw [List.foldl_cons, hg', hg]⟩, fun j hj => ?_, fun j hj => ?_⟩
    · by_cases hm : j ∈ ks
      · exact hpower' j hm
      · have hjk : j = k := (List.mem_cons.1 hj).resolve_right hm
        rw [List.foldl_cons, hothers j hm, hpower, if_pos hjk, hjk]
    · obtain ⟨hjk, hm⟩ := not_or.1 (mt List.mem_cons.2 hj)
      rw [List.foldl_cons, hothers j hm, hpower, if_neg hjk]

/-! ### The steps of the entry (R65) -/

/-- The engine islands that an entry to mode `m` keeps, in retention. -/
def kept (s : State) (m : Mode) : List Nat := if m = .doze then (upTo 16).filter s.islandOn else []

/-- The engine islands of `keep` go into retention, every other goes off. -/
def islandsDown (keep : List Nat) (s : State) : State :=
  (upTo 16).foldl (fun s k => if keep.contains k then s.retain k else (s.switchOff k).setRegFld aEngPwr (2 * k) 2 0)
    (s.deregisterEngs ((upTo 16).filter fun k => !keep.contains k))

def portsDown (s : State) : State := (s.setPort .a false).setPort .b false

/-- What the pad, link and Keeper islands lose. -/
def islesLost (keep : List Nat) (s : State) : State :=
  { s with
    pads := tabMap (fun _ (p : Pad) =>
      ({ force := p.force, hold := p.hold, gateLvl := p.gateLvl, pin := p.pin } : Pad)) s.pads
    cvts := tabMap (fun _ (c : Cvt) => ({ sched := c.sched, last := c.last } : Cvt)) s.cvts
    corrections := []
    scan := { s.scan with bufs := [] }
    chain := { s.chain with probeA := {}, probeB := {}, servo := {} }
    shk := { s.shk with outAt := none, holdEnd := none, modeDue := none, outDue := none }
    sys := { s.sys with dozeOn := keep, tmrDue := false }
    kpr := { s.kpr with nvReady := false, key := none } }

theorem goDown_eq (s : State) (m : Mode) : s.goDown m =
    (islesLost (kept s m) (((portsDown (islandsDown (kept s m) s)).setMode m).gateOn)).setRegFld aOwnStat 0 2 0 := rfl

theorem islandsDown_set (keep : List Nat) (s : State) :
    IslandsSet (upTo 16) (fun k => if keep.contains k then .retained else .off) s (islandsDown keep s) := by
  have hstep (t : State) (k : Nat) : IslandSet k (if keep.contains k then .retained else .off) t
      (if keep.contains k then t.retain k else (t.switchOff k).setRegFld aEngPwr (2 * k) 2 0) := by
    split
    · exact retain_set t k
    · exact (switchOff_set t k).then_work (.of_queued (setRegFld_engPwr_queued _ _ _ _))
  have hdereg : OnlyIn [.tum] s (s.deregisterEngs ((upTo 16).filter fun k => !keep.contains k)) := setTum_only s _
  obtain ⟨honly, ⟨g, hg⟩, hpower, hothers⟩ := foldl_islandsSet _ _ hstep (upTo 16)
    (s.deregisterEngs ((upTo 16).filter fun k => !keep.contains k))
  exact ⟨(hdereg.mono (by simp [workParts])).trans honly, ⟨g, hg⟩, hpower, hothers⟩

theorem setPort_only (s : State) (p : Port) (b : Bool) : OnlyIn [.chain, .regs, .hinge] s (s.setPort p b) := by
  have hchain (x : Chain) : OnlyIn [.chain, .regs, .hinge] s { s with chain := x } := fun q hq => by
    cases q <;> first | rfl | exact absurd (by simp) hq
  simp only [State.setPort]
  split
  · exact OnlyIn.refl _ s
  · exact (hchain _).trans ((raise_only _ _).mono (by simp))

theorem setPort_up (s : State) (p : Port) (b : Bool) :
    (s.setPort p b).chain.upA = (if p = .a then b else s.chain.upA)
      ∧ (s.setPort p b).chain.upB = (if p = .b then b else s.chain.upB) := by
  simp only [State.setPort]
  split
  · rename_i h
    cases p <;> simpa [State.portUp] using h
  · rw [(raise_only _ _) .chain (by simp)]
    cases p <;> exact ⟨rfl, rfl⟩

theorem portsDown_down (s : State) : OnlyIn [.chain, .regs, .hinge] s (portsDown s) ∧ (portsDown s).chain.upA = false
    ∧ (portsDown s).chain.upB = false :=
  ⟨(setPort_only s _ _).trans (setPort_only _ _ _),
    by rw [portsDown, (setPort_up _ _ _).1, if_neg (by decide), (setPort_up _ _ _).1, if_pos rfl],
    by rw [portsDown, (setPort_up _ _ _).2, if_pos rfl]⟩

theorem islesLost_sys (keep : List Nat) (s : State) : (islesLost keep s).sys = { s.sys with dozeOn := keep, tmrDue := false } := rfl

theorem islesLost_ports (keep : List Nat) (s : State) :
    (islesLost keep s).chain.upA = s.chain.upA ∧ (islesLost keep s).chain.upB = s.chain.upB := ⟨rfl, rfl⟩

theorem islesLost_only (keep : List Nat) (s : State) :
    OnlyIn [.pads, .cvts, .corrections, .scan, .chain, .shk, .sys, .kpr] s (islesLost keep s) := by
  intro p hp; cases p <;> first | rfl | exact absurd (by simp) hp

/-! ### The unit in Doze or Dormant -/

/-- The unit has gone from the state `s` to the mode `x` without power (R65, R66): PREV and CHG show the transition, the ports are
down, the islands that ran are in retention or off. -/
def WentDown (x : Mode) (s s' : State) : Prop :=
  s'.sys.mode = x ∧ s'.sys.entry = none ∧ fld (s'.reg aMode) 4 3 = s.sys.mode.code ∧ bit (s'.reg aMode) 8 = true
    ∧ s'.chain.upA = false ∧ s'.chain.upB = false ∧ s'.kpr.nvReady = false ∧ s'.cycle = s.cycle
    ∧ (∀ k, k < 16 → (s'.eng k).power = if x = .doze ∧ s.islandOn k = true then .retained else .off)
    ∧ s'.sys.dozeOn = (if x = .doze then (List.range 16).filter s.islandOn else [])
    ∧ s'.running = false

theorem kept_contains (s : State) (m : Mode) {k : Nat} (hk : k < 16) :
    (kept s m).contains k = true ↔ m = .doze ∧ s.islandOn k = true := by
  simp only [kept]
  split <;> simp [*, upTo]

theorem goDown_down (s : State) {m : Mode} (hm : m = .doze ∨ m = .dormant) :
    WentDown m s (s.goDown m) ∧ (s.goDown m).sys.resetReq = s.sys.resetReq := by
  obtain ⟨hdo, ⟨g, hdsys⟩, hpower, -⟩ := islandsDown_set (kept s m) s
  obtain ⟨hpo, hupA, hupB⟩ := portsDown_down (islandsDown (kept s m) s)
  have ht := setMode_transition (portsDown (islandsDown (kept s m) s)) m
  have hg := gateOn_only ((portsDown (islandsDown (kept s m) s)).setMode m)
  obtain ⟨b, hgs⟩ := gateOn_sys ((portsDown (islandsDown (kept s m) s)).setMode m)
  have hlost := islesLost_only (kept s m) (((portsDown (islandsDown (kept s m) s)).setMode m).gateOn)
  have hsys : (s.goDown m).sys = { s.sys with
      gov := g, mode := m, entry := none, gate := true, gatePend := b, dozeOn := kept s m, tmrDue := false } := by
    rw [goDown_eq, State.setRegFld_sys, islesLost_sys, hgs, ht.sys, hpo.sys (by simp), hdsys]
  have hmode : (portsDown (islandsDown (kept s m) s)).sys.mode = s.sys.mode := by rw [hpo.sys (by simp), hdsys]
  have hreg : (s.goDown m).reg aMode = ((portsDown (islandsDown (kept s m) s)).setMode m).reg aMode := by
    rw [goDown_eq, State.setRegFld, State.setReg_reg, if_neg (by decide), State.reg_of_regs _ _ (hlost.regs (by simp)),
      State.reg_of_regs _ _ (hg.regs (by simp))]
  have hchain : (((portsDown (islandsDown (kept s m) s)).setMode m).gateOn).chain =
      (portsDown (islandsDown (kept s m) s)).chain := by
    rw [hg .chain (by simp), ht.only .chain (by simp)]
  have hcycle : (s.goDown m).cycle = s.cycle := by
    rw [goDown_eq, State.setRegFld_cycle, hlost .cycle (by simp), hg .cycle (by simp), ht.only .cycle (by simp),
      hpo .cycle (by simp), hdo .cycle (by simp [workParts])]
  have heng (k : Nat) : (s.goDown m).eng k = (islandsDown (kept s m) s).eng k := by
    refine State.eng_of_engines _ _ ?_ k
    rw [goDown_eq, State.setRegFld_engines, hlost.engines (by simp), hg.engines (by simp), ht.only.engines (by simp),
      hpo.engines (by simp)]
  refine ⟨⟨by rw [hsys], by rw [hsys], by rw [hreg, ht.prev, hmode], by rw [hreg, ht.changed], ?_, ?_, rfl, hcycle, fun k hk => ?_,
    by rw [hsys]; rfl, ?_⟩, by rw [hsys]⟩
  · rw [goDown_eq, State.setRegFld_chain, (islesLost_ports _ _).1, hchain, hupA]
  · rw [goDown_eq, State.setRegFld_chain, (islesLost_ports _ _).2, hchain, hupB]
  · rw [heng, hpower k (by simpa [upTo] using hk)]
    simp only [kept_contains s m hk]
  · rcases hm with rfl | rfl <;> simp [State.running, hsys]

/-! ### The start of an entry (R65, R318, R374) -/

/-- An entry to mode `m` runs. -/
def entryRuns (m : Mode) (s : State) : State := { s with sys := { s.sys with entry := some ⟨m, none⟩ } }

/-- A channel that is between descriptors, or that retries a held lock, stops at once. -/
def chanRests (x : Chan) : Chan := if x.run && (x.lockw || x.desc.isNone) then x.halted else x

/-- Channel `c` stops where it does so at once. -/
def chanStops (s : State) (c : Nat) : State :=
  let x := s.chan c
  if x.run && (x.lockw || x.desc.isNone) then s.setChan c x.halted else s

def chansRest (s : State) : State := (upTo 32).foldl chanStops s

theorem startEntry_eq (s : State) (m : Mode) : s.startEntry m = (chansRest (entryRuns m s)).tryDoze := rfl

theorem chansRest_only (s : State) : OnlyIn [.chans] s (chansRest s) := by
  refine OnlyIn.foldl _ _ s fun t c => ?_
  simp only [chanStops]
  split
  · exact setChan_only t c _
  · exact OnlyIn.refl _ t

theorem chanRests_idem (x : Chan) : chanRests (chanRests x) = chanRests x := by
  simp only [chanRests]
  split
  · simp [Chan.halted]
  · simp [*]

theorem chanRests_run (x : Chan) : (chanRests x).run = (x.run && !x.lockw && x.desc.isSome) := by
  cases hr : x.run
  · simp [chanRests, hr]
  · cases hl : x.lockw <;> cases hd : x.desc <;> simp [chanRests, Chan.halted, hr, hl, hd]

theorem chanStops_chan (s : State) (d c : Nat) :
    (chanStops s d).chan c = if c = d then chanRests (s.chan c) else s.chan c := by
  simp only [chanStops]
  by_cases hc : c = d
  · subst hc
    rw [if_pos rfl, chanRests]
    split
    · simp [State.setChan, State.chan, tabGet_tabSet]
    · rfl
  · rw [if_neg hc]
    split
    · simp [State.setChan, State.chan, tabGet_tabSet, hc]
    · rfl

theorem foldl_chanStops (l : List Nat) (s : State) (c : Nat) :
    (l.foldl chanStops s).chan c = if c ∈ l then chanRests (s.chan c) else s.chan c := by
  induction l generalizing s with
  | nil => simp
  | cons d l ih =>
    rw [List.foldl_cons, ih, chanStops_chan]
    by_cases hc : c = d <;> by_cases hm : c ∈ l <;> simp [hc, hm, chanRests_idem]

theorem chansRest_chan (s : State) {c : Nat} (hc : c < 32) : (chansRest s).chan c = chanRests (s.chan c) := by
  rw [chansRest, foldl_chanStops, if_pos (by simpa [upTo] using hc)]

/-- Nothing runs that the entry would wait for. -/
def EntryQuiet (s : State) : Prop :=
  (∀ c, c < 32 → (s.chan c).run = false) ∧ s.kpr.cmd = none ∧ s.kpr.save = none ∧ s.kpr.queue = []
    ∧ s.upd.state ≠ 2 ∧ s.upd.commit = none

theorem chansRest_quiet (s : State) (h : ∀ c, c < 32 → (s.chan c).run = false) : chansRest s = s := by
  have hkeep : ∀ l : List Nat, (∀ c ∈ l, c < 32) → l.foldl chanStops s = s := by
    intro l hl
    induction l with
    | nil => rfl
    | cons c l ih =>
      have hstay : chanStops s c = s := by simp [chanStops, h c (hl c (List.mem_cons_self ..))]
      rw [List.foldl_cons, hstay]
      exact ih fun d hd => hl d (List.mem_cons_of_mem _ hd)
  exact hkeep (upTo 32) fun c hc => by simpa [upTo] using hc

theorem startEntry_quiet {s : State} (h : EntryQuiet s) (m : Mode) : s.startEntry m = (entryRuns m s).goDown m := by
  obtain ⟨hchan, hcmd, hsave, hqueue, hstate, hcommit⟩ := h
  have hany : (upTo 32).any (fun c => ((entryRuns m s).chan c).run) = false := by
    rw [List.any_eq_false]
    intro c hc
    have : (s.chan c).run = false := hchan c (by simpa [upTo] using hc)
    exact Bool.eq_false_iff.1 this
  have hidle : (entryRuns m s).keeperIdle = true := by
    simp [State.keeperIdle, entryRuns, hcmd, hsave, hqueue, hstate, hcommit]
  rw [startEntry_eq, chansRest_quiet (entryRuns m s) hchan]
  simp only [State.tryDoze, show (entryRuns m s).sys.entry = some ⟨m, none⟩ from rfl, hany, hidle]
  rfl

theorem startEntry_down {s : State} (h : EntryQuiet s) {m : Mode} (hm : m = .doze ∨ m = .dormant) :
    WentDown m s (s.startEntry m) ∧ (s.startEntry m).sys.resetReq = s.sys.resetReq := by
  rw [startEntry_quiet h]
  exact goDown_down (entryRuns m s) hm

/-- An entry waits for a channel that goes on and for what the Keeper holds. -/
theorem tryDoze_busy {s : State} (h : s.kpr.cmd ≠ none ∨ s.kpr.queue ≠ [] ∨ ∃ c, c < 32 ∧ (s.chan c).run = true) :
    s.tryDoze = s := by
  have hbusy : ((upTo 32).any (fun c => (s.chan c).run) || !s.keeperIdle) = true := by
    rcases h with h | h | ⟨c, hc, hr⟩
    · simp [State.keeperIdle, Option.isNone_eq_false_iff.2 (Option.isSome_iff_ne_none.2 h)]
    · simp [State.keeperIdle, h]
    · rw [Bool.or_eq_true, List.any_eq_true]
      exact .inl ⟨c, by simpa [upTo] using hc, hr⟩
  simp only [State.tryDoze]
  split
  · rw [if_pos hbusy]
  · rfl

end Sys2Proof

/-! SUPPORT. O56: the requests for Doze and Dormant, the wakes that leave the islands as they are, and the slow writes of the
always-on island (R28, R65 to R68, R374). -/

namespace Sys2Proof

open Machine

/-! ### Requests for Doze and Dormant -/

theorem Sleeps.target {s : State} {m : Mode} (h : Sleeps s m) : (m = .doze ∨ m = .dormant) ∧ m ≠ s.sys.mode := by
  rcases h with ⟨hs, rfl⟩ | ⟨hs | hs | hs, rfl⟩ <;> rw [hs] <;> decide

theorem modeChange_sleeps {m : Mode} (hm : m = .doze ∨ m = .dormant) (s : State) : modeChange m s = s.startEntry m := by
  rcases hm with rfl | rfl <;> rfl

section
variable {id : Id} {v : Word} {s : State}

theorem exec_modeRequest_sleeps (h : Lands id 0x500F0104 v s) (hc : 2 ≤ fld v 0 3) (hs : Sleeps s (modeOf (fld v 0 3))) :
    ∃ x, exec (.modeRequest id v) s = .next ((withSame s x).startEntry (modeOf (fld v 0 3))).settle := by
  obtain ⟨hm, hne⟩ := hs.target
  obtain ⟨x, hx⟩ := exec_modeRequest_granted h hc hne ((allows_iff s _).2 (.inr (.inr hs)))
  exact ⟨x, by rw [hx, modeChange_sleeps hm]⟩

/-- Where nothing runs that it waits for, the entry goes through at once. -/
theorem modeRequest_down (h : Lands id 0x500F0104 v s) (hc : 2 ≤ fld v 0 3) (hs : Sleeps s (modeOf (fld v 0 3)))
    (hq : EntryQuiet s) : After (.modeRequest id v) s (WentDown (modeOf (fld v 0 3)) s) := by
  obtain ⟨x, hx⟩ := exec_modeRequest_sleeps h hc hs
  obtain ⟨hdown, hreset⟩ := startEntry_down (s := withSame s x) hq hs.target.1
  rw [settle_settled _ ⟨hreset.trans h.settled.1, hdown.2.1⟩] at hx
  exact ⟨_, hx, hdown⟩

/-- An entry that has to wait for a channel or for the Keeper. -/
theorem modeRequest_waits (h : Lands id 0x500F0104 v s) (hc : 2 ≤ fld v 0 3) (hs : Sleeps s (modeOf (fld v 0 3))) :
    let goes (c : Nat) : Bool := (s.chan c).run && !(s.chan c).lockw && (s.chan c).desc.isSome
    s.kpr.cmd ≠ none ∨ s.kpr.queue ≠ [] ∨ (∃ c, c < 32 ∧ goes c = true) → After (.modeRequest id v) s fun s' =>
      s'.sys = { s.sys with entry := some ⟨modeOf (fld v 0 3), none⟩ } ∧ (∀ c, c < 32 → (s'.chan c).run = goes c) ∧ RegsBut [] s s'
      ∧ OnlyIn [.sys, .chans, .regs] s s' := by
  intro goes hbusy
  obtain ⟨x, hx⟩ := exec_modeRequest_sleeps h hc hs
  have ho := chansRest_only (entryRuns (modeOf (fld v 0 3)) (withSame s x))
  have hrun (c : Nat) (hc : c < 32) : ((chansRest (entryRuns (modeOf (fld v 0 3)) (withSame s x))).chan c).run = goes c := by
    rw [chansRest_chan _ hc, chanRests_run]
    rfl
  have hkpr := ho .kpr (by simp)
  have htry : (chansRest (entryRuns (modeOf (fld v 0 3)) (withSame s x))).tryDoze =
      chansRest (entryRuns (modeOf (fld v 0 3)) (withSame s x)) := by
    refine tryDoze_busy (hbusy.imp (fun hb => ?_) (Or.imp (fun hb => ?_) fun ⟨c, hc, hg⟩ => ⟨c, hc, (hrun c hc).trans hg⟩))
    · rw [hkpr]; exact hb
    · rw [hkpr]; exact hb
  have hreset : (chansRest (entryRuns (modeOf (fld v 0 3)) (withSame s x))).sys.resetReq = false := by
    rw [ho.sys (by simp)]
    exact h.settled.1
  rw [startEntry_eq, htry, State.settle, hreset, if_neg Bool.false_ne_true, htry] at hx
  exact ⟨_, hx, ho.sys (by simp), hrun, fun a _ => State.reg_of_regs s _ (ho.regs (by simp)) a,
    ((withSame_only s x).mono (by simp)).trans (((setSys_only _ _).mono (by simp)).trans (ho.mono (by simp)))⟩

end

/-! ### The wait of an accepted entry for its response (R374) -/

theorem exec_dozeEntryStart {s : State} {m : Mode} {c : Nat} {w : DrWait} (he : s.sys.entry = some ⟨m, some c⟩)
    (hw : s.agent.dozeDue = some w) : exec .dozeEntryStart s = .next (if w.over then s.startEntry m
      else if w.src == .chain then (s.atCycle c).startEntry m else s) := by
  show execDozeEntryStart s = _
  simp only [execDozeEntryStart, he, hw]

theorem dozeEntryStart_over {s : State} {c : Nat} {w : DrWait} (he : s.sys.entry = some ⟨.doze, some c⟩)
    (hw : s.agent.dozeDue = some w) (hl : w.left = 0) (ha : w.aon = 0) (hq : EntryQuiet s) :
    After .dozeEntryStart s (WentDown .doze s) := by
  refine ⟨_, exec_dozeEntryStart he hw, ?_⟩
  rw [if_pos (by simp [DrWait.over, hl, ha])]
  exact (startEntry_down hq (.inl rfl)).1

theorem dozeEntryStart_waits {s : State} {c : Nat} {w : DrWait} (he : s.sys.entry = some ⟨.doze, some c⟩)
    (hw : s.agent.dozeDue = some w) (hl : w.left ≠ 0) (hsrc : w.src = .lrp) : After .dozeEntryStart s (· = s) := by
  refine ⟨_, exec_dozeEntryStart he hw, ?_⟩
  rw [if_neg (by simp [DrWait.over, hl]), if_neg (by simp [hsrc])]

/-! ### Wakes that move no island (R65 to R68) -/

/-- A wake event ends an entry that is still in progress. -/
theorem wake_aborts {s : State} {x : DozeEntry} (he : s.sys.entry = some x) (hd : s.sys.mode ≠ .doze) (hn : s.sys.mode ≠ .dormant)
    {src : WakeSource} (ho : s.wakeOn src = true) :
    s.wake src = ({ s with sys := { s.sys with entry := none } } : State).setFlag aMode 10 := by
  cases hm : s.sys.mode
  case doze => exact absurd hm hd
  case dormant => exact absurd hm hn
  all_goals simp [State.wake, ho, hm, he]

theorem wakeEvent_aborts {s : State} {x : DozeEntry} {slot : Fin 32} (he : s.sys.entry = some x) (hd : s.sys.mode ≠ .doze)
    (hn : s.sys.mode ≠ .dormant) (hc : bit (s.reg aWakeCfg) 0 = true) (hs : ∃ l ∈ s.slotTasks slot.val, 0x8C0 ∈ l) :
    After (.wakeEvent (.latch slot)) s fun s' =>
      s'.sys = { s.sys with entry := none } ∧ Flagged aMode 10 s s' ∧ RegsBut [aMode] s s' ∧ OnlyIn [.sys, .regs] s s' := by
  refine ⟨_, (exec_wakeEvent_latch s slot hs).trans (congrArg _ (wake_aborts he hd hn hc)), rfl,
    (setFlag_flagged _ aMode 10 (by decide)).of_reg rfl rfl, fun a ha => ?_,
    ((setSys_only s _).mono (by simp)).trans ((setFlag_only _ _ _).mono (by simp))⟩
  rw [setFlag_reg, if_neg (by simpa using ha)]
  rfl

theorem wake_disabled {s : State} {src : WakeSource} (h : s.wakeOn src = false) : s.wake src = s := by
  simp [State.wake, h]

theorem wakeEvent_nothing {s : State} {slot : Fin 32}
    (h : (∀ l ∈ s.slotTasks slot.val, 0x8C0 ∉ l) ∨ bit (s.reg aWakeCfg) 0 = false) : After (.wakeEvent (.latch slot)) s (· = s) := by
  refine ⟨_, rfl, ?_⟩
  dsimp only
  split
  · rename_i hany
    refine wake_disabled (h.resolve_left fun hno => ?_)
    obtain ⟨l, hl, hm⟩ := (Option.any_eq_true _ _).1 hany
    exact hno l hl (by simpa using hm)
  · rfl

theorem wakeTimer_nothing {s : State} (h : s.sys.tmrDue = false ∨ bit (s.reg aWakeCfg) 1 = false) : After .wakeTimer s (· = s) := by
  refine ⟨_, rfl, ?_⟩
  split
  · rename_i hdue
    exact wake_disabled (h.resolve_left fun hno => by simp [hno] at hdue)
  · rfl

/-- While RST_N is low or REFCLK absent a wake leaves its source and nothing else. -/
theorem wakeEvent_held {s : State} {slot : Fin 32} (hm : s.sys.mode = .doze ∨ s.sys.mode = .dormant)
    (hh : s.sys.held = true ∨ s.sys.noRef = true) (hc : bit (s.reg aWakeCfg) 0 = true)
    (hs : ∃ l ∈ s.slotTasks slot.val, 0x8C0 ∈ l) : After (.wakeEvent (.latch slot)) s fun s' =>
      bit (s'.reg aWakeSrc) 0 = true ∧ fld (s'.reg aWakeSrc) 5 5 = slot.val ∧ RegsBut [aWakeSrc] s s' ∧ OnlyIn [.regs] s s' := by
  have hheld : (s.sys.held || s.sys.noRef) = true := by simpa using hh
  have hw : s.wake (.latch slot) = s.wakeRecord (.latch slot) := by
    rcases hm with hm | hm <;> simp [State.wake, State.wakeOn, hc, hm, hheld]
  exact ⟨_, (exec_wakeEvent_latch s slot hs).trans (congrArg _ hw), wakeRecord_latch s slot⟩

/-! ### Slow writes of the always-on island (R28) -/

/-- The oldest slow write is no longer in flight. -/
def aonTaken (ws : List AonWrite) (s : State) : State := ({ s with sys := { s.sys with aon := ws } } : State).aonGone

/-- The value that it leaves. -/
def aonStored (w : AonWrite) (s : State) : State :=
  if w.addr = aCh 8 then { s with sys := { s.sys with keepAddr := fld w.value 0 8 } }
  else if w.addr = 0 then { s with sys := { s.sys with keepSel := w.value.toNat } }
  else match regRow w.addr with
    | some r => s.setReg w.addr (plainWrite r (s.reg w.addr) (s.maskSets r w.addr w.value))
    | none => s

/-- A thread's oldest request that waits for the always-on island is answered. -/
def aonAnswered (t : Thread) : Thread :=
  match t.outst.findIdx? fun q => q.phase == .aon with
  | some n => { t with outst := t.outst.modify n ({ · with phase := .done }) }
  | none => t

theorem aonDone_debug {s : State} {w : AonWrite} {ws : List AonWrite} (h : s.sys.aon = w :: ws) (hi : w.id = none) :
    s.aonDone = aonStored w (aonTaken ws s) := by
  obtain ⟨a, v, i⟩ := w
  subst hi
  rw [State.aonDone, h]
  rfl

theorem aonDone_thread {s : State} {w : AonWrite} {ws : List AonWrite} (h : s.sys.aon = w :: ws) {i : Nat} (hi : w.id = some i) :
    s.aonDone = (aonStored w (aonTaken ws s)).updThr i aonAnswered := by
  obtain ⟨a, v, j⟩ := w
  subst hi
  rw [State.aonDone, h]
  rfl

theorem aonTaken_agent (ws : List AonWrite) (s : State) :
    (aonTaken ws s).agent = { s.agent with resetDue := s.agent.resetDue.map fun x => { x with aon := x.aon - 1 } } := rfl

/-- No reset waits for the write. -/
theorem aonTaken_only (ws : List AonWrite) {s : State} (h : s.agent.resetDue = []) : OnlyIn [.sys] s (aonTaken ws s) := by
  have ha : (aonTaken ws s).agent = s.agent := by
    rw [aonTaken_agent, h, List.map_nil, ← h]
  intro p hp
  by_cases hag : p = .agent
  · subst hag; exact ha
  · cases p <;> first | rfl | exact absurd rfl hag | exact absurd (by simp) hp

theorem aonStored_agent (w : AonWrite) (s : State) : (aonStored w s).agent = s.agent := by
  simp only [aonStored]
  split
  · rfl
  · split
    · rfl
    · split <;> rfl

/-- SYS_WAKETMR takes the whole word (Table 2.12). -/
theorem aonStored_wakeTmr {w : AonWrite} (hw : w.addr = aWakeTmr) (s : State) : aonStored w s = s.setReg aWakeTmr w.value := by
  have hrow : regRow aWakeTmr = some ⟨aWakeTmr, 0, 1, 0xFFFFFFFF, 0, 0⟩ := by decide +kernel
  simp only [aonStored, hw, if_neg (show aWakeTmr ≠ aCh 8 by decide), if_neg (show aWakeTmr ≠ 0 by decide), hrow]
  have hall (i : Nat) (hi : i < 32) : (0xFFFFFFFF : Nat).testBit i = true := by
    rw [show (0xFFFFFFFF : Nat) = 2 ^ 32 - 1 from rfl, Nat.testBit_two_pow_sub_one]
    simpa using hi
  refine congrArg (s.setReg aWakeTmr) (BitVec.eq_of_getLsbD_eq fun i hi => ?_)
  have hb := bit_plainWrite ⟨aWakeTmr, 0, 1, 0xFFFFFFFF, 0, 0⟩ (s.reg aWakeTmr)
    (s.maskSets ⟨aWakeTmr, 0, 1, 0xFFFFFFFF, 0, 0⟩ aWakeTmr w.value) i hi (by decide)
  rw [if_pos (hall i hi), bit_maskSets _ _ _ _ _ hi] at hb
  simpa [bit] using hb

theorem aonWriteDone_wakeTmr {s : State} {w : AonWrite} {ws : List AonWrite} (h : s.sys.aon = w :: ws) (hi : w.id = none)
    (hd : s.agent.resetDue = []) (hw : w.addr = aWakeTmr) : After .aonWriteDone s fun s' =>
      s'.reg aWakeTmr = w.value ∧ s'.sys = { s.sys with aon := ws } ∧ RegsBut [aWakeTmr] s s' ∧ OnlyIn [.regs, .sys] s s' := by
  refine ⟨_, congrArg Host.Outcome.next ((aonDone_debug h hi).trans (aonStored_wakeTmr hw _)), State.setReg_reg_same .., rfl,
    setReg_regsBut (aonTaken ws s) _ _, ?_⟩
  exact ((aonTaken_only ws hd).mono (by simp)).trans ((setReg_only _ _ _).mono (by simp))

theorem aonWriteDone_addr {s : State} {w : AonWrite} {ws : List AonWrite} (h : s.sys.aon = w :: ws) (hi : w.id = none)
    (hd : s.agent.resetDue = []) (hw : w.addr = aCh 8) : After .aonWriteDone s fun s' =>
      s'.sys = { s.sys with aon := ws, keepAddr := fld w.value 0 8 } ∧ OnlyIn [.sys] s s' := by
  have hs (t : State) : aonStored w t = { t with sys := { t.sys with keepAddr := fld w.value 0 8 } } := by
    simp only [aonStored, if_pos hw]
  exact ⟨_, congrArg Host.Outcome.next ((aonDone_debug h hi).trans (hs _)), rfl, (aonTaken_only ws hd).trans (setSys_only _ _)⟩

theorem aonWriteDone_profile {s : State} {w : AonWrite} {ws : List AonWrite} (h : s.sys.aon = w :: ws) (hi : w.id = none)
    (hd : s.agent.resetDue = []) (hw : w.addr = 0) : After .aonWriteDone s fun s' =>
      s'.sys = { s.sys with aon := ws, keepSel := w.value.toNat } ∧ OnlyIn [.sys] s s' := by
  have hs (t : State) : aonStored w t = { t with sys := { t.sys with keepSel := w.value.toNat } } := by
    simp only [aonStored, hw, if_neg (show (0 : Nat) ≠ aCh 8 by decide), if_true]
  exact ⟨_, congrArg Host.Outcome.next ((aonDone_debug h hi).trans (hs _)), rfl, (aonTaken_only ws hd).trans (setSys_only _ _)⟩

theorem aonWriteDone_agent {s : State} {w : AonWrite} {ws : List AonWrite} (h : s.sys.aon = w :: ws) :
    After .aonWriteDone s fun s' =>
      s'.agent = { s.agent with resetDue := s.agent.resetDue.map fun x => { x with aon := x.aon - 1 } } := by
  refine ⟨_, rfl, ?_⟩
  show s.aonDone.agent = _
  have hstored := (aonStored_agent w (aonTaken ws s)).trans (aonTaken_agent ws s)
  cases hi : w.id with
  | none => rw [aonDone_debug h hi, hstored]
  | some i => rw [aonDone_thread h hi, State.updThr_agent, hstored]

theorem aonAnswered_first {t : Thread} {q : FarReq} {qs : List FarReq} (h : t.outst = q :: qs) (hq : q.phase = .aon) :
    aonAnswered t = { t with outst := { q with phase := .done } :: qs } := by
  simp [aonAnswered, h, hq, List.findIdx?_cons]

theorem aonWriteDone_thread {s : State} {w : AonWrite} {ws : List AonWrite} {i : Nat} {q : FarReq} {qs : List FarReq}
    (h : s.sys.aon = w :: ws) (hi : w.id = some i) (hw : w.addr = aWakeTmr) (hd : s.agent.resetDue = [])
    (ht : (s.thr i).outst = q :: qs) (hq : q.phase = .aon) : After .aonWriteDone s fun s' =>
      s'.reg aWakeTmr = w.value ∧ s'.sys = { s.sys with aon := ws }
      ∧ s'.thr i = { s.thr i with outst := { q with phase := .done } :: qs } ∧ ThreadsBut [i] s s'
      ∧ RegsBut [aWakeTmr] s s' ∧ OnlyIn [.regs, .sys, .threads] s s' := by
  have he : s.aonDone = ((aonTaken ws s).setReg aWakeTmr w.value).updThr i aonAnswered := by
    rw [aonDone_thread h hi, aonStored_wakeTmr hw]
  refine ⟨_, congrArg Host.Outcome.next he, State.setReg_reg_same .., rfl, ?_, fun j hj => ?_,
    setReg_regsBut (aonTaken ws s) _ _, ?_⟩
  · rw [State.updThr_thr, if_pos rfl]
    exact aonAnswered_first ht hq
  · rw [State.updThr_thr, if_neg (by simpa using hj)]
    rfl
  · exact (((aonTaken_only ws hd).mono (by simp)).trans ((setReg_only _ _ _).mono (by simp))).trans
      ((setThr_only _ i _).mono (by simp))

end Sys2Proof

/-! SUPPORT. What timers and the passing of time leave of a register that is not theirs (R229, R242, R247, R252). -/

namespace Sys2Proof

open Machine

/-! ### Registers that a timer does not write -/

/-- A raise changes no register but the counter of lost events and the channel's own (R211, R224). -/
theorem raiseIn_reg (s : State) (cyc ch : Nat) (ts : Time64) (route : Bool) (a : Nat) (h1 : a ≠ aHfCnt) (h2 : a ≠ aHfCh ch) :
    (s.raiseIn cyc ch ts route).reg a = s.reg a := by
  simp only [State.raiseIn]
  split
  · rfl
  · split
    · rw [count_reg, if_neg h1]
    · split
      · rfl
      · split
        · rfl
        · rw [count_reg, if_neg h1, setFlag_reg, if_neg h2]; rfl

/-- The register at `a` is none that timer `t` writes: none of its slots', and no channel's that its slots raise while the fabric runs. -/
structure Aside (a t : Nat) (s : State) : Prop where
  slots : ∀ i, i < 4 → a ≠ aSlot t i
  raises : s.running = true → a ≠ aHfCnt ∧ ∀ i, i < 4 → a ≠ aHfCh (128 + 4 * t + i)

/-- What the work of a timer leaves: all but timers and the fabric, and the register at `a`. -/
structure TimerWork (a : Nat) (s t : State) : Prop where
  only : OnlyIn [.regs, .timers, .hinge] s t
  reg : t.reg a = s.reg a

namespace TimerWork

variable {a : Nat} {s t u : State}

theorem refl (a : Nat) (s : State) : TimerWork a s s := ⟨OnlyIn.refl _ s, rfl⟩

theorem trans (h : TimerWork a s t) (h' : TimerWork a t u) : TimerWork a s u := ⟨h.only.trans h'.only, h'.reg.trans h.reg⟩

theorem of_timers (h : OnlyIn [.timers] s t) : TimerWork a s t :=
  ⟨h.mono (by simp), State.reg_of_regs s t (h.regs (by simp)) a⟩

theorem of_note (s : State) (b i : Nat) : TimerWork a s (s.noteSet b i) := ⟨(note_only s _).mono (by simp), rfl⟩

theorem running (h : TimerWork a s t) : t.running = s.running := by rw [State.running, h.only.sys (by simp)]; rfl

theorem aside {n : Nat} (h : TimerWork a s t) (ha : Aside a n s) : Aside a n t :=
  ⟨ha.slots, fun hr => ha.raises (h.running ▸ hr)⟩

end TimerWork

section
variable {a t : Nat} {s : State} (h : Aside a t s)
include h

theorem slotEvent_work {i : Nat} (hi : i < 4) : TimerWork a s (s.slotEvent t i) := by
  refine ⟨slotEvent_only s t i, ?_⟩
  simp only [State.slotEvent]
  split
  · rfl
  · cases hr : s.running
    · simp [State.raiseLater, State.raiseIn, hr]
    · obtain ⟨hcnt, hch⟩ := h.raises hr
      exact raiseIn_reg s _ _ _ _ a hcnt (hch i hi)

theorem setFlag_slot_work {i : Nat} (hi : i < 4) (n : Nat) : TimerWork a s (s.setFlag (aSlot t i) n) :=
  ⟨(setFlag_only s _ _).mono (by simp), by rw [setFlag_reg, if_neg (h.slots i hi)]⟩

theorem slotMatch_work {i : Nat} (hi : i < 4) : TimerWork a s (s.slotMatch t i) := by
  have hu (f : Slot → Slot) : TimerWork a s (s.updSlot t i f) := .of_timers (setTmr_only s t _)
  simp only [State.slotMatch]
  split
  · have hflag (f : Slot → Slot) := (hu f).trans (setFlag_slot_work ((hu f).aside h) hi 6)
    exact (hflag _).trans (slotEvent_work ((hflag _).aside h) hi)
  · exact (hu _).trans (slotEvent_work ((hu _).aside h) hi)

/-- The slots of a timer are gone through one by one. -/
theorem foldl_slots_work (f : State → Nat → State) (hf : ∀ u i, i < 4 → Aside a t u → TimerWork a u (f u i)) :
    TimerWork a s ((upTo 4).foldl f s) :=
  List.foldlRecOn (motive := TimerWork a s) (upTo 4) f (.refl a s) fun _ hu i hi =>
    hu.trans (hf _ i (by simpa [upTo] using hi) (hu.aside h))

theorem afterStep_work (wrap : Bool) : TimerWork a s (s.afterStep t wrap) := by
  have hslots := foldl_slots_work h (fun s i =>
    if s.armedAt t i && ((s.tmr t).slot i).cmp == (s.tmr t).cnt then s.slotMatch t i
    else if wrap && s.smode t i == 3 then s.slotEvent t i else s) fun u i hi hu => by
      split
      · exact slotMatch_work hu hi
      · split
        · exact slotEvent_work hu hi
        · exact .refl a u
  simp only [State.afterStep]
  split
  · exact hslots
  · exact (hslots.trans (.of_timers (setTmr_only _ t _))).trans (.of_note _ _ _)

theorem steps_work (n : Nat) : TimerWork a s (s.steps t n) := by
  induction n generalizing s with
  | zero => exact .refl a s
  | succ n ih =>
    simp only [State.steps]
    split
    · exact .refl a s
    · have hset : TimerWork a s (s.setTmr t ((s.tmr t).step1 (s.tmrMode t)).1) := .of_timers (setTmr_only s t _)
      have hstep (w : Bool) := hset.trans (afterStep_work (hset.aside h) w)
      exact (hstep _).trans (ih ((hstep _).aside h))

theorem takeSteps_work : TimerWork a s (s.takeSteps t) := by
  have hset : TimerWork a s (s.setTmr t { s.tmr t with steps := 0 }) := .of_timers (setTmr_only s t _)
  simp only [State.takeSteps]
  split
  · have hupd (f : Timer → Timer) : TimerWork a s ((s.setTmr t { s.tmr t with steps := 0 }).updTmr t f) :=
      hset.trans (.of_timers (setTmr_only _ t _))
    exact (hupd _).trans (steps_work ((hupd _).aside h) _)
  · exact hset

theorem jumpTo_work (new : BitVec 48) : TimerWork a s (s.jumpTo t new) := by
  have hupd : TimerWork a s (s.updTmr t ({ · with cnt := new })) := .of_timers (setTmr_only s t _)
  simp only [State.jumpTo]
  split
  · exact hupd
  · refine hupd.trans (foldl_slots_work (hupd.aside h) _ fun u i hi hu => ?_)
    split
    · exact slotMatch_work hu hi
    · exact .refl a u

theorem lfcap_work : TimerWork a s (s.lfcap t) := by
  have hi : s.lfSlot t < 4 := Nat.mod_lt _ (by decide)
  have hu (f : Slot → Slot) : TimerWork a s (s.updSlot t (s.lfSlot t) f) := .of_timers (setTmr_only s t _)
  simp only [State.lfcap, State.capture, State.captureOf]
  split
  · exact .refl a s
  · split
    · exact (hu _).trans (slotEvent_work ((hu _).aside h) hi)
    · exact (hu _).trans (slotEvent_work ((hu _).aside h) hi)
    · exact setFlag_slot_work h hi 9

end

theorem endCycle_work {a : Nat} {s : State} (h : ∀ t, Aside a t s) : TimerWork a s s.endCycle :=
  foldl_keeps (TimerWork a s) _ _ s (.refl a s) fun _ t hu => hu.trans (takeSteps_work (hu.aside (h t)))

theorem lfEnd_work {a : Nat} {s : State} (h : ∀ t, t < 32 → Aside a t s) : TimerWork a s s.lfEnd := by
  refine List.foldlRecOn (motive := TimerWork a s) (upTo 32) _ (.refl a s) fun u hu t ht => hu.trans ?_
  have ha : Aside a t u := hu.aside (h t (by simpa [upTo] using ht))
  split
  · split
    · exact .of_timers (setTmr_only u t _)
    · exact .refl a u
  · have hupd : TimerWork a u (u.updTmr t (·.begin u.cycle)) := .of_timers (setTmr_only u t _)
    exact hupd.trans (jumpTo_work (hupd.aside ha) _)
  · exact .refl a u

/-! ### Registers while time passes -/

theorem passBy_keeps (s : State) (n : Nat) : OnlyIn [.cycle, .tb, .tum] s (s.passBy n) := by
  simp only [State.passBy]
  split
  · exact OnlyIn.refl _ s
  · intro p hp; cases p <;> first | rfl | exact absurd (by simp) hp

theorem passBy_reg (s : State) (n a : Nat) : (s.passBy n).reg a = s.reg a :=
  State.reg_of_regs s _ ((passBy_keeps s n).regs (by simp)) a

end Sys2Proof

/-! SUPPORT. O56: the wake from Doze (R67, R231, Table 2.16), and the obligation. -/

namespace Sys2Proof

open Machine

/-! ### The pad island's power-up (R231) -/

theorem setSync_reg (s : State) (b : Bool) (a : Nat) (h : a ≠ aTbStat) (h1 : a ≠ aHfCnt) (h2 : a ≠ aHfCh 580) :
    (s.setSync b).reg a = s.reg a := by
  simp only [State.setSync]
  split
  · rfl
  · rw [raise_reg _ _ _ h1 h2, State.setRegFld, State.setReg_reg, if_neg h]

theorem setTb_only (s : State) (x : BitVec 88) : OnlyIn [.tb] s { s with tb := x } := by
  intro p hp; cases p <;> first | rfl | exact absurd (by simp) hp

theorem padUp_reg (s : State) (a : Nat) (h : a ≠ aTbStat) (h1 : a ≠ aHfCnt) (h2 : a ≠ aHfCh 580) : s.padUp.reg a = s.reg a := by
  rw [State.padUp, State.setRegFld, State.setReg_reg, if_neg h, setSync_reg _ _ a h h1 h2]
  exact State.reg_of_regs s _ ((setTb_only s _).regs (by simp)) a

/-- TB_STAT.SYNC is 0, LF is 1. -/
theorem padUp_tbStat (s : State) : bit (s.padUp.reg aTbStat) 31 = false ∧ bit (s.padUp.reg aTbStat) 17 = true := by
  have hsync (t : State) : bit ((t.setSync false).reg aTbStat) 31 = false := by
    simp only [State.setSync]
    split
    · assumption
    · rw [raise_reg _ _ _ (by decide) (by decide), State.setRegFld, State.setReg_reg_same, testBit_setFld _ _ _ _ _ (by decide),
        if_pos (by decide)]
      rfl
  simp only [State.padUp, State.setRegFld, State.setReg_reg_same]
  rw [testBit_setFld _ _ _ _ _ (by decide), testBit_setFld _ _ _ _ _ (by decide), if_neg (by decide), if_pos (by decide)]
  exact ⟨hsync _, rfl⟩

theorem passUp_reg (s : State) (n a : Nat) (h : a ≠ aTbStat) (h1 : a ≠ aHfCnt) (h2 : a ≠ aHfCh 580) :
    (s.passUp n).reg a = s.reg a := by
  simp only [State.passUp]
  split
  · exact passBy_reg s n a
  · rw [passBy_reg, padUp_reg _ a h h1 h2, passBy_reg]

theorem Aside.of_sys {a n : Nat} {s t : State} (h : Aside a n s) (hs : t.sys = s.sys) : Aside a n t :=
  ⟨h.slots, fun hr => h.raises (by rw [← hr, State.running, State.running, hs])⟩

/-- An LFCAP report that lands is no longer due. -/
def lfcapTaken (x : Nat × Nat) (s : State) : State := { s with hinge := { s.hinge with lfdue := s.hinge.lfdue.erase x } }

theorem landLfcap_eq (s : State) (x : Nat × Nat) : s.landLfcap x = (lfcapTaken x (s.passUp (x.2 - s.cycle))).lfcap x.1 := rfl

theorem lfcapTaken_only (x : Nat × Nat) (s : State) : OnlyIn [.hinge] s (lfcapTaken x s) := setHinge_only s _

/-- A register of neither timers nor the pad island's power-up keeps its word while time passes. -/
theorem pass_reg {s : State} {a : Nat} (h : ∀ t, Aside a t s) (ht : a ≠ aTbStat) (h1 : a ≠ aHfCnt) (h2 : a ≠ aHfCh 580) (n : Nat) :
    (s.pass n).reg a = s.reg a := by
  have hland (x : Nat × Nat) (u : State) (hu : u.sys = s.sys) : (u.landLfcap x).reg a = u.reg a := by
    have htaken := lfcapTaken_only x (u.passUp (x.2 - u.cycle))
    have hsys : (lfcapTaken x (u.passUp (x.2 - u.cycle))).sys = s.sys := by
      rw [htaken.sys (by simp), (passUp_only u _).sys (by simp [timeParts]), hu]
    rw [landLfcap_eq, (lfcap_work ((h x.1).of_sys hsys)).reg, State.reg_of_regs _ _ (htaken.regs (by simp)),
      passUp_reg u _ a ht h1 h2]
  simp only [State.pass]
  split
  · rfl
  · rw [passUp_reg _ _ a ht h1 h2]
    have hend := endCycle_work h
    refine (List.foldlRecOn (motive := fun t => t.sys = s.sys ∧ t.reg a = s.reg a) _ _
      ⟨hend.only.sys (by simp), hend.reg⟩ fun u hu x _ => ⟨?_, (hland x u hu.1).trans hu.2⟩).2
    exact ((landLfcap_only u x).sys (by simp [timeParts])).trans hu.1

/-- The pad island's power-up at cycle `c` lies ahead, or TB_STAT shows it. -/
def PadsRise (c : Nat) (s : State) : Prop :=
  s.sys.upAt = c ∧ (s.cycle < c ∨ (bit (s.reg aTbStat) 31 = false ∧ bit (s.reg aTbStat) 17 = true))

theorem tbStat_aside (t : Nat) (s : State) : Aside aTbStat t s where
  slots i hi := by simp only [aTbStat, aSlot, aTmr]; omega
  raises _ := ⟨by decide, fun i _ => by simp only [aTbStat, aHfCh]; omega⟩

theorem PadsRise.of_work {c : Nat} {s t : State} (h : PadsRise c s) (hw : TimerWork aTbStat s t) : PadsRise c t := by
  have hcycle : t.cycle = s.cycle := hw.only .cycle (by simp)
  rw [PadsRise, hw.only.sys (by simp), hcycle, hw.reg]
  exact h

theorem PadsRise.passUp {c : Nat} {s : State} (h : PadsRise c s) (n : Nat) : PadsRise c (s.passUp n) := by
  obtain ⟨hup, hrise⟩ := h
  refine ⟨by rw [(passUp_only s n).sys (by simp [timeParts])]; exact hup, ?_⟩
  rw [passUp_cycle]
  have hu : s.untilUp = c - s.cycle := by rw [State.untilUp, hup]
  simp only [State.passUp, hu]
  split
  · rw [passBy_reg]
    exact hrise.imp_left (by omega)
  · rw [passBy_reg]
    exact .inr (padUp_tbStat _)

theorem PadsRise.of_hinge {c : Nat} {s t : State} (h : PadsRise c s) (ho : OnlyIn [.hinge] s t) : PadsRise c t := by
  have hcycle : t.cycle = s.cycle := ho .cycle (by simp)
  rw [PadsRise, ho.sys (by simp), hcycle, State.reg_of_regs s t (ho.regs (by simp))]
  exact h

theorem PadsRise.landLfcap {c : Nat} {s : State} (h : PadsRise c s) (x : Nat × Nat) : PadsRise c (s.landLfcap x) :=
  landLfcap_eq s x ▸ ((h.passUp _).of_hinge (lfcapTaken_only x _)).of_work (lfcap_work (tbStat_aside _ _))

theorem PadsRise.pass {c : Nat} {s : State} (h : PadsRise c s) (n : Nat) : PadsRise c (s.pass n) := by
  simp only [State.pass]
  split
  · exact h
  · exact (foldl_keeps (PadsRise c) _ _ _ (h.of_work (endCycle_work fun t => tbStat_aside t s)) fun _ x hu => hu.landLfcap x).passUp _

/-! ### The power-ups that a wake queues (R60, R67) -/

/-- The power-up of engine `k` is queued for the fabric cycle `c`. -/
def QueuedFor (c k : Nat) (g : List GovReq) : Prop := ∃ q ∈ g, q.eng = k ∧ q.powerUp = true ∧ q.since = c

theorem mem_govInsert_other {r q : GovReq} {g : List GovReq} (h : q ∈ g) (hne : q.eng ≠ r.eng) : q ∈ govInsert r g := by
  induction g with
  | nil => cases h
  | cons x g ih =>
    simp only [govInsert]
    rcases List.mem_cons.1 h with rfl | hm
    · rw [if_neg hne]
      split
      · exact List.mem_cons_of_mem _ (List.mem_cons_self ..)
      · exact List.mem_cons_self ..
    · split
      · exact List.mem_cons_of_mem _ hm
      · split
        · exact List.mem_cons_of_mem _ (List.mem_cons_of_mem _ hm)
        · exact List.mem_cons_of_mem _ (ih hm)

theorem govInsert_self (r : GovReq) (g : List GovReq) (h : r.powerUp = true) :
    ∃ q ∈ govInsert r g, q.eng = r.eng ∧ q.powerUp = true := by
  induction g with
  | nil => exact ⟨r, List.mem_singleton_self r, rfl, h⟩
  | cons x g ih =>
    simp only [govInsert]
    split
    · rename_i he
      exact ⟨_, List.mem_cons_self .., he, by simp [h]⟩
    · split
      · exact ⟨r, List.mem_cons_self .., rfl, h⟩
      · obtain ⟨q, hq, hp⟩ := ih
        exact ⟨q, List.mem_cons_of_mem _ hq, hp⟩

/-- The power-up of engine `k` is queued for the fabric cycle `c`, one of the steps of `govQueueAt`. -/
def queuePowerUp (c : Nat) (s : State) (k : Nat) : State :=
  let s := (s.govQueue k true false).setRegFld aEngPwr (2 * k) 2 2
  { s with sys := { s.sys with gov := s.sys.gov.map fun q => if q.eng = k then { q with since := c } else q } }

theorem govQueueAt_eq (s : State) (ks : List Nat) (c : Nat) : s.govQueueAt ks c = ks.foldl (queuePowerUp c) s := rfl

theorem queuePowerUp_queued (c : Nat) (s : State) (k : Nat) : Queued s (queuePowerUp c s k) :=
  ((govQueue_queued s k true false).trans (setRegFld_engPwr_queued _ _ _ _)).trans
    ⟨(setSys_only _ _).mono (by simp), fun _ _ => rfl, _, rfl⟩

theorem queuePowerUp_self (c : Nat) (s : State) (k : Nat) : QueuedFor c k (queuePowerUp c s k).sys.gov := by
  obtain ⟨q, hq, he, hp⟩ := govInsert_self ⟨k, true, false, s.cycle⟩ s.sys.gov rfl
  have he' : q.eng = k := he
  exact ⟨_, List.mem_map_of_mem hq, by rw [if_pos he']; exact ⟨he', hp, rfl⟩⟩

theorem queuePowerUp_other {c k : Nat} {s : State} (h : QueuedFor c k s.sys.gov) {j : Nat} (hj : k ≠ j) :
    QueuedFor c k (queuePowerUp c s j).sys.gov := by
  obtain ⟨q, hq, he, hp⟩ := h
  have hne : q.eng ≠ j := he ▸ hj
  have hm := List.mem_map_of_mem (f := fun q : GovReq => if q.eng = j then { q with since := c } else q)
    (mem_govInsert_other (r := ⟨j, true, false, s.cycle⟩) hq hne)
  exact ⟨_, hm, by simp only [if_neg hne]; exact ⟨he, hp⟩⟩

theorem govQueueAt_queued (s : State) (ks : List Nat) (c : Nat) :
    Queued s (s.govQueueAt ks c) ∧ ∀ k ∈ ks, QueuedFor c k (s.govQueueAt ks c).sys.gov := by
  have hkeep (ks : List Nat) (s : State) (k : Nat) (h : QueuedFor c k s.sys.gov) :
      QueuedFor c k (ks.foldl (queuePowerUp c) s).sys.gov :=
    foldl_keeps (fun t => QueuedFor c k t.sys.gov) _ ks s h fun t j ht => by
      by_cases hj : k = j
      · subst hj; exact queuePowerUp_self c t k
      · exact queuePowerUp_other ht hj
  rw [govQueueAt_eq]
  refine ⟨foldl_keeps (Queued s) _ _ s (.refl s) fun t k ht => ht.trans (queuePowerUp_queued c t k), ?_⟩
  induction ks generalizing s with
  | nil => nofun
  | cons j ks ih =>
    intro k hk
    rcases List.mem_cons.1 hk with rfl | hm
    · exact hkeep ks _ k (queuePowerUp_self c s k)
    · exact ih (queuePowerUp c s j) k hm

/-! ### The wake from Doze (R67, Table 2.16) -/

/-- The fabric runs again: the timebase takes the fabric copy, the Keeper scans, the pad island comes 100 fabric cycles later. -/
def fabricUp (s : State) : State :=
  { s with tb := BitVec.ofNat 88 (s.tb.toNat / 2 ^ 32 * 2 ^ 32)
           sys := { s.sys with dozeOn := [], tmrDue := false, upAt := s.cycle + 100 }
           kpr := { s.kpr with scan := true } }

theorem fabricUp_sys (s : State) : (fabricUp s).sys = { s.sys with dozeOn := [], tmrDue := false, upAt := s.cycle + 100 } := rfl

theorem fabricUp_scan (s : State) : (fabricUp s).kpr.scan = true := rfl

theorem setWake_only (s : State) (x : BitVec 88) (y : Sys) (k : Keeper) :
    OnlyIn [.tb, .sys, .kpr] s { s with tb := x, sys := y, kpr := k } := by
  intro p hp; cases p <;> first | rfl | exact absurd (by simp) hp

theorem fabricUp_only (s : State) : OnlyIn [.tb, .sys, .kpr] s (fabricUp s) := setWake_only s _ _ _

/-- LF running ends in Preparation. -/
def lfOver (s : State) : State := (((s.setMode .preparation).gateOn).setReg aCal 0).lfEnd

theorem wakeDoze_eq (s : State) : s.wakeDoze = (lfOver (fabricUp (s.pass 100))).stepSched.govQueueAt (s.pass 100).sys.dozeOn
    ((lfOver (fabricUp (s.pass 100))).cycle + 100) := rfl

theorem stepSched_only (s : State) : OnlyIn [.chain] s s.stepSched := by
  simp only [State.stepSched]
  split
  · exact OnlyIn.refl _ s
  · split
    · intro p hp; cases p <;> first | rfl | exact absurd (by simp) hp
    · exact OnlyIn.refl _ s

theorem wakeSrc_slots (t i : Nat) (_ : i < 4) : aWakeSrc ≠ aSlot t i := by simp only [aWakeSrc, aSlot, aTmr]; omega

/-- The timers of the unit raise channels whose registers lie below SYS_WAKESRC. -/
theorem wakeSrc_aside {t : Nat} (ht : t < 32) (s : State) : Aside aWakeSrc t s :=
  ⟨wakeSrc_slots t, fun _ => ⟨by decide, fun i hi => by simp only [aWakeSrc, aHfCh]; omega⟩⟩

theorem lfOver_over (s : State) : OnlyIn [.regs, .sys, .hinge, .shk, .ecc, .pads, .timers] s (lfOver s)
    ∧ (∃ b, (lfOver s).sys = { s.sys with mode := .preparation, entry := none, gate := true, gatePend := b })
    ∧ (lfOver s).reg aWakeSrc = s.reg aWakeSrc := by
  have ht := setMode_transition s .preparation
  have hg := gateOn_only (s.setMode .preparation)
  obtain ⟨b, hb⟩ := gateOn_sys (s.setMode .preparation)
  have hend := lfEnd_work (a := aWakeSrc) (s := ((s.setMode .preparation).gateOn).setReg aCal 0) fun t h => wakeSrc_aside h _
  refine ⟨(((ht.only.mono (by simp)).trans (hg.mono (by simp))).trans ((setReg_only _ _ _).mono (by simp))).trans
    (hend.only.mono (by simp)), ⟨b, ?_⟩, ?_⟩
  · rw [lfOver, hend.only.sys (by simp), State.setReg_sys, hb, ht.sys]
  · rw [lfOver, hend.reg, State.setReg_reg, if_neg (by decide), State.reg_of_regs _ _ (hg.regs (by simp)), ht.regs _ (by decide)]

/-- The unit has woken from Doze: in Preparation half a microsecond on, and half a microsecond later with its pad island up. -/
def WokenUp (s s' : State) : Prop :=
  s'.sys.mode = .preparation ∧ s'.cycle = s.cycle + 100 ∧ s'.sys.dozeOn = []
    ∧ s'.kpr.scan = true ∧ s'.sys.upAt = s.cycle + 200 ∧ bit ((s'.pass 100).reg aTbStat) 31 = false
    ∧ bit ((s'.pass 100).reg aTbStat) 17 = true ∧ (s'.pass 100).islesUp = true
    ∧ (∀ k ∈ s.sys.dozeOn, k < 16 → ∃ q ∈ s'.sys.gov, q.eng = k ∧ q.powerUp = true ∧ q.since = s.cycle + 200)
    ∧ s'.pins = s.pins ∧ SameMemory s s'

/-- The pad island is up 100 fabric cycles after a wake that put it so far ahead. -/
theorem pass_islesUp {s : State} (hr : s.running = true) (hu : s.sys.upAt = s.cycle + 100) :
    bit ((s.pass 100).reg aTbStat) 31 = false ∧ bit ((s.pass 100).reg aTbStat) 17 = true ∧ (s.pass 100).islesUp = true := by
  obtain ⟨hup, hrise⟩ := PadsRise.pass (c := s.cycle + 100) (s := s) ⟨hu, .inl (by omega)⟩ 100
  have hcycle := pass_cycle s 100
  obtain ⟨h31, h17⟩ := hrise.resolve_left (by omega)
  have hrun : (s.pass 100).running = true := by
    rw [State.running, (pass_only s 100).sys (by simp [timeParts])]
    exact hr
  refine ⟨h31, h17, ?_⟩
  simp [State.islesUp, hrun, State.untilUp, hup, hcycle]

theorem wakeDoze_wokenUp {s : State} (hm : s.sys.mode = .doze) (hh : s.sys.held = false) (hn : s.sys.noRef = false)
    (hp : s.sys.porLow = false) : WokenUp s s.wakeDoze ∧ s.wakeDoze.reg aWakeSrc = s.reg aWakeSrc := by
  have hpass := pass_only s 100
  have hcycle := pass_cycle s 100
  have hpsys : (s.pass 100).sys = s.sys := hpass.sys (by simp [timeParts])
  have hfab := fabricUp_only (s.pass 100)
  obtain ⟨hover, ⟨b, hosys⟩, hosrc⟩ := lfOver_over (fabricUp (s.pass 100))
  have hsched := stepSched_only (lfOver (fabricUp (s.pass 100)))
  obtain ⟨hqueued, hall⟩ := govQueueAt_queued (lfOver (fabricUp (s.pass 100))).stepSched (s.pass 100).sys.dozeOn
    ((lfOver (fabricUp (s.pass 100))).cycle + 100)
  rw [← wakeDoze_eq] at hqueued hall
  obtain ⟨g, hg⟩ := hqueued.sys
  have hocycle : (lfOver (fabricUp (s.pass 100))).cycle = s.cycle + 100 := by
    rw [hover .cycle (by simp), hfab .cycle (by simp), hcycle]
  have hwcycle : s.wakeDoze.cycle = s.cycle + 100 := by
    rw [hqueued.only .cycle (by simp), hsched .cycle (by simp), hocycle]
  have hsys : s.wakeDoze.sys = { s.sys with
      mode := .preparation, entry := none, gate := true, gatePend := b, gov := g, dozeOn := [], tmrDue := false
      upAt := s.cycle + 200 } := by
    rw [hg, hsched.sys (by simp), hosys]
    rw [fabricUp_sys, hpsys, hcycle]
  have hrun : s.wakeDoze.running = true := by simp [State.running, hsys, hh, hn, hp]
  obtain ⟨h31, h17, hisles⟩ := pass_islesUp hrun (by rw [hsys, hwcycle])
  have hkpr : s.wakeDoze.kpr.scan = true := by
    rw [hqueued.only .kpr (by simp), hsched .kpr (by simp), hover .kpr (by simp), fabricUp_scan]
  have hpins : s.wakeDoze.pins = s.pins := by
    rw [hqueued.only .pins (by simp), hsched .pins (by simp), hover .pins (by simp),
      hfab .pins (by simp), hpass .pins (by simp [timeParts])]
  have hmem : s.wakeDoze.mem = s.mem := by
    rw [hqueued.only.mem (by simp), hsched.mem (by simp), hover.mem (by simp), hfab.mem (by simp),
      hpass.mem (by simp [timeParts])]
  refine ⟨⟨by rw [hsys], hwcycle, by rw [hsys], hkpr, by rw [hsys], h31, h17, hisles, fun k hk _ => ?_, hpins,
    fun a => by rw [hmem]⟩, ?_⟩
  · have hk' := hall k (by rw [hpsys]; exact hk)
    rw [hocycle] at hk'
    exact hk'
  · have hidle (t : Nat) : Aside aWakeSrc t s := ⟨wakeSrc_slots t, fun hr => by simp [State.running, hm] at hr⟩
    rw [hqueued.regs _ (by decide), State.reg_of_regs _ _ (hsched.regs (by simp)), hosrc,
      State.reg_of_regs _ _ (hfab.regs (by simp)), pass_reg hidle (by decide) (by decide) (by decide)]

theorem wake_doze {s : State} (hm : s.sys.mode = .doze) (hh : s.sys.held = false) (hn : s.sys.noRef = false) {src : WakeSource}
    (ho : s.wakeOn src = true) : s.wake src = (s.wakeRecord src).wakeDoze := by
  simp [State.wake, ho, hm, hh, hn]

theorem wake_latch_wokenUp {s : State} (hm : s.sys.mode = .doze) (hh : s.sys.held = false) (hn : s.sys.noRef = false)
    (hp : s.sys.porLow = false) (hc : bit (s.reg aWakeCfg) 0 = true) (slot : Fin 32) :
    WokenUp s (s.wake (.latch slot)) ∧ bit ((s.wake (.latch slot)).reg aWakeSrc) 0 = true
      ∧ fld ((s.wake (.latch slot)).reg aWakeSrc) 5 5 = slot.val := by
  obtain ⟨hbit, hfld, -, -⟩ := wakeRecord_latch s slot
  obtain ⟨hup, hsrc⟩ := wakeDoze_wokenUp (s := s.wakeRecord (.latch slot)) hm hh hn hp
  rw [wake_doze (src := .latch slot) hm hh hn hc, hsrc]
  exact ⟨hup, hbit, hfld⟩

theorem wake_timer_wokenUp {s : State} (hm : s.sys.mode = .doze) (hh : s.sys.held = false) (hn : s.sys.noRef = false)
    (hp : s.sys.porLow = false) (hc : bit (s.reg aWakeCfg) 1 = true) :
    WokenUp s (s.wake .timer) ∧ bit ((s.wake .timer).reg aWakeSrc) 1 = true := by
  obtain ⟨hup, hsrc⟩ := wakeDoze_wokenUp (s := s.wakeRecord .timer) hm hh hn hp
  rw [wake_doze (src := .timer) hm hh hn hc, hsrc]
  exact ⟨hup, (wakeRecord_timer s).1⟩

/-! ### The obligation -/

/-- Settles O56, clause by clause: the requests of Table 2.13 (`allows_iff`), the entry and what the islands become
(`goDown_down`), the wakes (`wakeDoze_wokenUp`), the slow writes of the always-on island. -/
theorem modes : Obligations.Modes := by
  unfold Obligations.Modes
  intro id v slot s
  refine ⟨fun ⟨hl, hc, _⟩ hm => modeRequest_same hl hc hm, fun ⟨hl, hc, h6⟩ hm => modeRequest_moves hl hc h6 hm,
    fun ⟨hl, hc, h6⟩ hm h7 => modeRequest_halts hl hc h6 hm h7,
    fun ⟨hl, hc, _⟩ hne hm hh hs => modeRequest_refused hl hc hne hm hh hs, modeRequest_clamped,
    fun ⟨hl, hc, _⟩ hs hq => modeRequest_down hl hc hs hq, fun ⟨hl, hc, _⟩ hs => modeRequest_waits hl hc hs,
    fun c w _ hm he hw => ⟨fun hl ha hq => dozeEntryStart_over he hw hl ha hq, fun hl hsrc => dozeEntryStart_waits he hw hl hsrc⟩,
    fun x he hd hn hc hs => wakeEvent_aborts he hd hn hc hs, wakeEvent_nothing, wakeTimer_nothing, wakeEvent_held,
    fun hm hh hn hp => ⟨fun hc hdue => ?timer, fun hc hs => ?latch⟩,
    fun w ws h hi hd => ⟨aonWriteDone_wakeTmr h hi hd, aonWriteDone_addr h hi hd, aonWriteDone_profile h hi hd⟩,
    fun w ws h => aonWriteDone_agent h, fun w ws i q qs h hi hw hd ht hq => aonWriteDone_thread h hi hw hd ht hq⟩
  case timer =>
    have hup := wake_timer_wokenUp hm hh hn hp hc
    exact ⟨⟨_, congrArg Host.Outcome.next (if_pos hdue), hup⟩, ⟨_, congrArg Host.Outcome.next (if_pos hdue), hup⟩⟩
  case latch => exact ⟨_, exec_wakeEvent_latch s slot hs, wake_latch_wokenUp hm hh hn hp hc slot⟩

end Sys2Proof

/-! SUPPORT. O20: a SYNC that writes a waiting store into data SRAM, at an address of the clause on image memory. -/

namespace Sys2Proof

open Machine

/-- Thread 1 of engine 0 owns wheel position 0. Its byte store to the first byte of data SRAM waits in the local merge entry. -/
def storeWaits : State :=
  { State.reset with
    regs := [(aEng 0 0x20, 0x41)]
    engines := [(0, { power := .on, localMerge := some ⟨0x10000, [(0, 0x55)], [1], 0⟩ })]
    threads := [(1, { st := .ready, pc := 0x100 })]
    sys := { mode := .preparation } }

/-- The beat of that thread. -/
def storeBeat : Beat := ⟨0, 1, 0, 0⟩

theorem storeWaits_clean : Clean storeWaits := ⟨rfl, by decide +kernel, rfl⟩

theorem storeWaits_ready : Ready storeBeat [] false storeWaits where
  runs := by decide +kernel
  single := by decide +kernel
  position := by decide +kernel
  boundary := by decide +kernel
  undivided := fun _ => by decide +kernel
  fetched := by decide +kernel
  sources := fun _ hd => absurd hd List.not_mem_nil
  room := fun h => absurd h (by decide)
  space := fun _ => by decide +kernel

/-- R134, R177: SYNC writes the waiting byte into the data SRAM, which held 0 there. -/
theorem sync_writes_store : ∃ t, exec (.syncOp storeBeat) storeWaits = .next t
    ∧ imageByte storeWaits 0 (engKey 0 0x10000) = 0 ∧ imageByte t 0 (engKey 0 0x10000) = 0x55 :=
  ⟨_, rfl, by decide +kernel, by decide +kernel⟩

/-- Refutes O20: its clause on SYNC holds `imageByte` at every address of the one address list to its value, not only at those of
image memory (0x40000000 to 0x4005FFFF). The data SRAM lies in that list too (`engKey`), and there SYNC writes the thread's
waiting store (R134, R177): in `storeWaits` the byte at `engKey 0 0x10000` turns from 0 to 0x55. -/
theorem not_ownControl : ¬ Obligations.OwnControl := by
  unfold Obligations.OwnControl
  intro h
  obtain ⟨-, hready⟩ := h storeBeat 0 0 storeWaits storeWaits_clean
  obtain ⟨-, -, -, -, -, -, hsync⟩ := hready storeWaits_ready
  obtain ⟨t, he, -, -, -, himage, -⟩ := hsync (by decide +kernel) (by decide +kernel) rfl
  obtain ⟨u, hu, hbefore, hafter⟩ := sync_writes_store
  obtain rfl : u = t := Host.Outcome.next.inj (hu.symm.trans he)
  have hsame : imageByte u 0 (engKey 0 0x10000) = imageByte storeWaits 0 (engKey 0 0x10000) := himage _
  rw [hbefore, hafter] at hsame
  exact absurd hsame (by decide)

end Sys2Proof

/-! SUPPORT. O27: a Twin pair that stops in the cycle of a mode request taken in Recall. -/

namespace Sys2Proof

open Machine

/-- A request of this cycle for Run, recorded as taken in Recall. -/
def requestInRecall : ReqTaken :=
  { mode := .recall, names := .run, id := 290, prev := 0, chg := false, cause0 := false, swreq := false, shk := {}, shkCnt := 0
    raised := false }

/-- Engines 2 and 3 are a Twin pair in Run; thread 1 of the pair owns wheel position 0. -/
def pairRequested : State :=
  { State.reset with
    regs := [(aTwin, 0x20000), (aEng 2 0x20, 0x41)]
    engines := [(2, { power := .on }), (3, { power := .on })]
    threads := [(33, { st := .ready, pc := 0x100 })]
    sys := { mode := .run }
    same := { cyc := 200, req := some requestInRecall } }

/-- The beat of that thread; the pc of the two engines differs. -/
def pairBeat : Beat := ⟨2, 1, 0, 1⟩

theorem pairRequested_clean : Clean pairRequested := ⟨rfl, by decide +kernel, rfl⟩

/-- The stop discards the request, which puts the mode back to Recall (R52), and in Recall no cause takes the unit to Safe. -/
theorem pairRequested_ends_recall :
    ∃ t, exec (.nop pairBeat 0xFC000000) pairRequested = .next t ∧ t.sys.mode = .recall := ⟨_, rfl, by decide +kernel⟩

/-- Refutes O27: in its clause on a beat whose outputs differ nothing rules out a mode request of the same cycle, which the stop
discards (R52) before it asks for Safe; O17 has that hypothesis (`s.sameNow.req = none`) for the policy Safe. In `pairRequested` the
discarded request was taken in Recall, so the unit ends in Recall and not in Safe. Table 2.13 lets no request leave Recall, so no
run of the block comes to this state; the statement speaks of every state. -/
theorem not_engineBlocks : ¬ Obligations.EngineBlocks := by
  unfold Obligations.EngineBlocks
  intro h
  obtain ⟨-, -, -, -, -, -, hpair⟩ := h 290 2 0 pairRequested
  obtain ⟨hruns, -⟩ := hpair pairBeat rfl (by decide +kernel) rfl pairRequested_clean (by decide +kernel)
  obtain ⟨hdiffer, -⟩ := hruns (by decide +kernel) (by decide +kernel) (by decide +kernel) (by decide +kernel) (by decide +kernel)
  obtain ⟨t, he, ⟨-, -, -, -, hsafe, -⟩, -⟩ := hdiffer (by decide +kernel) (by decide +kernel) (by decide)
  obtain ⟨u, hu, hrecall⟩ := pairRequested_ends_recall
  obtain rfl : u = t := Host.Outcome.next.inj (hu.symm.trans he)
  exact absurd (hrecall.symm.trans hsafe) (by decide)

end Sys2Proof

/-! SUPPORT. Instructions that change their own thread alone and go on (R108, R118), and the flags they leave (R103, R109). -/

namespace Sys2Proof

open Machine

/-! ### The thread that an instruction leaves -/

/-- An instruction of thread `id` has left the thread with the registers and the status of `t`, and gone on. -/
structure WentOn (id : Nat) (t : Thread) (s s' : State) : Prop where
  w : (s'.thr id).w = t.w
  status : (s'.thr id).status = t.status
  pc : GoesOn id s s'
  frame : OnlyThread id s s'

theorem WentOn.writes {id : Nat} {t : Thread} {rd : Reg} {v st : Word} {s s' : State} (h : WentOn id t s s')
    (hv : t.rd rd = v) (hst : t.status = st) (ho : ∀ r, r ≠ rd → t.rd r = (s.thr id).rd r) : Writes id rd v st s s' where
  result := (rd_of_w h.w rd).trans hv
  status := h.status.trans hst
  pc := h.pc
  regs := fun r hr => (rd_of_w h.w r).trans (ho r (by simpa using hr))
  frame := h.frame

/-- R118: an instruction whose effect `u` lies in its own thread, of no Twin pair, and that goes on. -/
theorem perform_wentOn {id : Nat} {s p u : State} (hp : Begun id s p) (hf : ErrorFree s) (hw : s.twin (id / 16) = false)
    (hu : OnlyIn [.threads] p u) (ho : OtherThreads id p u) : WentOn id (u.thr id) s (p.perform id (.next u)) := by
  have htw : u.twin (id / 16) = false := by
    rw [← hw, ← hp.twin]
    simp only [State.twin, State.reg_of_regs p u (hu.regs (by simp))]
  obtain ⟨hend, hpc⟩ := perform_next_errorFree p u id ((hp.errorFree hf).of_only hu (by simp) (by simp)) htw
  have honly := (hp.only.trans (hu.mono (by simp))).trans hend.only
  exact ⟨hend.w, hend.status, by rw [GoesOn, hpc, hp.pc], SameMemory.of_mem (honly.mem (by simp)),
    fun j hj => (hend.others j hj).trans ((ho j hj).trans (hp.others j hj)), (honly.mono (by simp)).sameUnits⟩

theorem updThr_others (s : State) (id : Nat) (f : Thread → Thread) : OtherThreads id s (s.updThr id f) := fun j hj => by
  rw [State.updThr_thr, if_neg hj]

theorem updThr_only (s : State) (id : Nat) (f : Thread → Thread) : OnlyIn [.threads] s (s.updThr id f) := setThr_only s id _

/-- R108: an instruction of registers and flags. -/
theorem regBeat_wentOn {b : Beat} {reads : List Dest} {s : State} (hc : Clean s) (hr : Ready b reads false s)
    (f : Thread → Thread) :
    WentOn b.id (f ((s.takePosition b.eng.val b.pos.val b.thr.val).thr b.id)) s (regBeat b reads f s) := by
  rw [regBeat, beat_ready b { reads := reads } _ s hr]
  have h := perform_wentOn (takePosition_begun s b) hc.errorFree (beat_id_div b ▸ hr.single) (updThr_only _ b.id f)
    (updThr_others _ b.id f)
  rwa [State.updThr_thr_same] at h

/-- The instruction that gives its thread one result and a status, both computed from registers and status. -/
theorem regBeat_writes {b : Beat} {reads : List Dest} {s : State} (hc : Clean s) (hr : Ready b reads false s)
    {f : Thread → Thread} {rd : Reg} {v st : Word}
    (hf : ∀ t : Thread, t.rd = (s.thr b.id).rd → t.status = (s.thr b.id).status → f t = t.result rd v st) :
    Writes b.id rd v st s (regBeat b reads f s) := by
  have hp := takePosition_begun s b
  have h := regBeat_wentOn hc hr f
  rw [hf _ (funext hp.rd) hp.status] at h
  have hrd (r : Reg) : (((s.takePosition b.eng.val b.pos.val b.thr.val).thr b.id).result rd v st).rd r =
      if r = rd then v else (s.thr b.id).rd r := (rd_wr _ rd r v).trans (by rw [hp.rd])
  exact h.writes (by rw [hrd, if_pos rfl]) rfl fun r hne => by rw [hrd, if_neg hne]

/-- The instruction that gives its thread a status and no result. -/
theorem regBeat_flags {b : Beat} {reads : List Dest} {s : State} (hc : Clean s) (hr : Ready b reads false s)
    {f : Thread → Thread} {st : Word}
    (hf : ∀ t : Thread, t.rd = (s.thr b.id).rd → t.status = (s.thr b.id).status → f t = { t with status := st }) :
    ((regBeat b reads f s).thr b.id).status = st ∧ OtherRegs b.id [] s (regBeat b reads f s)
      ∧ GoesOn b.id s (regBeat b reads f s) ∧ OnlyThread b.id s (regBeat b reads f s) := by
  have hp := takePosition_begun s b
  have h := regBeat_wentOn hc hr f
  rw [hf _ (funext hp.rd) hp.status] at h
  exact ⟨h.status, fun r _ => (rd_of_w h.w r).trans (hp.rd r), h.pc, h.frame⟩

/-- A result with the status as it was. -/
theorem result_status (t : Thread) (rd : Reg) (v : Word) : t.result rd v t.status = t.wr rd v := rfl

/-! ### Operands -/

theorem opSigned_congr {t u : Thread} (h : t.rd = u.rd) (x : Operand) : opSigned t x = opSigned u x := by
  cases x <;> simp [opSigned, h]

theorem opZero_congr {t u : Thread} (h : t.rd = u.rd) (x : Operand) : opZero t x = opZero u x := by
  cases x <;> simp [opZero, h]

theorem shiftAmt_congr {t u : Thread} (h : t.rd = u.rd) (x : ShiftAmount) : shiftAmt t x = shiftAmt u x := by
  cases x <;> simp [shiftAmt, h]

theorem movVal_congr {t u : Thread} (h : t.rd = u.rd) (x : MovSource) : movVal t x = movVal u x := by
  cases x <;> simp [movVal, h]

theorem shiftAmt_lt (t : Thread) (x : ShiftAmount) : shiftAmt t x < 32 := by
  cases x with
  | reg rb => exact Nat.mod_lt _ (by decide)
  | imm v => exact v.isLt

/-! ### Flags -/

theorem withNZ_newFlags (st r : Word) : NewFlags st (withNZ st r) r (flagC st) (flagV st) := by
  have h (i : Nat) (hi : i < 32) : (withNZ st r).getLsbD i = if i = 30 then r == 0 else if i = 31 then r.getLsbD 31
      else st.getLsbD i := by
    rw [← bit, withNZ, bit_setBit _ _ _ _ (by decide) hi, bit_setBit _ _ _ _ (by decide) hi]
    rfl
  refine ⟨h 31 (by decide), h 30 (by decide), h 29 (by decide), h 28 (by decide), fun i hi => ?_⟩
  rw [h i (by omega), if_neg (by omega), if_neg (by omega)]

theorem NewFlags.withC {st st' r : Word} {c v : Bool} (h : NewFlags st st' r c v) (c' : Bool) :
    NewFlags st (withC st' c') r c' v := by
  have hb (i : Nat) (hi : i < 32) : (Machine.withC st' c').getLsbD i = if i = 29 then c' else st'.getLsbD i :=
    bit_setBit st' 29 i c' (by decide) hi
  obtain ⟨hn, hz, -, hv, hrest⟩ := h
  refine ⟨(hb 31 (by decide)).trans hn, (hb 30 (by decide)).trans hz, hb 29 (by decide), (hb 28 (by decide)).trans hv,
    fun i hi => ?_⟩
  rw [hb i (by omega), if_neg (by omega), hrest i hi]

theorem NewFlags.withV {st st' r : Word} {c v : Bool} (h : NewFlags st st' r c v) (v' : Bool) :
    NewFlags st (withV st' v') r c v' := by
  have hb (i : Nat) (hi : i < 32) : (Machine.withV st' v').getLsbD i = if i = 28 then v' else st'.getLsbD i :=
    bit_setBit st' 28 i v' (by decide) hi
  obtain ⟨hn, hz, hcy, -, hrest⟩ := h
  refine ⟨(hb 31 (by decide)).trans hn, (hb 30 (by decide)).trans hz, (hb 29 (by decide)).trans hcy, hb 28 (by decide),
    fun i hi => ?_⟩
  rw [hb i (by omega), if_neg (by omega), hrest i hi]

/-- A signed number of 33 bits wraps exactly where it does not fit a word. -/
theorem bmod_ne_iff_overflows {z : Int} (hlo : -2 ^ 32 ≤ z) (hhi : z < 2 ^ 32) : decide (z.bmod (2 ^ 32) ≠ z) = overflows z := by
  rw [overflows, ← Bool.decide_or]
  apply decide_eq_decide.2
  have h := Int.bmod_def z (2 ^ 32)
  constructor
  · intro hne
    by_contra hfit
    exact hne (by rw [h]; split <;> omega)
  · intro hout he
    rw [he] at h
    split at h <;> omega

theorem addOverflow_eq (u v : Word) : addOverflow u v = overflows (u.toInt + v.toInt) := by
  have hu := BitVec.toInt_lt (x := u)
  have hu' := BitVec.le_toInt (x := u)
  have hv := BitVec.toInt_lt (x := v)
  have hv' := BitVec.le_toInt (x := v)
  rw [addOverflow, BitVec.toInt_add]
  exact bmod_ne_iff_overflows (by omega) (by omega)

theorem subOverflow_eq (u v : Word) : subOverflow u v = overflows (u.toInt - v.toInt) := by
  have hu := BitVec.toInt_lt (x := u)
  have hu' := BitVec.le_toInt (x := u)
  have hv := BitVec.toInt_lt (x := v)
  have hv' := BitVec.le_toInt (x := v)
  rw [subOverflow, BitVec.toInt_sub]
  exact bmod_ne_iff_overflows (by omega) (by omega)

theorem addFlags_newFlags (st u v : Word) :
    NewFlags st (addFlags st u v) (u + v) (decide (2 ^ 32 ≤ u.toNat + v.toNat)) (overflows (u.toInt + v.toInt)) := by
  rw [← addOverflow_eq]
  exact ((withNZ_newFlags st (u + v)).withC _).withV _

theorem subFlags_newFlags (st u v : Word) :
    NewFlags st (subFlags st u v) (u - v) (decide (v.toNat ≤ u.toNat)) (overflows (u.toInt - v.toInt)) := by
  rw [← subOverflow_eq]
  exact ((withNZ_newFlags st (u - v)).withC _).withV _

theorem shiftFlags_newFlags (k : Shift) (st u : Word) (n : Nat) :
    NewFlags st (shiftFlags k st u n) (k.result u n) (if n = 0 then flagC st else k.out u n) (flagV st) := by
  simp only [shiftFlags]
  split
  · exact withNZ_newFlags st _
  · exact (withNZ_newFlags st _).withC _

/-! ### Shifts as arithmetic (R109) -/

theorem shl_eq (u : Word) (n : Nat) : u <<< n = BitVec.ofNat 32 (u.toNat * 2 ^ n) :=
  BitVec.eq_of_toNat_eq (by simp [Nat.shiftLeft_eq])

theorem shr_eq (u : Word) (n : Nat) : u >>> n = BitVec.ofNat 32 (u.toNat / 2 ^ n) := by
  apply BitVec.eq_of_toNat_eq
  have h : u.toNat / 2 ^ n < 2 ^ 32 := Nat.lt_of_le_of_lt (Nat.div_le_self _ _) u.isLt
  rw [BitVec.toNat_ushiftRight, Nat.shiftRight_eq_div_pow, BitVec.toNat_ofNat, Nat.mod_eq_of_lt h]

theorem sar_eq (u : Word) (n : Nat) : u.sshiftRight n = BitVec.ofInt 32 (u.toInt / 2 ^ n) := by
  rw [← BitVec.ofInt_toInt (x := u.sshiftRight n), BitVec.toInt_sshiftRight, Int.shiftRight_eq_div_pow]
  norm_cast

theorem rot_eq (u : Word) {n : Nat} (h : n < 32) : u.rotateRight n =
    BitVec.ofNat 32 (u.toNat / 2 ^ n) ||| BitVec.ofNat 32 (u.toNat * 2 ^ (32 - n)) := by
  rw [← shr_eq, ← shl_eq, BitVec.rotateRight, BitVec.rotateRightAux, Nat.mod_eq_of_lt h]

end Sys2Proof

/-! SUPPORT. O1 to O6: arithmetic, logic, shifts, moves and products. -/

namespace Sys2Proof

open Machine

/-- Settles O1: the sum or difference with its flags is the thread's one result. -/
theorem addSub : Obligations.AddSub := by
  unfold Obligations.AddSub
  intro b rd ra x s hc hr t u v
  refine ⟨⟨_, rfl, _, addFlags_newFlags t.status u v, ?_⟩, ⟨_, rfl, _, subFlags_newFlags t.status u v, ?_⟩⟩
  · exact regBeat_writes hc hr fun y hy hst => by rw [opSigned_congr hy, hy, hst]
  · exact regBeat_writes hc hr fun y hy hst => by rw [opSigned_congr hy, hy, hst]

/-- A bitwise operation of a ready thread. -/
theorem logic_writes {b : Beat} {rd ra : Reg} {x : Operand} {s : State} (hc : Clean s)
    (hr : Ready b (.reg ra :: opReads x) false s) (f : Word → Word → Word) :
    Writes b.id rd (f ((s.thr b.id).rd ra) (opZero (s.thr b.id) x))
      (withNZ (s.thr b.id).status (f ((s.thr b.id).rd ra) (opZero (s.thr b.id) x))) s (logic f b rd ra x s) :=
  regBeat_writes hc hr fun t ht hst => by simp only [opZero_congr ht, ht, hst]

/-- Settles O2: the three bitwise operations are one instruction with N and Z of its result. -/
theorem logic : Obligations.Logic := by
  unfold Obligations.Logic
  intro b rd ra x s hc hr t u v gives
  have hgives (f : Word → Word → Word) : gives (f u v) (Machine.logic f b rd ra x s) :=
    ⟨_, withNZ_newFlags _ _, logic_writes hc hr f⟩
  exact ⟨⟨_, rfl, hgives _⟩, ⟨_, rfl, hgives _⟩, ⟨_, rfl, hgives _⟩⟩

/-- A shift of a ready thread. -/
theorem shift_writes {b : Beat} {rd ra : Reg} {x : ShiftAmount} {s : State} (hc : Clean s)
    (hr : Ready b (.reg ra :: shiftReads x) false s) (k : Shift) :
    Writes b.id rd (k.result ((s.thr b.id).rd ra) (shiftAmt (s.thr b.id) x))
      (shiftFlags k (s.thr b.id).status ((s.thr b.id).rd ra) (shiftAmt (s.thr b.id) x)) s (shift k b rd ra x s) :=
  regBeat_writes hc hr fun t ht hst => by simp only [shiftAmt_congr ht, ht, hst]

/-- Settles O3: each kind of shift is its arithmetic form, with the last bit moved out in C. -/
theorem shifts : Obligations.Shifts := by
  unfold Obligations.Shifts
  intro b rd ra x s hc hr t u n gives
  have hn : n < 32 := shiftAmt_lt t x
  have hgives (k : Shift) : gives (k.result u n) (k.out u n) (shift k b rd ra x s) :=
    ⟨_, shiftFlags_newFlags k _ _ _, shift_writes hc hr k⟩
  refine ⟨⟨_, rfl, ?_⟩, ⟨_, rfl, ?_⟩, ⟨_, rfl, ?_⟩, ⟨_, rfl, ?_⟩⟩
  · rw [← shl_eq]; exact hgives .shl
  · rw [← shr_eq]; exact hgives .shr
  · rw [← sar_eq]; exact hgives .sar
  · rw [← rot_eq u hn]; exact hgives .rot

/-- Settles O4: CMP leaves every register and takes the flags of the difference. -/
theorem compare : Obligations.Compare := by
  unfold Obligations.Compare
  intro b ra x s hc hr t u v
  obtain ⟨hst, hrest⟩ := regBeat_flags hc hr (f := fun t => { t with status := subFlags t.status (t.rd ra) (opSigned t x) })
    (st := subFlags t.status u v) fun y hy hst => by rw [opSigned_congr hy, hy, hst]
  refine ⟨_, rfl, ?_, hrest⟩
  rw [hst]
  exact subFlags_newFlags _ _ _

/-- The word of MOVH: the immediate over the low half of rd. -/
theorem movh_word (imm : BitVec 16) (v : Word) :
    imm ++ v.setWidth 16 = BitVec.ofNat 32 (imm.toNat * 2 ^ 16 + v.toNat % 2 ^ 16) := by
  apply BitVec.eq_of_toNat_eq
  have hi := imm.isLt
  have hm : v.toNat % 2 ^ 16 < 2 ^ 16 := Nat.mod_lt _ (by decide)
  rw [BitVec.toNat_append, BitVec.toNat_setWidth, Nat.shiftLeft_eq, ← Nat.shiftLeft_eq, ← Nat.shiftLeft_add_eq_or_of_lt hm,
    Nat.shiftLeft_eq, BitVec.toNat_ofNat, Nat.mod_eq_of_lt (a := imm.toNat * 2 ^ 16 + v.toNat % 2 ^ 16) (by omega)]

/-- Settles O5: a move writes its destination and leaves the status as it is. -/
theorem moves : Obligations.Moves := by
  unfold Obligations.Moves
  intro b rd s hc
  refine ⟨fun x hr => ⟨_, rfl, ?_⟩, fun imm hr => ⟨_, rfl, ?_⟩⟩
  · exact regBeat_writes hc hr fun t ht hst => by rw [movVal_congr ht, ← hst, result_status]
  · exact regBeat_writes hc hr fun t ht hst => by rw [← movh_word, ht, ← hst, result_status]

/-- Settles O6: the low word of the signed product is that of the words' product. -/
theorem multiply : Obligations.Multiply := by
  unfold Obligations.Multiply
  intro b rd ra rb s hc hr t p gives
  have hmul : (BitVec.ofInt 32 p : Word) = t.rd ra * t.rd rb := by
    rw [BitVec.ofInt_mul, BitVec.ofInt_toInt, BitVec.ofInt_toInt]
  refine ⟨⟨_, rfl, _, withNZ_newFlags t.status _, ?_⟩, ⟨_, rfl, _, withNZ_newFlags t.status _, ?_⟩⟩
  · rw [hmul]
    exact regBeat_writes hc hr fun y hy hst => by simp only [hy, hst]; rfl
  · exact regBeat_writes hc hr fun y hy hst => by simp only [hy, hst]; rfl

end Sys2Proof

/-! SUPPORT. Instructions at any place of the code space (R117, R123), traps at issue of local instructions (R142), and the
control transfers (R119, R121). -/

namespace Sys2Proof

open Machine

/-! ### Readiness -/

/-- A ready thread is ready for an instruction that reads fewer registers. -/
theorem Ready.reading {b : Beat} {rs : List Dest} {far tr dv : Bool} {s : State} (h : Ready b rs far s tr dv) (rs' : List Dest)
    (hs : ∀ d ∈ rs', d ∈ rs) : Ready b rs' far s tr dv :=
  ⟨h.runs, h.single, h.position, h.boundary, h.undivided, h.fetched, fun d hd => h.sources d (hs d hd), h.room, h.space⟩

/-- A ready thread below the last word of the code space is ready for any instruction. -/
theorem Ready.below {b : Beat} {rs : List Dest} {far dv : Bool} {s : State} (h : Ready b rs far s true dv)
    (hpc : (s.thr b.id).pc ≠ 0xFFFC) : Ready b rs far s false dv :=
  ⟨h.runs, h.single, h.position, h.boundary, h.undivided, h.fetched, h.sources, h.room, fun _ => hpc⟩

/-- R123: at the last word of the code space the effect of an instruction that does not transfer control is that of `Act.atEnd`. -/
theorem beat_anywhere {b : Beat} {reads : List Dest} {s : State} (hr : Ready b reads false s true)
    (body : Nat → State → Act) : beat b { reads := reads } body s =
      (s.takePosition b.eng.val b.pos.val b.thr.val).perform b.id
        (if (s.thr b.id).pc = 0xFFFC then (body b.id (s.takePosition b.eng.val b.pos.val b.thr.val)).atEnd
         else body b.id (s.takePosition b.eng.val b.pos.val b.thr.val)) := by
  have he : beat b { reads := reads } body s = beat b { reads := reads, transfer := true }
      (fun id s => if (s.thr id).pc = 0xFFFC then (body id s).atEnd else body id s) s := by
    simp [beat, State.issue]
  rw [he, beat_ready b { reads := reads, transfer := true } _ s hr, (takePosition_begun s b).pc]

/-- R142: a trap at issue of a local instruction, in a thread that is in no pair and does not step. -/
theorem perform_traps {s p : State} {id : Nat} (hp : Begun id s p) (c : Trap) (info : Word) (hid : id < 256) (hc : Clean s)
    (hw : s.twin (id / 16) = false) (hstep : (s.thr id).stepping = false) :
    TrapsAt id c info s (p.perform id (.trap c info)) :=
  ⟨fun ht hpol hfit hm => perform_trap_vectored hp hp.running c info hid hc.errorFree hw hm ht hpol hfit,
    fun h => (perform_trap_held hp hp.running c info hid hstep h).1⟩

/-! ### The end of a transfer -/

/-- A thread that goes on at `a`, in no pair and with memory free of errors. -/
theorem goTo_done_ended (u : State) (id : Nat) (a pc : Word) (h : ErrorFree u) (ht : u.twin (id / 16) = false) :
    Ended id u ((u.goTo id a).done id pc) ∧ (((u.goTo id a).done id pc).thr id).pc = a := by
  obtain ⟨v, hv⟩ := fill_errorFree (u.updThr id ({ · with pc := a })) id a false h ht
  rw [State.goTo, hv]
  generalize hx : (u.updThr id ({ · with pc := a })).updThr id (fun t =>
    { t with faAddr := a, faWord := v, faBad := false, faVec := false, faWord2 := v, faBad2 := false }) = x
  have hthr : (x.thr id).w = (u.thr id).w ∧ (x.thr id).status = (u.thr id).status ∧ (x.thr id).outst = (u.thr id).outst
      ∧ (x.thr id).pc = a := by subst hx; simp
  obtain ⟨hw, hst, ho, hpc⟩ := hthr
  have honly : OnlyIn [.threads] u x := by subst hx; exact (updThr_only u id _).trans (updThr_only _ id _)
  have hother : OtherThreads id u x := fun j hj => by subst hx; simp [State.updThr_thr, hj]
  obtain ⟨dw, dpc, dst⟩ := done_context x id pc
  exact ⟨⟨dw.trans hw, dst.trans hst, (done_outst x id _).trans ho, fun j hj => (done_other x id j pc hj).trans (hother j hj),
    fun j => by rw [← State.eng_of_engines u x (honly.engines (by simp)) j]; exact done_engine x id j pc,
    (honly.mono (by simp)).trans (done_only x id pc)⟩, dpc.trans hpc⟩

/-- The first beat of a transfer changes the fetch-ahead word of its thread only (R119). -/
theorem fillSuccessor_thread (s : State) (id : Nat) (hf : ErrorFree s) (hw : s.twin (id / 16) = false) :
    OnlyIn [.threads] s (s.fillSuccessor id) ∧ OtherThreads id s (s.fillSuccessor id)
      ∧ ((s.fillSuccessor id).thr id).w = (s.thr id).w ∧ ((s.fillSuccessor id).thr id).pc = (s.thr id).pc
      ∧ ((s.fillSuccessor id).thr id).status = (s.thr id).status := by
  simp only [State.fillSuccessor]
  split
  · obtain ⟨v, hv⟩ := fill_errorFree s id ((s.thr id).pc + 4) false hf hw
    rw [hv]
    exact ⟨updThr_only s id _, updThr_others s id _, by simp, by simp, by simp⟩
  · exact ⟨OnlyIn.refl _ s, fun _ _ => rfl, rfl, rfl, rfl⟩

/-- A transfer of thread `id` has reached `target`, with the thread's registers and status those of `t`. -/
structure Reached (id : Nat) (target : Word) (t : Thread) (s s' : State) : Prop where
  pc : (s'.thr id).pc = target
  w : (s'.thr id).w = t.w
  status : (s'.thr id).status = t.status
  frame : OnlyThread id s s'

/-- R119, R121: a transfer to a word of the code space, with `f` done to a thread that has the context of `id`. -/
theorem perform_transfer_reached {id : Nat} {s p : State} (hp : Begun id s p) (hf : ErrorFree s)
    (hw : s.twin (id / 16) = false) {target : Word} (hal : target.toNat % 4 = 0) (hsp : target.toNat < 0x10000)
    (f : Thread → Thread) : ∃ x : Thread, x.w = (s.thr id).w ∧ x.pc = (s.thr id).pc ∧ x.status = (s.thr id).status
      ∧ Reached id target (f x) s (p.perform id (transfer id target f p)) := by
  have hact : transfer id target f p = .jump ((p.fillSuccessor id).updThr id f) target := by
    simp [transfer, hal, Nat.not_le.2 hsp]
  obtain ⟨honly, hother, hxw, hxpc, hxst⟩ := fillSuccessor_thread p id (hp.errorFree hf) ((hp.twin _).trans hw)
  have hu := honly.trans (updThr_only (p.fillSuccessor id) id f)
  obtain ⟨hend, hpc⟩ := goTo_done_ended ((p.fillSuccessor id).updThr id f) id target (p.thr id).pc
    ((hp.errorFree hf).of_only hu (by simp) (by simp))
    (by rw [← hw, ← hp.twin]; simp only [State.twin, State.reg_of_regs p _ (hu.regs (by simp))])
  have hall := (hp.only.trans (hu.mono (by simp))).trans hend.only
  rw [hact]
  refine ⟨(p.fillSuccessor id).thr id, hxw.trans hp.w, hxpc.trans hp.pc, hxst.trans hp.status, hpc, ?_, ?_,
    SameMemory.of_mem (hall.mem (by simp)), fun j hj => ?_, (hall.mono (by simp)).sameUnits⟩
  · exact hend.w.trans (congrArg Thread.w (State.updThr_thr_same _ _ _))
  · exact hend.status.trans (congrArg Thread.status (State.updThr_thr_same _ _ _))
  · exact (hend.others j hj).trans ((updThr_others _ id f j hj).trans ((hother j hj).trans (hp.others j hj)))

/-- R116, R117: the trap of a transfer to a target that is no word of the code space. -/
theorem transfer_refused {id : Nat} {target : Word} {c : Trap} (hc : c = if target.toNat % 4 = 0 then .farerr else .align)
    (h : target.toNat % 4 ≠ 0 ∨ 0x10000 ≤ target.toNat) (f : Thread → Thread) (s : State) :
    transfer id target f s = .trap c target := by
  subst hc
  by_cases hal : target.toNat % 4 = 0
  · simp [transfer, hal, h.resolve_left (not_not_intro hal)]
  · simp [transfer, hal]

/-- A transfer at the last word of the code space is one as anywhere (R123). -/
theorem transfer_atEnd (id : Nat) (target : Word) (f : Thread → Thread) (s : State) :
    (transfer id target f s).atEnd = transfer id target f s := by
  simp only [transfer]
  split
  · rfl
  · split <;> rfl

end Sys2Proof

/-! SUPPORT. O15 and O16: branches, jumps, links and returns. -/

namespace Sys2Proof

open Machine

section

variable {b : Beat} {reads : List Dest} {s : State} (hr : Ready b reads false s true)
include hr

/-- The beat of an instruction whose effect is a transfer to `target`. -/
theorem beat_transfer {body : Nat → State → Act} {target : Word} {f : Thread → Thread}
    (h : ∀ p, Begun b.id s p → body b.id p = transfer b.id target f p) : beat b { reads := reads } body s =
      (s.takePosition b.eng.val b.pos.val b.thr.val).perform b.id
        (transfer b.id target f (s.takePosition b.eng.val b.pos.val b.thr.val)) := by
  rw [beat_anywhere hr, h _ (takePosition_begun s b), transfer_atEnd, ite_self]

variable (hc : Clean s) {body : Nat → State → Act} {target : Word}
include hc

/-- A transfer that leaves every register. -/
theorem beat_transfer_goes (h : ∀ p, Begun b.id s p → body b.id p = transfer b.id target (·) p)
    (hal : target.toNat % 4 = 0) (hsp : target.toNat < 0x10000) :
    let s' := beat b { reads := reads } body s
    (s'.thr b.id).pc = target ∧ (s'.thr b.id).status = (s.thr b.id).status ∧ OtherRegs b.id [] s s' ∧ OnlyThread b.id s s' := by
  rw [beat_transfer hr h]
  obtain ⟨x, hw, -, hst, hx⟩ := perform_transfer_reached (takePosition_begun s b) hc.errorFree (beat_id_div b ▸ hr.single)
    hal hsp (·)
  exact ⟨hx.pc, hx.status.trans hst, fun r _ => rd_of_w (hx.w.trans hw) r, hx.frame⟩

/-- A transfer that writes the return address to lk. -/
theorem beat_transfer_links (h : ∀ p, Begun b.id s p → body b.id p = transfer b.id target link p)
    (hal : target.toNat % 4 = 0) (hsp : target.toNat < 0x10000) :
    let s' := beat b { reads := reads } body s
    (s'.thr b.id).rd 15 = (s.thr b.id).pc + 4 ∧ (s'.thr b.id).pc = target ∧ (s'.thr b.id).status = (s.thr b.id).status
      ∧ OtherRegs b.id [15] s s' ∧ OnlyThread b.id s s' := by
  rw [beat_transfer hr h]
  obtain ⟨x, hw, hpc, hst, hx⟩ := perform_transfer_reached (takePosition_begun s b) hc.errorFree (beat_id_div b ▸ hr.single)
    hal hsp link
  have hrd (r : Reg) : (link x).rd r = if r = 15 then (s.thr b.id).pc + 4 else (s.thr b.id).rd r := by
    rw [link, rd_wr, hpc, rd_of_w hw]
  exact ⟨by rw [rd_of_w hx.w, hrd, if_pos rfl], hx.pc, hx.status.trans hst,
    fun r hr => by rw [rd_of_w hx.w, hrd, if_neg (by simpa using hr)], hx.frame⟩

/-- A transfer to a target that is no word of the code space. -/
theorem beat_transfer_traps {f : Thread → Thread} {c : Trap} (h : ∀ p, Begun b.id s p → body b.id p = transfer b.id target f p)
    (hstep : (s.thr b.id).stepping = false) (hcode : c = if target.toNat % 4 = 0 then .farerr else .align)
    (hbad : target.toNat % 4 ≠ 0 ∨ 0x10000 ≤ target.toNat) :
    TrapsAt b.id c target s (beat b { reads := reads } body s) := by
  rw [beat_transfer hr h, transfer_refused hcode hbad]
  exact perform_traps (takePosition_begun s b) _ _ (beat_id_lt b) hc (beat_id_div b ▸ hr.single) hstep

end

/-- What B.cond does when it executes (R121, R122). -/
def bCondBody (cond : BitVec 4) (off : BitVec 22) (id : Nat) (s : State) : Act :=
  if condHolds cond (s.thr id).status then transfer id (relTarget (s.thr id).pc off) (·) s else .next s

theorem exec_bCond (b : Beat) (cond : BitVec 4) (off : BitVec 22) (s : State) : exec (.bCond b cond off) s =
    .next (beat b { reads := if 14 ≤ cond.toNat then [.flagT] else [] } (bCondBody cond off) s) := rfl

/-- B.cond of a ready thread reads T for the conditions of T only (R122). -/
theorem bCond_ready {b : Beat} {s : State} (hr : Ready b [.flagT] false s true) (cond : BitVec 4) :
    Ready b (if 14 ≤ cond.toNat then [.flagT] else []) false s true :=
  hr.reading _ fun d hd => by split at hd; exacts [hd, absurd hd (by simp)]

section

variable {b : Beat} {cond : BitVec 4} {off : BitVec 22} {s : State}

theorem bCondBody_taken {p : State} (hp : Begun b.id s p) (h : condHolds cond (s.thr b.id).status = true) :
    bCondBody cond off b.id p = transfer b.id (relTarget (s.thr b.id).pc off) (·) p := by
  rw [bCondBody, hp.status, hp.pc, if_pos h]

theorem bCondBody_passed {p : State} (hp : Begun b.id s p) (h : condHolds cond (s.thr b.id).status = false) :
    bCondBody cond off b.id p = .next p := by
  rw [bCondBody, hp.status, if_neg (by simp [h])]

variable (hr : Ready b [.flagT] false s true) (hc : Clean s)
include hr hc

/-- A condition that does not hold: the thread goes on. -/
theorem bCond_passed (hcond : condHolds cond (s.thr b.id).status = false) (hpc : (s.thr b.id).pc ≠ 0xFFFC) :
    After (.bCond b cond off) s fun s' => NoResult b.id s s' ∧ OnlyThread b.id s s' := by
  have hp := takePosition_begun s b
  refine ⟨_, exec_bCond .., ?_⟩
  rw [beat_anywhere (bCond_ready hr cond), if_neg hpc, bCondBody_passed hp hcond]
  have h := perform_wentOn hp hc.errorFree (beat_id_div b ▸ hr.single) (OnlyIn.refl _ _) fun _ _ => rfl
  exact ⟨⟨fun r _ => (rd_of_w h.w r).trans (hp.rd r), h.status.trans hp.status, h.pc⟩, h.frame⟩

/-- R117, R123: a condition that does not hold at the last word of the code space. -/
theorem bCond_passed_atEnd (hcond : condHolds cond (s.thr b.id).status = false) (hpc : (s.thr b.id).pc = 0xFFFC)
    (hstep : (s.thr b.id).stepping = false) :
    After (.bCond b cond off) s fun s' => TrapsAt b.id .farerr 0x10000 s s' := by
  have hp := takePosition_begun s b
  refine ⟨_, exec_bCond .., ?_⟩
  rw [beat_anywhere (bCond_ready hr cond), if_pos hpc, bCondBody_passed hp hcond]
  exact perform_traps hp _ _ (beat_id_lt b) hc (beat_id_div b ▸ hr.single) hstep

end

/-- Settles O15: each transfer goes to its target, or traps where the target is no word of the code space. -/
theorem transfers : Obligations.Transfers := by
  unfold Obligations.Transfers
  intro b ra cond off s hc hr t gives linked rel
  have hT := hr.reading [.flagT] (by simp)
  have hcr := bCond_ready hT cond
  have hnone := hr.reading [] (by simp)
  have hra := hr.reading [.reg ra] (by simp)
  have hlk := hr.reading [.reg 15] (by simp)
  have htaken (h : condHolds cond t.status = true) (p : State) (hp : Begun b.id s p) :
      bCondBody cond off b.id p = transfer b.id rel (·) p := bCondBody_taken hp h
  have hrel (f : Thread → Thread) (p : State) (hp : Begun b.id s p) :
      transfer b.id (relTarget (p.thr b.id).pc off) f p = transfer b.id rel f p := by rw [hp.pc]; rfl
  have hreg (r : Reg) (f : Thread → Thread) (p : State) (hp : Begun b.id s p) :
      transfer b.id ((p.thr b.id).rd r) f p = transfer b.id (t.rd r) f p := by rw [hp.rd]
  refine ⟨bCond_passed hT hc, fun hal hsp => ⟨fun h => ⟨_, exec_bCond .., ?_⟩, ⟨_, rfl, ?_⟩, ⟨_, rfl, ?_⟩⟩, bCond_passed_atEnd hT hc,
    fun hstep c hcode hbad => ⟨fun h => ⟨_, exec_bCond .., ?_⟩, ⟨_, rfl, ?_⟩, ⟨_, rfl, ?_⟩⟩,
    fun hstep c hcode hbad => ⟨⟨_, rfl, ?_⟩, ⟨_, rfl, ?_⟩⟩, fun hal hsp => ⟨⟨_, rfl, ?_⟩, ⟨_, rfl, ?_⟩⟩, fun hal hsp => ⟨_, rfl, ?_⟩⟩
  · exact beat_transfer_goes hcr hc (htaken h) hal hsp
  · exact beat_transfer_goes hnone hc (hrel _) hal hsp
  · exact beat_transfer_links hnone hc (hrel _) hal hsp
  · exact beat_transfer_traps hcr hc (htaken h) hstep hcode hbad
  · exact beat_transfer_traps hnone hc (hrel _) hstep hcode hbad
  · exact beat_transfer_traps hnone hc (hrel _) hstep hcode hbad
  · exact beat_transfer_traps hra hc (hreg ra _) hstep hcode hbad
  · exact beat_transfer_traps hra hc (hreg ra _) hstep hcode hbad
  · exact beat_transfer_goes hra hc (hreg ra _) hal hsp
  · exact beat_transfer_links hra hc (hreg ra _) hal hsp
  · exact beat_transfer_goes hlk hc (hreg 15 _) hal hsp

/-- Settles O16: the sixteen codes are the rows of Table 4.9, and the branch is taken by them. -/
theorem conditions : Obligations.Conditions := by
  unfold Obligations.Conditions
  refine ⟨fun st => rfl, fun b cond off s hc hr => ?_⟩
  intro t rel hal hsp hpc
  by_cases h : condHolds cond t.status = true
  · have hgoes := beat_transfer_goes (bCond_ready hr cond) hc (fun p hp => bCondBody_taken (off := off) hp h) hal hsp
    exact ⟨_, exec_bCond .., by rw [if_pos h]; exact hgoes.1⟩
  · obtain ⟨s', he, ⟨-, -, hon⟩, -⟩ := bCond_passed (off := off) hr hc (Bool.eq_false_iff.2 h) (hpc.resolve_right h)
    exact ⟨s', he, by rw [if_neg h]; exact hon⟩

end Sys2Proof

/-! SUPPORT. O7: a divide in progress whose thread awaits a far value in the divide's destination. -/

namespace Sys2Proof

open Machine

/-- DIVM is 1, an event waits at the interrupt input 3, and thread 1 of engine 0 has a divide in progress. An answer into w5 is
outstanding. -/
def divideAwaits : State :=
  { State.reset with
    regs := [(aEng 0 0x20, 0x41), (aThcfg 0 1, 0x4008)]
    engines := [(0, { power := .on })]
    threads := [(1, { st := .ready, pc := 0x100, w := [(14, 0x10020)], div := some (7, 2)
                      outst := [⟨0xFC, .flight, [(.reg 5, 0)], none, .fabric, 0⟩] })]
    hinge := { inputs := [(7, ⟨77, 5, false, false⟩)] }
    sys := { mode := .preparation } }

/-- The beat of that thread. -/
def divideBeat : Beat := ⟨0, 1, 0, 0⟩

theorem divideAwaits_clean : Clean divideAwaits := ⟨rfl, by decide +kernel, rfl⟩

theorem divideAwaits_ready : Ready divideBeat [.reg 1, .reg 2] false divideAwaits (divides := true) where
  runs := by decide +kernel
  single := by decide +kernel
  position := by decide +kernel
  boundary := by decide +kernel
  undivided := fun h => absurd h (by decide)
  fetched := by decide +kernel
  sources := by decide +kernel
  room := fun h => absurd h (by decide)
  space := fun _ => by decide +kernel

/-- R113 abandons the divide; the answer into w5 is still outstanding. -/
theorem abandoned_awaits : ∃ t, exec (.divOp divideBeat 5 1 2 (.event 3)) divideAwaits = .next t
    ∧ (t.thr divideBeat.id).pendingOn (.reg 5) = true := ⟨_, rfl, by decide +kernel⟩

/-- Refutes O7: in its clause on an interrupt that abandons the divide, no delivery is pending on rd afterwards, and nothing rules
out a divide in progress (`t.div = some _`) whose rd has one. The first beat cancels the deliveries to rd (R112, R128), a later one
does not, and the entry moves only those to w0 to w3, lk and T (R154). In `divideAwaits` the delivery to w5 stays pending. The
thread issues no far load between the beats of its divide, so no run of the block comes to this state; the statement speaks of
every state. -/
theorem not_divide : ¬ Obligations.Divide := by
  unfold Obligations.Divide
  intro h
  obtain ⟨-, -, habandon⟩ := h divideBeat 5 1 2 (.event 3) divideAwaits divideAwaits_clean divideAwaits_ready
  obtain ⟨⟨t, he, hentered⟩, -⟩ := habandon 3 _ rfl rfl (by decide +kernel) (by decide +kernel) (by decide +kernel) rfl rfl rfl
    (by decide +kernel) rfl (by decide +kernel) rfl
  obtain ⟨-, -, -, -, -, -, hpending, -⟩ := hentered
  obtain ⟨u, hu, hawaits⟩ := abandoned_awaits
  obtain rfl : u = t := Host.Outcome.next.inj (hu.symm.trans he)
  exact absurd (hawaits.symm.trans hpending) (by decide)

end Sys2Proof

/-! SUPPORT. O8: local loads (R114 to R117, R178). -/

namespace Sys2Proof

open Machine

/-! ### The bytes of a load -/

/-- The sum that a load forms of its bytes, lowest first (R10). -/
theorem foldr_bytes (f : Nat → Byte) (g : Nat → Nat) (o a n : Nat) (h : ∀ i < n, g (o + i) = (f (a + i)).toNat) :
    ((upTo n).map (o + ·)).foldr (fun i acc => g i + 256 * acc) 0 = bytesNat f a n := by
  induction n generalizing o a with
  | zero => rfl
  | succ n ih =>
    have hlist : (upTo (n + 1)).map (o + ·) = o :: (upTo n).map (o + 1 + ·) := by
      simp only [upTo, List.range_succ_eq_map, List.map_cons, List.map_map, Nat.add_zero]
      congr 2
      funext i
      simp only [Function.comp_apply, Nat.succ_eq_add_one]
      omega
    have htail := ih (o + 1) (a + 1) fun i hi => by
      rw [Nat.add_assoc o, Nat.add_assoc a, Nat.add_comm 1 i]; exact h (i + 1) (by omega)
    rw [hlist, List.foldr_cons, htail, bytesNat]
    congr 1
    exact h 0 (by omega)

/-- Byte `i` of a word that memory holds. -/
theorem byte_of_word (m : Memory) (key i : Nat) (hi : i < 4) :
    leNat (readBytes m key 4) / 256 ^ i % 256 = (readByte m (key + i)).toNat := by
  have h := leNat_readBytes_slice m (key := key) (a := key + i) (n := 1) (w := 4) (by omega) (by omega)
  rw [Nat.add_sub_cancel_left, pow_one] at h
  simpa [readBytes, leNat] using h

/-- A load of the engine of thread `id` finds the bytes behind the merge entry, in memory free of errors. -/
theorem loadLocal_errorFree (s : State) {k a n : Nat} (id : Nat) (hf : ErrorFree s) (hk : k < 16) (ha : a < 0x14000)
    (hn : a % 4 + n ≤ 4) : s.loadLocal k a n id = (s, some (localNat s k a n)) := by
  have hcw : cwBytes (memNum (engKey k (a - a % 4))) = 4 := cwBytes_engKey hk (by omega)
  simp only [State.loadLocal, readCode_errorFree s _ _ _ hf, hcw, Option.isNone_some, Bool.false_and,
    Bool.false_eq_true, if_false, Option.getD_some, localNat_eq]
  congr 2
  refine foldr_bytes _ _ _ _ _ fun i hi => ?_
  have haddr : engKey k (a - a % 4) + (a % 4 + i) = engKey k (a + i) := by simp only [engKey]; omega
  have hmod : (a + i) % 4 = a % 4 + i := by omega
  have hword : a + i - (a % 4 + i) = a - a % 4 := by omega
  have hmem := byte_of_word s.mem (engKey k (a - a % 4)) (a % 4 + i) (by omega)
  rw [haddr] at hmem
  cases hm : (s.eng k).localMerge with
  | none => rw [localByte_none hm]; exact hmem
  | some m =>
    rw [localByte_some hm, entryByte, hmod, hword]
    by_cases he : m.addr = a - a % 4
    · simp only [he, if_true]
      cases tabFind m.lanes (a % 4 + i) with
      | none => exact hmem
      | some v => rfl
    · simpa only [he, if_false, tabFind] using hmem

/-- In an engine of no pair both loads of R98 are that one. -/
theorem loadPair_errorFree (s : State) {k a n : Nat} (id : Nat) (hf : ErrorFree s) (hw : s.twin k = false) (hk : k < 16)
    (ha : a < 0x14000) (hn : a % 4 + n ≤ 4) :
    s.loadPair k a n id = (s, some (localNat s k a n), some (localNat s k a n)) := by
  simp [State.loadPair, loadLocal_errorFree s id hf hk ha hn, hw]

/-! ### The instructions -/

/-- What a local load does when it executes (R114 to R117). -/
def loadBody (n : Nat) (signed : Bool) (b : Beat) (rd ra : Reg) (imm : BitVec 18) (id : Nat) (s : State) : Act :=
  let ea := ea18 (s.thr id) ra imm
  if ea.toNat % n ≠ 0 then .trap .align ea
  else if 0x14000 ≤ ea.toNat then .trap .farerr ea
  else
    match s.loadPair (id / 16) ea.toNat n id with
    | (s1, some v, some w) =>
      let t := s1.updThr id (·.wr rd (extend n signed v))
      if v = w then .next t else .hold ((t.advance id).twinStops (id / 16) (id % 16) b.pos.toNat 2)
    | (s1, none, none) => .fail s1 .eccd (word (ea.toNat - ea.toNat % 4))
    | (s1, _, _) => .hold (s1.oneSided id b.pos.toNat .eccd false (s.thr id).pc (word (ea.toNat - ea.toNat % 4)))

theorem load_eq (n : Nat) (signed : Bool) (b : Beat) (rd ra : Reg) (imm : BitVec 18) (s : State) :
    load n signed b rd ra imm s = beat b { reads := [.reg ra] } (loadBody n signed b rd ra imm) s := rfl

/-- An instruction that writes one register of its thread and goes on. -/
theorem perform_writes {id : Nat} {s p : State} (hp : Begun id s p) (hf : ErrorFree s) (hw : s.twin (id / 16) = false)
    (rd : Reg) (v : Word) : Writes id rd v (s.thr id).status s (p.perform id (.next (p.updThr id (·.wr rd v)))) := by
  have h := perform_wentOn hp hf hw (updThr_only p id (·.wr rd v)) (updThr_others p id _)
  rw [State.updThr_thr_same] at h
  have hrd (r : Reg) : ((p.thr id).wr rd v).rd r = if r = rd then v else (s.thr id).rd r :=
    (rd_wr _ rd r v).trans (by rw [hp.rd])
  exact h.writes (by rw [hrd, if_pos rfl]) hp.status fun r hne => by rw [hrd, if_neg hne]

theorem Begun.ea18 {id : Nat} {s p : State} (hp : Begun id s p) (ra : Reg) (imm : BitVec 18) :
    ea18 (p.thr id) ra imm = (s.thr id).rd ra + imm.signExtend 32 := congrArg (· + imm.signExtend 32) (hp.rd ra)

theorem Begun.localNat {id : Nat} {s p : State} (hp : Begun id s p) (k a n : Nat) : localNat p k a n = localNat s k a n := by
  rw [localNat_eq, localNat_eq, show localByte p k = localByte s k from funext (localByte_congr (hp.engines _).2.1 hp.mem)]

section

variable {b : Beat} {rd ra : Reg} {imm : BitVec 18} {s : State} {ea : Word} (hc : Clean s) (hr : Ready b [.reg ra] false s)
  (hea : ea = (s.thr b.id).rd ra + imm.signExtend 32)
include hc hr hea

/-- R114, R178: a load at an aligned address of the engine's SRAM. -/
theorem load_writes {n : Nat} (signed : Bool) (hn : n = 1 ∨ n = 2 ∨ n = 4) (ha : ea.toNat < 0x14000) (hal : ea.toNat % n = 0) :
    Writes b.id rd (extend n signed (localNat s b.eng.val ea.toNat n)) (s.thr b.id).status s (load n signed b rd ra imm s) := by
  have hp := takePosition_begun s b
  have hw := beat_id_div b ▸ hr.single
  have hfit : ea.toNat % 4 + n ≤ 4 := by obtain rfl | rfl | rfl := hn <;> omega
  have hload := loadPair_errorFree _ b.id (hp.errorFree hc.errorFree) ((hp.twin _).trans hw) (beat_id_div b ▸ b.eng.isLt) ha hfit
  rw [load_eq, beat_ready b { reads := [.reg ra] } _ s hr]
  simp only [loadBody, hp.ea18, ← hea, hal, ne_eq, not_true_eq_false, if_false, Nat.not_le.2 ha, hload, hp.localNat]
  rw [if_pos trivial, beat_id_div]
  exact perform_writes hp hc.errorFree hw rd _

/-- R116, R117: ALIGN goes ahead of FARERR. -/
theorem load_traps {n : Nat} (signed : Bool) (hstep : (s.thr b.id).stepping = false) {c : Trap}
    (hcode : c = if ea.toNat % n = 0 then .farerr else .align) (hbad : ea.toNat % n ≠ 0 ∨ 0x14000 ≤ ea.toNat) :
    TrapsAt b.id c ea s (load n signed b rd ra imm s) := by
  have hp := takePosition_begun s b
  have hact : loadBody n signed b rd ra imm b.id (s.takePosition b.eng.val b.pos.val b.thr.val) = .trap c ea := by
    subst hcode
    by_cases hal : ea.toNat % n = 0
    · simp [loadBody, hp.ea18, ← hea, hal, hbad.resolve_left (not_not_intro hal)]
    · simp [loadBody, hp.ea18, ← hea, hal]
  rw [load_eq, beat_ready b { reads := [.reg ra] } _ s hr, hact]
  exact perform_traps hp _ _ (beat_id_lt b) hc (beat_id_div b ▸ hr.single) hstep

end

theorem localNat_one (s : State) (k a : Nat) : localNat s k a 1 = (localByte s k a).toNat := by simp [localNat]

theorem extend_signed_byte (x : Byte) : extend 1 true x.toNat = x.signExtend 32 := by simp [extend]

theorem extend_unsigned_byte (x : Byte) : extend 1 false x.toNat = x.setWidth 32 := by simp [extend, word]

/-- Settles O8: an aligned load writes its bytes, and any other traps. -/
theorem localLoads : Obligations.LocalLoads := by
  unfold Obligations.LocalLoads
  intro b rd ra imm s hc hr t ea a gives traps
  have hloads {n : Nat} (signed : Bool) (hn : n = 1 ∨ n = 2 ∨ n = 4) (ha : a < 0x14000) (hal : a % n = 0) :=
    load_writes (rd := rd) (ea := ea) hc hr rfl signed hn ha hal
  have hbyte (signed : Bool) (ha : a < 0x14000) : gives (extend 1 signed (localByte s b.eng.val a).toNat)
      (load 1 signed b rd ra imm s) := localNat_one s b.eng.val a ▸ hloads signed (.inl rfl) ha (Nat.mod_one _)
  have halign {n : Nat} (signed : Bool) (hstep : t.stepping = false) (hal : a % n ≠ 0) : traps .align (load n signed b rd ra imm s) :=
    load_traps hc hr rfl signed hstep (if_neg hal).symm (.inl hal)
  have hfar {n : Nat} (signed : Bool) (hstep : t.stepping = false) (ha : 0x14000 ≤ a) (hal : a % n = 0) :
      traps .farerr (load n signed b rd ra imm s) := load_traps hc hr rfl signed hstep (if_pos hal).symm (.inr ha)
  exact ⟨fun ha => ⟨fun hal => ⟨_, rfl, hloads false (by simp) ha hal⟩,
      fun hal => ⟨⟨_, rfl, hloads true (by simp) ha hal⟩, ⟨_, rfl, hloads false (by simp) ha hal⟩⟩,
      ⟨_, rfl, extend_signed_byte _ ▸ hbyte true ha⟩, ⟨_, rfl, extend_unsigned_byte _ ▸ hbyte false ha⟩⟩,
    fun hstep => ⟨fun hal => ⟨_, rfl, halign false hstep hal⟩,
      fun hal => ⟨⟨_, rfl, halign true hstep hal⟩, ⟨_, rfl, halign false hstep hal⟩⟩, fun ha =>
      ⟨fun hal => ⟨_, rfl, hfar false hstep ha hal⟩,
        fun hal => ⟨⟨_, rfl, hfar true hstep ha hal⟩, ⟨_, rfl, hfar false hstep ha hal⟩⟩,
        ⟨_, rfl, hfar true hstep ha (Nat.mod_one _)⟩, ⟨_, rfl, hfar false hstep ha (Nat.mod_one _)⟩⟩⟩⟩

end Sys2Proof

/-! SUPPORT. O9: local stores to data SRAM (R115 to R117, R120, R176 to R178). -/

namespace Sys2Proof

open Machine

/-! ### Flushes of the local merge entry -/

/-- R177: a flush leaves every byte as loads saw it, and no entry. -/
theorem flushLocal_entry (s : State) (k : Nat) (hf : ErrorFree s) (hl : LocalFits k s) :
    SramOnly k s (s.flushLocal k) ∧ (∀ x, localByte (s.flushLocal k) k x = localByte s k x)
      ∧ ((s.flushLocal k).eng k).localMerge = none := by
  cases hm : (s.eng k).localMerge with
  | none =>
    have h : s.flushLocal k = s := by simp [State.flushLocal, hm]
    rw [h]
    exact ⟨⟨OnlyIn.refl _ s, fun _ _ => rfl, hl⟩, fun _ => rfl, hm⟩
  | some m =>
    obtain ⟨-, -, -, hsorted, -⟩ := (localForm_iff m).1 (hl m hm)
    obtain ⟨mem, hw, -⟩ := mergeCode_errorFree (s.updEng k ({ · with localMerge := none })) (engKey k m.addr)
      (16 * s.lead k + m.owners.headD 0) m.lanes hf hsorted
    have hat : s.flushLocalAt k m.addr = s.flushLocal k := by simp [State.flushLocalAt, hm]
    obtain ⟨honly, hbytes, -⟩ := flushLocalAt_entry s k m.addr hf hl
    rw [hat] at honly hbytes
    refine ⟨honly, hbytes, ?_⟩
    simp only [State.flushLocal, hm, hw]
    exact congrArg Engine.localMerge (State.updEng_eng_same s k ({ · with localMerge := none }))

/-- A new local merge entry changes no memory and no other part of the state. -/
theorem setEntry_sramOnly (s : State) (k : Nat) (m : Option LocalMerge) (hm : ∀ x, m = some x → localForm x = true) :
    SramOnly k s (s.updEng k ({ · with localMerge := m })) where
  only := (setEng_only s k _).mono (by simp)
  outside := fun _ _ => rfl
  fits := fun x hx => hm x (by rwa [State.updEng_eng_same] at hx)

/-! ### What a store of `n` bytes leaves -/

/-- The data SRAM of engine `k` holds the `n` bytes of `v` at `a`, for the loads of the engine; the other bytes are those of `s`. -/
structure SramStored (k a n v : Nat) (s u : State) : Prop where
  only : SramOnly k s u
  bytes : ∀ x, localByte u k x = if a ≤ x ∧ x < a + n then BitVec.ofNat 8 (v / 256 ^ (x - a)) else localByte s k x

theorem SramStored.localNat {k a n v : Nat} {s u : State} (h : SramStored k a n v s u) : localNat u k a n = v % 256 ^ n := by
  rw [localNat_eq]
  refine bytesNat_of_bytes _ a n v fun j hj => ?_
  rw [h.bytes, if_pos (by omega), Nat.add_sub_cancel_left]

/-- A byte of another word does not come from the entry. -/
theorem localByte_away {s : State} {k : Nat} {m : LocalMerge} (hm : (s.eng k).localMerge = some m) {x : Nat}
    (hx : m.addr ≠ x - x % 4) : localByte s k x = readByte s.mem (engKey k x) := by
  rw [localByte_some hm, entryByte, if_neg hx]

/-- R176: before a word store an entry of the word is dropped and another one flushed; loads see the other words as before. -/
theorem wordRoom (s : State) {k a : Nat} (hf : ErrorFree s) (hl : LocalFits k s) (ha : a % 4 = 0) :
    let u := if (s.eng k).localMerge.any (fun m => m.addr == a) then s.updEng k ({ · with localMerge := none })
      else s.flushLocal k
    SramOnly k s u ∧ (u.eng k).localMerge = none ∧ ∀ x, x < a ∨ a + 4 ≤ x → localByte u k x = localByte s k x := by
  intro u
  by_cases hany : (s.eng k).localMerge.any (fun m => m.addr == a) = true
  · obtain ⟨m, hm, he⟩ := (Option.any_eq_true _ _).1 hany
    have haddr : m.addr = a := by simpa using he
    have hu : u = s.updEng k ({ · with localMerge := none }) := if_pos hany
    have hnone : (u.eng k).localMerge = none := by rw [hu, State.updEng_eng_same]
    refine ⟨hu ▸ setEntry_sramOnly s k none (fun _ h => by cases h), hnone, fun x hx => ?_⟩
    rw [localByte_none hnone, localByte_away hm (by omega), hu]
    rfl
  · have hu : u = s.flushLocal k := if_neg hany
    obtain ⟨honly, hbytes, hnone⟩ := flushLocal_entry s k hf hl
    rw [hu]
    exact ⟨honly, hnone, fun x _ => hbytes x⟩

/-- R176, R177: a word store. -/
theorem storeData_stored (s : State) {k a : Nat} (v : Word) (hk : k < 16) (hf : ErrorFree s) (hl : LocalFits k s)
    (hw : s.twin k = false) (ha : a % 4 = 0) (hlow : 0x10000 ≤ a) (hhigh : a < 0x14000) :
    SramStored k a 4 v.toNat s (s.storeData k a v) := by
  obtain ⟨honly, hnone, hbytes⟩ := wordRoom s hf hl ha
  generalize hu : (if (s.eng k).localMerge.any (fun m => m.addr == a) then s.updEng k ({ · with localMerge := none })
    else s.flushLocal k) = u at honly hnone hbytes
  have hwu : u.twin k = false := (honly.twin k).trans hw
  have h : s.storeData k a v = u.writeFrame k a v := by
    have hflush : u.flushLocalAt k a = u := by simp [State.flushLocalAt, hnone]
    simp only [State.storeData, State.writeFrame, State.both, hw, hwu, Bool.false_eq_true, if_false, List.foldl_cons,
      List.foldl_nil, hu, hflush]
  obtain ⟨hwrite, hwritten⟩ := writeFrame_word u k a v hk (honly.errorFree hf) honly.fits hwu ha hlow hhigh
  rw [h]
  refine ⟨honly.trans hwrite, fun x => (hwritten x).trans ?_⟩
  by_cases hx : a ≤ x ∧ x < a + 4
  · rw [if_pos hx, if_pos hx]
  · rw [if_neg hx, if_neg hx, hbytes x (by omega)]

/-! ### Narrow stores -/

/-- R177: before a narrow store an entry of another word is flushed. -/
theorem narrowRoom (s : State) {k cw : Nat} (hf : ErrorFree s) (hl : LocalFits k s) :
    let u := if (s.eng k).localMerge.any (fun m => m.addr != cw) then s.flushLocal k else s
    SramOnly k s u ∧ (∀ x, localByte u k x = localByte s k x) ∧ ∀ m, (u.eng k).localMerge = some m → m.addr = cw := by
  intro u
  by_cases hany : (s.eng k).localMerge.any (fun m => m.addr != cw) = true
  · obtain ⟨honly, hbytes, hnone⟩ := flushLocal_entry s k hf hl
    have hu : u = s.flushLocal k := if_pos hany
    rw [hu]
    exact ⟨honly, hbytes, fun m hm => by rw [hnone] at hm; cases hm⟩
  · have hu : u = s := if_neg hany
    rw [hu]
    refine ⟨⟨OnlyIn.refl _ s, fun _ _ => rfl, hl⟩, fun _ => rfl, fun m hm => ?_⟩
    simpa [hm] using hany

/-- The entry that a narrow store leaves: its lanes joined with those of the word that wait. -/
def narrowEntry (s : State) (k id a n v : Nat) : LocalMerge :=
  let m := (s.eng k).localMerge.getD ⟨a - a % 4, [], [], s.cycle⟩
  ⟨a - a % 4, joined m.lanes (lanesOf (a % 4) n v), id % 16 :: m.owners.filter (· != id % 16), s.cycle⟩

theorem storeNarrow_eq (s : State) (k id a n v : Nat) : s.storeNarrow k id a n v =
    let r := if (s.eng k).localMerge.any (fun m => m.addr != a - a % 4) then s.flushLocal k else s
    let u := r.updEng k ({ · with localMerge := some (narrowEntry r k id a n v) })
    if (narrowEntry r k id a n v).lanes.length = 4 then u.flushLocal k else u := rfl

/-- A byte read through a local entry that a store of `n` bytes at `a`, within its word, has joined. -/
theorem entryByte_joined_word (lanes : Tab Byte) (a n v : Nat) (m : Byte) (x : Nat) (ha : a % 4 + n ≤ 4) :
    entryByte 4 (a - a % 4) (joined lanes (lanesOf (a % 4) n v)) m x =
      if a ≤ x ∧ x < a + n then BitVec.ofNat 8 (v / 256 ^ (x - a)) else entryByte 4 (a - a % 4) lanes m x := by
  simp only [entryByte, tabFind_joined _ _ (tabSorted_lanesOf _ _ _), tabFind_lanesOf]
  by_cases he : a - a % 4 = x - x % 4
  · by_cases hx : a ≤ x ∧ x < a + n
    · rw [if_pos he, if_pos hx, if_pos (by omega), show x % 4 - a % 4 = x - a by omega]
      rfl
    · rw [if_pos he, if_neg hx, if_pos he, if_neg (by omega), Option.none_or]
  · rw [if_neg he, if_neg (by omega), if_neg he]

/-- Bytes of a word seen through an entry, or through none. -/
theorem localByte_getD {s : State} {k cw : Nat} (hm : ∀ m, (s.eng k).localMerge = some m → m.addr = cw) (c : Nat) (x : Nat) :
    localByte s k x = entryByte 4 cw ((s.eng k).localMerge.getD ⟨cw, [], [], c⟩).lanes (readByte s.mem (engKey k x)) x := by
  cases he : (s.eng k).localMerge with
  | none => simp [localByte_none he, entryByte]
  | some m => rw [localByte_some he, hm m he, Option.getD_some]

/-- A narrow store joins the entry of its word. -/
theorem narrowEntry_form {r : State} {k a n v : Nat} (id : Nat) (hl : LocalFits k r) (hn : a % 4 + n ≤ 4) (hlow : 0x10000 ≤ a)
    (hhigh : a < 0x14000) : localForm (narrowEntry r k id a n v) = true := by
  have hold : LanesFit 4 ((r.eng k).localMerge.getD ⟨a - a % 4, [], [], r.cycle⟩).lanes := by
    cases he : (r.eng k).localMerge with
    | none => exact ⟨rfl, fun _ h => absurd h List.not_mem_nil⟩
    | some m => exact ((localForm_iff m).1 (hl m he)).2.2.2
  refine (localForm_iff _).2 ⟨?_, ?_, ?_, joined_fit hold fun l h => ?_⟩
  · simp only [narrowEntry]; omega
  · simp only [narrowEntry]; omega
  · simp only [narrowEntry]; omega
  · have := mem_lanesOf h; omega

/-- R176, R177: a narrow store within a word of data SRAM. -/
theorem storeNarrow_stored (s : State) {k a n : Nat} (id v : Nat) (hf : ErrorFree s) (hl : LocalFits k s)
    (hn : a % 4 + n ≤ 4) (hlow : 0x10000 ≤ a) (hhigh : a < 0x14000) :
    SramStored k a n v s (s.storeNarrow k id a n v) := by
  obtain ⟨hroom, hsame, haddr⟩ := narrowRoom s (cw := a - a % 4) hf hl
  rw [storeNarrow_eq]
  generalize (if (s.eng k).localMerge.any (fun m => m.addr != a - a % 4) then s.flushLocal k else s) = r at hroom hsame haddr ⊢
  have hform := narrowEntry_form (v := v) id hroom.fits hn hlow hhigh
  have hset := setEntry_sramOnly r k (some (narrowEntry r k id a n v)) fun x hx => by cases hx; exact hform
  have hstored : SramStored k a n v s (r.updEng k ({ · with localMerge := some (narrowEntry r k id a n v) })) := by
    refine ⟨hroom.trans hset, fun x => ?_⟩
    rw [localByte_some (congrArg Engine.localMerge (State.updEng_eng_same r k _)), ← hsame x, localByte_getD haddr r.cycle]
    exact entryByte_joined_word _ a n v _ x hn
  dsimp only
  split
  · obtain ⟨hflush, hbytes, -⟩ := flushLocal_entry _ k (hstored.only.errorFree hf) hstored.only.fits
    exact ⟨hstored.only.trans hflush, fun x => (hbytes x).trans (hstored.bytes x)⟩
  · exact hstored

/-! ### The instructions -/

/-- What STW does when it executes (R114 to R120, R176). -/
def stwBody (rd ra : Reg) (imm : BitVec 18) (id : Nat) (s : State) : Act :=
  let t := s.thr id
  let ea := ea18 t ra imm
  let a := ea.toNat
  if a % 4 ≠ 0 then .trap .align ea
  else if 0x14000 ≤ a then .trap .farerr ea
  else if a < 0x10000 then
    if s.codeW id then .next (s.storeCode (id / 16) a (t.rd rd)) else .trap .priv ea
  else .next (s.storeData (id / 16) a (t.rd rd))

theorem exec_stw (b : Beat) (rd ra : Reg) (imm : BitVec 18) (s : State) : exec (.stw b rd ra imm) s =
    .next (beat b { reads := [.reg ra, .reg rd] } (stwBody rd ra imm) s) := rfl

/-- What STH and STB do when they execute. -/
def smallBody (n : Nat) (rd ra : Reg) (imm : BitVec 18) (id : Nat) (s : State) : Act :=
  let t := s.thr id
  let ea := ea18 t ra imm
  let a := ea.toNat
  if a % n ≠ 0 ∨ a < 0x10000 then .trap .align ea
  else if 0x14000 ≤ a then .trap .farerr ea
  else .next ((s.both (id / 16)).foldl (fun s j => s.storeNarrow j id a n (t.rd rd).toNat) s)

theorem exec_sth (b : Beat) (rd ra : Reg) (imm : BitVec 18) (s : State) : exec (.sth b rd ra imm) s =
    .next (beat b { reads := [.reg ra, .reg rd] } (smallBody 2 rd ra imm) s) := rfl

theorem exec_stb (b : Beat) (rd ra : Reg) (imm : BitVec 18) (s : State) : exec (.stb b rd ra imm) s =
    .next (beat b { reads := [.reg ra, .reg rd] } (smallBody 1 rd ra imm) s) := rfl

theorem LocalFits.begun {id k : Nat} {s p : State} (h : LocalFits k s) (hp : Begun id s p) : LocalFits k p :=
  fun m hm => h m ((hp.engines k).2.1.symm.trans hm)

/-- A store to the engine's data SRAM has been done by thread `id`, which has gone on. -/
structure LocallyStored (id k a n v : Nat) (s s' : State) : Prop where
  value : localNat s' k a n = v % 256 ^ n
  bytes : ∀ x, x < 0x14000 → x < a ∨ a + n ≤ x → localByte s' k x = localByte s k x
  memory : MemoryOutside (engKey k 0x10000) 0x4000 s s'
  regs : OtherRegs id [] s s'
  status : (s'.thr id).status = (s.thr id).status
  pc : GoesOn id s s'
  others : OtherThreads id s s'
  units : SameUnits s s'

theorem perform_stored {id a n v : Nat} {s p u : State} (hp : Begun id s p) (hf : ErrorFree s) (hw : s.twin (id / 16) = false)
    (hu : SramStored (id / 16) a n v p u) : LocallyStored id (id / 16) a n v s (p.perform id (.next u)) := by
  obtain ⟨hend, hpc⟩ := perform_next_errorFree p u id (hu.only.errorFree (hp.errorFree hf))
    ((hu.only.twin _).trans ((hp.twin _).trans hw))
  have hmem : (p.perform id (.next u)).mem = u.mem := hend.only.mem (by simp)
  have hthr (j : Nat) : u.thr j = p.thr j := State.thr_of_threads p u (hu.only.only.threads (by simp)) j
  have hbyte (x : Nat) : localByte (p.perform id (.next u)) (id / 16) x = localByte u (id / 16) x :=
    localByte_congr (hend.engines _).2.1 hmem x
  have honly := ((hp.only.mono (by simp)).trans (hu.only.only.mono (by simp))).trans (hend.only.mono (by simp)) (ps :=
    [.engines, .threads, .mem])
  refine ⟨?_, fun x _ hx => ?_, fun x hx => ?_, fun r _ => ?_, ?_, ?_, fun j hj => ?_, honly.sameUnits⟩
  · rw [← hu.localNat, localNat_eq, localNat_eq, funext hbyte]
  · rw [hbyte, hu.bytes, if_neg (by omega), localByte_congr (hp.engines _).2.1 hp.mem]
  · rw [hmem, hu.only.outside x hx, hp.mem]
  · rw [rd_of_w hend.w, hthr, hp.rd]
  · rw [hend.status, hthr, hp.status]
  · rw [GoesOn, hpc, hp.pc]
  · rw [hend.others j hj, hthr, hp.others j hj]

section

variable {b : Beat} {rd ra : Reg} {imm : BitVec 18} {s : State} {ea : Word} (hc : Clean s)
  (hr : Ready b [.reg ra, .reg rd] false s) (hea : ea = (s.thr b.id).rd ra + imm.signExtend 32)
include hc hr

/-- The beat of a store that finds `u` to be the state with the store done. -/
theorem beat_stored {body : Nat → State → Act} {a n v : Nat} (h : ∀ p, Begun b.id s p → ∃ u, body b.id p = .next u ∧
    SramStored b.eng.val a n v p u) : LocallyStored b.id b.eng.val a n v s (beat b { reads := [.reg ra, .reg rd] } body s) := by
  have hp := takePosition_begun s b
  obtain ⟨u, hbody, hu⟩ := h _ hp
  rw [beat_ready b { reads := [.reg ra, .reg rd] } _ s hr, hbody]
  have hstored := perform_stored (u := u) (a := a) (n := n) (v := v) hp hc.errorFree (beat_id_div b ▸ hr.single)
    (by rw [beat_id_div]; exact hu)
  rwa [beat_id_div] at hstored

/-- The beat of an instruction that traps at issue. -/
theorem beat_traps {body : Nat → State → Act} (hstep : (s.thr b.id).stepping = false) {c : Trap} {info : Word}
    (h : ∀ p, Begun b.id s p → body b.id p = .trap c info) :
    TrapsAt b.id c info s (beat b { reads := [.reg ra, .reg rd] } body s) := by
  have hp := takePosition_begun s b
  rw [beat_ready b { reads := [.reg ra, .reg rd] } _ s hr, h _ hp]
  exact perform_traps hp _ _ (beat_id_lt b) hc (beat_id_div b ▸ hr.single) hstep

include hea

/-- R176: a word store to data SRAM. -/
theorem stw_stored (hm : mergeForm s = true) (hlow : 0x10000 ≤ ea.toNat) (hhigh : ea.toNat < 0x14000) (hal : ea.toNat % 4 = 0) :
    LocallyStored b.id b.eng.val ea.toNat 4 ((s.thr b.id).rd rd).toNat s
      (beat b { reads := [.reg ra, .reg rd] } (stwBody rd ra imm) s) := by
  refine beat_stored hc hr fun p hp => ⟨p.storeData b.eng.val ea.toNat ((s.thr b.id).rd rd), ?_, ?_⟩
  · simp [stwBody, hp.ea18, ← hea, hal, Nat.not_le.2 hhigh, Nat.not_lt.2 hlow, hp.rd, beat_id_div]
  · exact storeData_stored p _ b.eng.isLt (hp.errorFree hc.errorFree) ((localFits_of_mergeForm hm _).begun hp)
      ((hp.twin _).trans hr.single) hal hlow hhigh

/-- R176: a narrow store to data SRAM. -/
theorem small_stored {n : Nat} (hm : mergeForm s = true) (hlow : 0x10000 ≤ ea.toNat) (hhigh : ea.toNat < 0x14000)
    (hal : ea.toNat % n = 0) (hn : ea.toNat % 4 + n ≤ 4) :
    LocallyStored b.id b.eng.val ea.toNat n ((s.thr b.id).rd rd).toNat s
      (beat b { reads := [.reg ra, .reg rd] } (smallBody n rd ra imm) s) := by
  refine beat_stored hc hr fun p hp => ⟨p.storeNarrow b.eng.val b.id ea.toNat n ((s.thr b.id).rd rd).toNat, ?_, ?_⟩
  · simp [smallBody, hp.ea18, ← hea, hal, Nat.not_le.2 hhigh, Nat.not_lt.2 hlow, hp.rd, beat_id_div, State.both, hp.twin,
      hr.single]
  · exact storeNarrow_stored p _ _ (hp.errorFree hc.errorFree) ((localFits_of_mergeForm hm _).begun hp) hn hlow hhigh

/-- R116: the traps of a word store. -/
theorem stw_traps (hstep : (s.thr b.id).stepping = false) {c : Trap} (hcode : c = if ea.toNat % 4 = 0 then .farerr else .align)
    (hbad : ea.toNat % 4 ≠ 0 ∨ 0x14000 ≤ ea.toNat) :
    TrapsAt b.id c ea s (beat b { reads := [.reg ra, .reg rd] } (stwBody rd ra imm) s) := by
  refine beat_traps hc hr hstep fun p hp => ?_
  subst hcode
  by_cases hal : ea.toNat % 4 = 0
  · simp [stwBody, hp.ea18, ← hea, hal, hbad.resolve_left (not_not_intro hal)]
  · simp [stwBody, hp.ea18, ← hea, hal]

/-- R117, R120: a narrow store to code traps as a misaligned one does. -/
theorem small_align {n : Nat} (hstep : (s.thr b.id).stepping = false) (hbad : ea.toNat % n ≠ 0 ∨ ea.toNat < 0x10000) :
    TrapsAt b.id .align ea s (beat b { reads := [.reg ra, .reg rd] } (smallBody n rd ra imm) s) :=
  beat_traps hc hr hstep fun p hp => by simp only [smallBody, hp.ea18, ← hea, if_pos hbad]

theorem small_farerr {n : Nat} (hstep : (s.thr b.id).stepping = false) (hal : ea.toNat % n = 0) (hfar : 0x14000 ≤ ea.toNat) :
    TrapsAt b.id .farerr ea s (beat b { reads := [.reg ra, .reg rd] } (smallBody n rd ra imm) s) := by
  have hok : ¬ (ea.toNat % n ≠ 0 ∨ ea.toNat < 0x10000) := by omega
  exact beat_traps hc hr hstep fun p hp => by simp only [smallBody, hp.ea18, ← hea, if_neg hok, if_pos hfar]

end

/-- Settles O9: `storeData_stored` and `storeNarrow_stored` give the bytes, the order of the checks gives the traps. -/
theorem localStores : Obligations.LocalStores := by
  unfold Obligations.LocalStores
  intro b rd ra imm s hc hm hr t k ea a v traps gives
  have hgives {n : Nat} {s' : State} (h : LocallyStored b.id k a n v s s') : gives n s' :=
    ⟨h.value, h.bytes, h.memory, h.regs, h.status, h.pc, h.others, h.units⟩
  have hhalf : a % 2 = 0 → a % 4 + 2 ≤ 4 := by omega
  refine ⟨fun hlow hhigh => ⟨fun hal => ⟨_, exec_stw .., hgives ?_⟩, fun hal => ⟨_, exec_sth .., hgives ?_⟩,
      ⟨_, exec_stb .., hgives ?_⟩⟩,
    fun hstep => ⟨fun hal => ⟨_, exec_stw .., ?_⟩, fun hbad => ⟨_, exec_sth .., ?_⟩, fun hcode => ⟨_, exec_stb .., ?_⟩,
      fun hfar => ⟨fun hal => ⟨_, exec_stw .., ?_⟩, fun hal => ⟨_, exec_sth .., ?_⟩, ⟨_, exec_stb .., ?_⟩⟩⟩⟩
  · exact stw_stored hc hr rfl hm hlow hhigh hal
  · exact small_stored hc hr rfl hm hlow hhigh hal (hhalf hal)
  · exact small_stored hc hr rfl hm hlow hhigh (Nat.mod_one _) (by omega)
  · exact stw_traps hc hr rfl hstep (if_neg hal).symm (.inl hal)
  · exact small_align hc hr rfl hstep hbad
  · exact small_align hc hr rfl hstep (.inr hcode)
  · exact stw_traps hc hr rfl hstep (if_pos hal).symm (.inr hfar)
  · exact small_farerr hc hr rfl hstep hal hfar
  · exact small_farerr hc hr rfl hstep (Nat.mod_one _) hfar

end Sys2Proof

/-! SUPPORT. O10: code stores and the fetch-ahead words that take them (R120). -/

namespace Sys2Proof

open Machine

/-! ### The snoop -/

/-- The thread of an engine of no pair as the store of `v` at the code address `a` leaves it: a fetch-ahead word that holds the
address takes the word. -/
def snoopedAt (a : Nat) (v : Word) (t : Thread) : Thread :=
  if t.faAddr.toNat = a && t.st != .stopped then t.snooped true true v else t

theorem snoopedAt_context (a : Nat) (v : Word) (t : Thread) : (snoopedAt a v t).w = t.w ∧ (snoopedAt a v t).status = t.status
    ∧ (snoopedAt a v t).pc = t.pc := by
  unfold snoopedAt
  split <;> exact ⟨rfl, rfl, rfl⟩

theorem snoopedAt_held {a : Nat} {t : Thread} (v : Word) (ha : t.faAddr.toNat = a) (hst : t.st ≠ .stopped) :
    (snoopedAt a v t).faWord = v ∧ (snoopedAt a v t).faBad = false := by
  have hcond : (decide (t.faAddr.toNat = a) && t.st != .stopped) = true := by simp [ha, hst]
  rw [snoopedAt, if_pos hcond]
  exact ⟨rfl, rfl⟩

/-- The fold of a snoop over the first `n` threads: which threads of the engine it reaches. -/
theorem snoop_threads (s : State) (k a : Nat) (v : Word) (f : State → Nat → State) (hf : ∀ u i, u.twin k = s.twin k →
      OnlyIn [.threads] u (f u i) ∧ ∀ j, (f u i).thr j = if j = 16 * k + i then snoopedAt a v (u.thr j) else u.thr j) (n : Nat) :
    OnlyIn [.threads] s ((upTo n).foldl f s) ∧ ∀ j, ((upTo n).foldl f s).thr j =
      if 16 * k ≤ j ∧ j < 16 * k + n then snoopedAt a v (s.thr j) else s.thr j := by
  induction n with
  | zero => exact ⟨OnlyIn.refl _ s, fun j => (if_neg (by omega)).symm⟩
  | succ n ih =>
    obtain ⟨honly, hthr⟩ := ih
    rw [upTo, List.range_succ, List.foldl_append, List.foldl_cons, List.foldl_nil, ← upTo]
    have htwin : ((upTo n).foldl f s).twin k = s.twin k := by
      simp only [State.twin, State.reg_of_regs s _ (honly.regs (by simp))]
    obtain ⟨hstep, hj⟩ := hf _ n htwin
    refine ⟨honly.trans hstep, fun j => ?_⟩
    rw [hj, hthr]
    rcases Nat.lt_trichotomy j (16 * k + n) with h | h | h
    · rw [if_neg (by omega)]
      by_cases hlow : 16 * k ≤ j
      · rw [if_pos (by omega), if_pos (by omega)]
      · rw [if_neg (by omega), if_neg (by omega)]
    · rw [if_pos h, if_neg (by omega), if_pos (by omega)]
    · rw [if_neg (by omega), if_neg (by omega), if_neg (by omega)]

/-- R120: the snoop reaches the sixteen threads of the engine. -/
theorem snoop_single (s : State) (k a : Nat) (v : Word) (hw : s.twin k = false) :
    OnlyIn [.threads] s (s.snoop k a v) ∧ ∀ j, (s.snoop k a v).thr j =
      if 16 * k ≤ j ∧ j < 16 * k + 16 then snoopedAt a v (s.thr j) else s.thr j := by
  have hlead : s.lead k = k := by simp [State.lead, hw]
  unfold State.snoop
  rw [hlead]
  refine snoop_threads s k a v _ (fun u i hu => ?_) 16
  rw [hw] at hu
  by_cases hcond : (decide ((u.thr (16 * k + i)).faAddr.toNat = a) && (u.thr (16 * k + i)).st != .stopped) = true
  · simp only [hcond, if_true, hu, beq_self_eq_true, Bool.not_false, Bool.or_true]
    refine ⟨setThr_only u _ _, fun j => ?_⟩
    rw [State.setThr_thr]
    by_cases hj : j = 16 * k + i
    · rw [if_pos hj, if_pos hj, hj, snoopedAt, if_pos hcond]
    · rw [if_neg hj, if_neg hj]
  · simp only [hcond, if_false, Bool.false_eq_true]
    refine ⟨OnlyIn.refl _ u, fun j => ?_⟩
    by_cases hj : j = 16 * k + i
    · rw [if_pos hj, hj, snoopedAt, if_neg hcond]
    · rw [if_neg hj]

/-- R120: a code store writes the word and is snooped. -/
theorem storeCode_single (s : State) {k a : Nat} (v : Word) (hk : k < 16) (ha : a < 0x14000) (hf : ErrorFree s)
    (hw : s.twin k = false) : OnlyIn [.mem, .threads] s (s.storeCode k a v)
      ∧ (s.storeCode k a v).mem = writeWord s.mem (engKey k a) v
      ∧ ∀ j, (s.storeCode k a v).thr j =
        if 16 * k ≤ j ∧ j < 16 * k + 16 then snoopedAt a v (s.thr j) else s.thr j := by
  have h : s.storeCode k a v = ({ s with mem := writeWord s.mem (engKey k a) v }).snoop k a v := by
    simp only [State.storeCode, State.both, hw, Bool.false_eq_true, if_false, List.foldl_cons, List.foldl_nil,
      writeCode_errorFree _ _ _ hf, cwBytes_engKey hk ha, writeWord]
  obtain ⟨honly, hthr⟩ := snoop_single { s with mem := writeWord s.mem (engKey k a) v } k a v hw
  rw [h]
  exact ⟨((setMem_only s _).mono (by simp)).trans (honly.mono (by simp)), honly.mem (by simp), hthr⟩

/-! ### The instruction -/

theorem codeW_beat (b : Beat) (s : State) : s.codeW b.id = bit (s.reg (aThcfg b.eng.val b.thr.val)) 15 := by
  rw [State.codeW, beat_id_div, beat_id_mod]

theorem Begun.codeW {id : Nat} {s p : State} (hp : Begun id s p) : p.codeW id = s.codeW id := by
  simp only [State.codeW, hp.reg]

section

variable {b : Beat} {rd ra : Reg} {imm : BitVec 18} {s : State} {ea : Word} (hc : Clean s)
  (hr : Ready b [.reg ra, .reg rd] false s) (hea : ea = (s.thr b.id).rd ra + imm.signExtend 32)
  (hal : ea.toNat % 4 = 0) (hcode : ea.toNat < 0x10000)
include hc hr hea hal hcode

/-- R117: a code store without CODEW. -/
theorem stw_priv (hw : s.codeW b.id = false) (hstep : (s.thr b.id).stepping = false) :
    TrapsAt b.id .priv ea s (beat b { reads := [.reg ra, .reg rd] } (stwBody rd ra imm) s) :=
  beat_traps hc hr hstep fun p hp => by
    simp [stwBody, hp.ea18, ← hea, hal, hcode, hp.codeW, hw, show ¬ 0x14000 ≤ ea.toNat by omega]

/-- R120: a code store with CODEW, as the state of the thread's beat finds it done. -/
theorem stw_code (hw : s.codeW b.id = true) : ∃ p u, Begun b.id s p ∧ OnlyIn [.mem, .threads] p u
    ∧ u.mem = writeWord p.mem (engKey b.eng.val ea.toNat) ((s.thr b.id).rd rd)
    ∧ (∀ j, u.thr j = if 16 * b.eng.val ≤ j ∧ j < 16 * b.eng.val + 16 then snoopedAt ea.toNat ((s.thr b.id).rd rd) (p.thr j)
        else p.thr j)
    ∧ beat b { reads := [.reg ra, .reg rd] } (stwBody rd ra imm) s = p.perform b.id (.next u) := by
  have hp := takePosition_begun s b
  obtain ⟨honly, hmem, hthr⟩ := storeCode_single (s.takePosition b.eng.val b.pos.val b.thr.val) ((s.thr b.id).rd rd) b.eng.isLt
    (a := ea.toNat) (by omega) (hp.errorFree hc.errorFree) ((hp.twin _).trans hr.single)
  refine ⟨_, _, hp, honly, hmem, hthr, ?_⟩
  rw [beat_ready b { reads := [.reg ra, .reg rd] } _ s hr]
  simp [stwBody, hp.ea18, ← hea, hal, hcode, hp.codeW, hw, show ¬ 0x14000 ≤ ea.toNat by omega, hp.rd, beat_id_div]

end

/-- Settles O10: `storeCode_single` gives the word and the snooped threads. -/
theorem codeStore : Obligations.CodeStore := by
  unfold Obligations.CodeStore
  intro b rd ra imm s hc hr t k ea a hal hcode
  refine ⟨fun hw hstep => ⟨_, exec_stw .., ?_⟩, fun hw => ⟨_, exec_stw .., ?_⟩⟩
  · exact stw_priv hc hr rfl hal hcode ((codeW_beat b s).trans hw) hstep
  obtain ⟨p, u, hp, honly, hmem, hthr, he⟩ := stw_code hc hr (ea := ea) rfl hal hcode ((codeW_beat b s).trans hw)
  have htwin : u.twin (b.id / 16) = false := by
    simp only [State.twin, State.reg_of_regs p u (honly.regs (by simp)), hp.reg]
    rw [beat_id_div]; exact hr.single
  obtain ⟨hend, hpc⟩ := perform_next_errorFree p u b.id ((hp.errorFree hc.errorFree).of_only honly (by simp) (by simp)) htwin
  rw [he]
  have hall := hend.only.mem (by simp)
  have hown : (u.thr b.id).w = t.w ∧ (u.thr b.id).status = t.status := by
    have hctx := snoopedAt_context ea.toNat (t.rd rd) (p.thr b.id)
    rw [hthr]
    split
    · exact ⟨hctx.1.trans hp.w, hctx.2.1.trans hp.status⟩
    · exact ⟨hp.w, hp.status⟩
  refine ⟨?_, fun x hx => ?_, fun i hi hst hfa => ?_, fun r _ => ?_, ?_, ?_, ?_⟩
  · rw [hall, hmem, readWord_writeWord]
  · rw [hall, hmem, writeWord, readByte_writeBytes_outside _ _ _ _ (by rw [leBytes_length]; omega), hp.mem]
  · have hne : 16 * k + i.val ≠ b.id := fun h => hi (Fin.ext (by have := b.thr.isLt; simp only [Beat.id] at h; omega))
    rw [hend.others _ hne, hthr, if_pos (by have := i.isLt; omega), hp.others _ hne]
    exact snoopedAt_held _ hfa hst
  · exact (rd_of_w hend.w r).trans (rd_of_w hown.1 r)
  · exact hend.status.trans hown.2
  · rw [GoesOn, hpc, hp.pc]
  · exact ((hp.only.mono (by simp)).trans ((honly.mono (by simp)).trans (hend.only.mono (by simp))) (ps :=
      [.engines, .threads, .mem])).sameUnits

end Sys2Proof

/-! SUPPORT. One bit of a code word of image memory. -/

namespace Sys2Proof

open Machine

/-- The number `v` with its bit `p` put to `x`, as the read-modify-write of R133 computes it. -/
def putBit (v p : Nat) (x : Bool) : Nat := v - (v.testBit p).toNat * 2 ^ p + x.toNat * 2 ^ p

theorem testBit_putBit (v p : Nat) (x : Bool) (j : Nat) : (putBit v p x).testBit j = if j = p then x else v.testBit j := by
  -- both numbers are `2 ^ p * (2 * q + bit) + r` with `r < 2 ^ p`
  have hr : v % 2 ^ p < 2 ^ p := Nat.mod_lt _ (by positivity)
  have hv : v = 2 ^ p * (2 * (v / 2 ^ p / 2) + (v.testBit p).toNat) + v % 2 ^ p := by
    rw [Nat.toNat_testBit, Nat.div_add_mod, Nat.div_add_mod]
  have hput : putBit v p x = 2 ^ p * (2 * (v / 2 ^ p / 2) + x.toNat) + v % 2 ^ p := by
    have hsub : v - (v.testBit p).toNat * 2 ^ p = 2 ^ p * (2 * (v / 2 ^ p / 2)) + v % 2 ^ p := by
      refine Nat.sub_eq_of_eq_add (hv.trans ?_)
      ring
    rw [putBit, hsub]
    ring
  have hbit (o : Bool) (n : Nat) : (2 * (v / 2 ^ p / 2) + o.toNat).testBit n =
      if n = 0 then o else (v / 2 ^ p / 2).testBit (n - 1) := by
    cases n with
    | zero => cases o <;> simp [Nat.testBit_zero]
    | succ n =>
      have hhalf : (2 * (v / 2 ^ p / 2) + o.toNat) / 2 = v / 2 ^ p / 2 := by have := o.toNat_le; omega
      rw [Nat.testBit_add_one, hhalf, if_neg (by omega), Nat.add_sub_cancel]
  have hold : v.testBit j = (2 ^ p * (2 * (v / 2 ^ p / 2) + (v.testBit p).toNat) + v % 2 ^ p).testBit j := by rw [← hv]
  rw [hput, hold, Nat.testBit_two_pow_mul_add _ hr, Nat.testBit_two_pow_mul_add _ hr, hbit, hbit]
  by_cases hlt : j < p
  · rw [if_pos hlt, if_pos hlt, if_neg (by omega)]
  · by_cases hj : j = p
    · rw [if_neg hlt, if_pos hj, if_pos (by omega)]
    · rw [if_neg hlt, if_neg hlt, if_neg hj, if_neg (by omega), if_neg (by omega)]

section

variable (m : Memory) {cw : Nat}

/-- The bits of `n` bytes are bits of the code word around them (R10). -/
theorem testBit_leNat_slice {a n j : Nat} (h : cw ≤ a) (hn : a + n ≤ cw + 8) (hj : j < 8 * n) :
    (leNat (readBytes m a n)).testBit j = (leNat (readBytes m cw 8)).testBit (8 * (a - cw) + j) := by
  have hpow (k : Nat) : 256 ^ k = 2 ^ (8 * k) := by rw [Nat.pow_mul]
  rw [← leNat_readBytes_slice m h hn, hpow, hpow, Nat.testBit_mod_two_pow, decide_eq_true hj, Bool.true_and,
    Nat.testBit_div_two_pow, Nat.add_comm]

theorem readWord_bit {a j : Nat} (h : cw ≤ a) (hn : a + 4 ≤ cw + 8) (hj : j < 32) :
    (readWord m a).getLsbD j = (leNat (readBytes m cw 8)).testBit (8 * (a - cw) + j) := by
  rw [readWord, BitVec.getLsbD_ofNat, decide_eq_true hj, Bool.true_and]
  exact testBit_leNat_slice m h hn (by omega)

theorem readByte_bit {a j : Nat} (h : cw ≤ a) (hn : a < cw + 8) (hj : j < 8) :
    (readByte m a).getLsbD j = (leNat (readBytes m cw 8)).testBit (8 * (a - cw) + j) := by
  rw [← testBit_leNat_slice m h (n := 1) (by omega) (by omega)]
  simp [readBytes, leNat, BitVec.testBit_toNat]

/-- The memory with the bit `p` of the code word at `cw` put to `x`. -/
def putMem (cw p : Nat) (x : Bool) : Memory := writeBytes m cw (leBytes 8 (putBit (leNat (readBytes m cw 8)) p x))

theorem putMem_bit (p : Nat) (x : Bool) {j : Nat} (hj : j < 64) : (leNat (readBytes (putMem m cw p x) cw 8)).testBit j =
    if j = p then x else (leNat (readBytes m cw 8)).testBit j := by
  have h := readBytes_writeBytes m cw (leBytes 8 (putBit (leNat (readBytes m cw 8)) p x))
  rw [leBytes_length] at h
  rw [putMem, h, leNat_leBytes, show 256 ^ 8 = 2 ^ 64 from rfl, Nat.testBit_mod_two_pow, decide_eq_true hj, Bool.true_and,
    testBit_putBit]

variable {a i : Nat} (hcw : cw ≤ a) (ha : a + 4 ≤ cw + 8) (x : Bool)
include hcw ha

/-- Bit `i` of the word at `a` is put, the others stand. -/
theorem readWord_putMem (j : Nat) (hj : j < 32) : (readWord (putMem m cw (8 * (a - cw) + i) x) a).getLsbD j =
    if j = i then x else (readWord m a).getLsbD j := by
  rw [readWord_bit _ hcw ha hj, readWord_bit _ hcw ha hj, putMem_bit m _ x (by omega)]
  by_cases h : j = i
  · rw [if_pos (by omega), if_pos h]
  · rw [if_neg (by omega), if_neg h]

theorem readByte_putMem (hi : i < 32) (y : Nat) (hy : y < a ∨ a + 4 ≤ y) :
    readByte (putMem m cw (8 * (a - cw) + i) x) y = readByte m y := by
  by_cases hin : cw ≤ y ∧ y < cw + 8
  · refine BitVec.eq_of_getLsbD_eq fun j hj => ?_
    rw [readByte_bit _ hin.1 hin.2 hj, readByte_bit _ hin.1 hin.2 hj, putMem_bit m _ x (by omega), if_neg (by omega)]
  · exact readByte_writeBytes_outside _ _ _ _ (by rw [leBytes_length]; omega)

end

end Sys2Proof

/-! SUPPORT. O13: the far bit instructions (R133). -/

namespace Sys2Proof

open Machine

/-! ### The beat of a far instruction -/

/-- A far instruction of a thread that is ready and behind which nothing of its engine waits (R27, R213). -/
theorem farBeat_idle {b : Beat} {reads : List Dest} {s : State} (hi : FarIdle b s) (hr : Ready b reads true s)
    (body : Nat → State → Act) : farBeat b reads body s = ((s.takePosition b.eng.val b.pos.val b.thr.val).perform b.id
      (body b.id (s.takePosition b.eng.val b.pos.val b.thr.val))).settle := by
  have hp := takePosition_begun s b
  have hl := landNotes_none (s.takePosition b.eng.val b.pos.val b.thr.val) b.id (by rw [hp.hinge]; exact hi.2.1)
  have hf : (s.takePosition b.eng.val b.pos.val b.thr.val).flushFar (b.id / 16)
      = s.takePosition b.eng.val b.pos.val b.thr.val := by
    simp only [State.flushFar, takePosition_farMerge hi.1]
  simp only [farBeat]
  rw [beat_ready b { reads := reads, far := true } _ s hr, hl, hf]

/-- An engine whose threads execute does not hold its far instruction back (R24). -/
theorem farNext_on {id : Nat} {u : State} (h : (u.eng (id / 16)).power = .on) : farNext id u = .next u := by
  simp [farNext, h]

/-- A far instruction that the bus or the Tumbler unit has answered in the state `q` goes on with one request more. -/
theorem farBeat_told {b : Beat} {reads : List Dest} {s : State} (hs : Settled s) (hi : FarIdle b s) (hr : Ready b reads true s)
    {body : Nat → State → Act} {q : State} {ps : List Part} {isle : Isle} {phase : FarPhase} {dests : List (Dest × Word)}
    {err : Option (Trap × Word)}
    (hbody : body b.id (s.takePosition b.eng.val b.pos.val b.thr.val) = .next (q.request b.id isle phase dests err))
    (hq : OnlyIn ps (s.takePosition b.eng.val b.pos.val b.thr.val) q) (ht : Part.threads ∉ ps) (he : Part.engines ∉ ps)
    (hsys : Part.sys ∉ ps) (hf : ErrorFree q) (hw : q.reg aTwin = s.reg aTwin) :
    Told b.id isle phase dests err s q (farBeat b reads body s) := by
  have hp := takePosition_begun s b
  have hpow : (s.eng (b.id / 16)).power = .on := beat_id_div b ▸ engRuns_power hr.runs
  have hon : ((q.request b.id isle phase dests err).eng (b.id / 16)).power = .on := by
    have : (q.request b.id isle phase dests err).eng (b.id / 16) =
        (s.takePosition b.eng.val b.pos.val b.thr.val).eng (b.id / 16) := State.eng_of_engines _ q (hq.engines he) _
    rw [this, (hp.engines _).1, hpow]
  rw [farBeat_idle hi hr, hbody, ← farNext_on hon]
  exact perform_told hp hq ht he hf (by rw [State.twin, hw, beat_id_div]; exact hr.single)
    (by rw [Settled, hq.sys hsys, hp.sys]; exact hs) hpow isle phase dests err

/-! ### What a bit instruction does -/

/-- The state in which the bit instruction has written `x`, if anything, at `a` (R42, R133). -/
def bitWritten (id a i : Nat) (x : Option Bool) (p : State) : State :=
  match x with
  | some x => { p.noteWrites id [a, a + 1, a + 2, a + 3] with mem := putMem p.mem (a - a % 8) (8 * (a - (a - a % 8)) + i) x }
  | none => p

/-- What a bit instruction does when it executes (R117, R125, R133). -/
def farBitBody (new : Thread → Option Bool) (rd ra : Reg) (off : BitVec 9) (i : BitVec 5) (id : Nat) (s : State) : Act :=
  let t := s.thr id
  let ea := eaBit t ra off
  farCheck 4 ea inImage
    (let s := (s.landsAfter id ea.toNat).imageCycles 2
     let cw := cwOf ea.toNat
     let pos := 8 * (ea.toNat - cw) + i.toNat
     match s.readCode cw 0 id with
     | (s, none) => .next (s.request id .fabric .done [(.reg rd, 0), (.flagT, 0)] (some (.eccd, word cw)))
     | (s, some v) =>
       let old := v.testBit pos
       let s := match new t with
         | some x => (s.noteWrites id [ea.toNat, ea.toNat + 1, ea.toNat + 2, ea.toNat + 3]).writeCode cw
             (v - old.toNat * 2 ^ pos + x.toNat * 2 ^ pos)
         | none => s
       .next (s.request id .fabric .done [(.reg rd, bitWord old), (.flagT, bitWord old)] none))

theorem farBit_eq (new : Thread → Option Bool) (b : Beat) (reads : List Dest) (rd ra : Reg) (off : BitVec 9) (i : BitVec 5)
    (s : State) : farBit new b reads rd ra off i s = farBeat b (.reg ra :: reads) (farBitBody new rd ra off i) s := rfl

theorem bitWritten_only (id a i : Nat) (x : Option Bool) (p : State) : OnlyIn [.mem] p (bitWritten id a i x p) := by
  cases x with
  | none => exact OnlyIn.refl _ p
  | some x => exact ((noteWrites_only p _ _).mono (by simp)).trans (setMem_only _ _)

section

variable {b : Beat} {rd ra : Reg} {off : BitVec 9} {i : BitVec 5} {reads : List Dest} {new : Thread → Option Bool} {s : State}
  {ea : Word} (hc : Clean s) (hs : Settled s) (hi : FarIdle b s) (hr : Ready b (.reg ra :: reads) true s)
  (hea : ea = (s.thr b.id).rd ra + 4 * off.signExtend 32)
include hc hs hi hr hea

/-- R133: a bit instruction of image memory. -/
theorem farBit_told {x : Option Bool} (hnew : ∀ t : Thread, t.w = (s.thr b.id).w → new t = x) (ha : inImage ea.toNat = true)
    (hal : ea.toNat % 4 = 0) :
    let old := (readWord s.mem ea.toNat).getLsbD i.toNat
    ∃ p, p.mem = s.mem ∧ OnlyIn [.engines, .threads] s p ∧
      Told b.id .fabric .done [(.reg rd, bitWord old), (.flagT, bitWord old)] none s (bitWritten b.id ea.toNat i.toNat x p)
        (farBit new b reads rd ra off i s) := by
  intro old
  have hp := takePosition_begun s b
  refine ⟨_, hp.mem, hp.only, ?_⟩
  have hf := hp.errorFree hc.errorFree
  have honly := bitWritten_only b.id ea.toNat i.toNat x (s.takePosition b.eng.val b.pos.val b.thr.val)
  rw [farBit_eq]
  refine farBeat_told hs hi hr ?_ honly (by simp) (by simp) (by simp) (hf.of_only honly (by simp) (by simp))
    ((State.reg_of_regs _ _ (honly.regs (by simp)) _).trans (hp.reg _))
  generalize s.takePosition b.eng.val b.pos.val b.thr.val = p at hp hf
  have hcw : cwOf ea.toNat = ea.toNat - ea.toNat % 8 := by rw [cwOf, cwBytes_far (.inl ha)]
  have hword : cwBytes (memNum (ea.toNat - ea.toNat % 8)) = 8 := cwBytes_far (far_dword (.inl ha))
  have hlands : p.landsAfter b.id ea.toNat = p := by
    rw [State.landsAfter, hp.outranked, outranked_none _ _ _ hc.2.2]; rfl
  have hcycles : p.imageCycles 2 = p := by simp [State.imageCycles, hp.scan, hi.2.2]
  have hold : (leNat (readBytes p.mem (ea.toNat - ea.toNat % 8) 8)).testBit
      (8 * (ea.toNat - (ea.toNat - ea.toNat % 8)) + i.toNat) = old := by
    rw [hp.mem]
    exact (readWord_bit s.mem (by omega) (by omega) i.isLt).symm
  simp only [farBitBody, show eaBit (p.thr b.id) ra off = ea by rw [eaBit, hp.rd, hea], farCheck_ok _ _ _ _ hal ha, hlands,
    hcycles, hcw, readCode_errorFree p _ _ _ hf, hword, hnew (p.thr b.id) hp.w, hold]
  cases x with
  | none => rfl
  | some x =>
    dsimp only
    rw [writeCode_errorFree _ _ _ (hf.of_only (noteWrites_only p _ _) (by simp) (by simp)), hword, bitWritten, putMem, putBit,
      hold, State.noteWrites_mem]

/-- R116, R117: the traps of a bit instruction. -/
theorem farBit_traps (hstep : (s.thr b.id).stepping = false) {c : Trap}
    (hcode : c = if ea.toNat % 4 = 0 then .farerr else .align) (hbad : ea.toNat % 4 ≠ 0 ∨ inImage ea.toNat = false) :
    TrapsAt b.id c ea s (farBit new b reads rd ra off i s) := by
  have hp := takePosition_begun s b
  have hbody : farBitBody new rd ra off i b.id (s.takePosition b.eng.val b.pos.val b.thr.val) = .trap c ea := by
    have he : eaBit ((s.takePosition b.eng.val b.pos.val b.thr.val).thr b.id) ra off = ea := by rw [eaBit, hp.rd, hea]
    subst hcode
    by_cases hal : ea.toNat % 4 = 0
    · simp only [farBitBody, he, farCheck_farerr _ _ _ _ hal (hbad.resolve_left (not_not_intro hal)), if_pos hal]
    · simp only [farBitBody, he, farCheck_align _ _ _ _ hal, if_neg hal]
  rw [farBit_eq, farBeat_idle hi hr, hbody]
  exact perform_trapsAt hp _ _ (beat_id_lt b) hc hs (beat_id_div b ▸ hr.single) hstep

end

/-- What is left by a bit instruction that has put `new` in the place of the old bit. -/
theorem Told.bitPut {id a : Nat} {i : BitVec 5} {x : Option Bool} {dests : List (Dest × Word)} {s p t : State} {new : Bool}
    (h : Told id .fabric .done dests none s (bitWritten id a i.toNat x p) t) (hm : p.mem = s.mem)
    (hp : OnlyIn [.engines, .threads] s p) (ha : a % 4 = 0)
    (hnew : x.getD ((readWord s.mem a).getLsbD i.toNat) = new) :
    Issued id .fabric .done dests s t ∧ (readWord t.mem a).getLsbD i.toNat = new
      ∧ (∀ j, j ≠ i.toNat → (readWord t.mem a).getLsbD j = (readWord s.mem a).getLsbD j)
      ∧ MemoryOutside a 4 s t ∧ NoResult id s t ∧ OtherThreads id s t ∧ SameUnits s t := by
  have honly := ((hp.mono (by simp)).trans ((bitWritten_only id a i.toNat x p).mono (by simp))).trans (h.only.mono (by simp))
    (ps := [.engines, .threads, .mem])
  have hmem : t.mem = (bitWritten id a i.toNat x p).mem := h.only.mem (by simp)
  refine ⟨h.issued, ?_, fun j hj => ?_, fun y hy => ?_, h.result, h.others, honly.sameUnits⟩
  · cases x with
    | none => rw [hmem, bitWritten, hm]; exact hnew
    | some x => rw [hmem, bitWritten, hm, readWord_putMem s.mem (by omega) (by omega) x _ i.isLt, if_pos rfl]; exact hnew
  · by_cases hlt : j < 32
    · cases x with
      | none => rw [hmem, bitWritten, hm]
      | some x => rw [hmem, bitWritten, hm, readWord_putMem s.mem (by omega) (by omega) x _ hlt, if_neg hj]
    · rw [BitVec.getLsbD_of_ge _ _ (by omega), BitVec.getLsbD_of_ge _ _ (by omega)]
  · cases x with
    | none => rw [hmem, bitWritten, hm]
    | some x => rw [hmem, bitWritten, hm]; exact readByte_putMem s.mem (by omega) (by omega) x i.isLt y hy

/-- Settles O13: one request carries the old bit, and `putMem` changes that bit alone. -/
theorem farBits : Obligations.FarBits := by
  unfold Obligations.FarBits
  intro b rd rb ra off i s hc hs hi hr t ea a old four gives
  have hra := hr.reading [.reg ra] (by simp)
  have hput {reads : List Dest} {new : Thread → Option Bool} {x : Option Bool} {y : Bool} (hr' : Ready b (.reg ra :: reads) true s)
      (hnew : ∀ u : Thread, u.w = t.w → new u = x) (hy : x.getD old = y) (ha : inImage a = true) (hal : a % 4 = 0) :
      gives y (farBit new b reads rd ra off i s) := by
    obtain ⟨p, hm, hp, htold⟩ := farBit_told (rd := rd) (ea := ea) hc hs hi hr' rfl hnew ha hal
    exact htold.bitPut hm hp hal hy
  have htraps {c : Trap} (hstep : t.stepping = false) (hcode : c = if a % 4 = 0 then .farerr else .align)
      (hbad : a % 4 ≠ 0 ∨ inImage a = false) : four fun s' => TrapsAt b.id c ea s s' :=
    ⟨⟨_, rfl, farBit_traps hc hs hi hra rfl hstep hcode hbad⟩, ⟨_, rfl, farBit_traps hc hs hi hra rfl hstep hcode hbad⟩,
      ⟨_, rfl, farBit_traps hc hs hi hra rfl hstep hcode hbad⟩, ⟨_, rfl, farBit_traps hc hs hi hr rfl hstep hcode hbad⟩⟩
  exact ⟨fun ha hal => ⟨⟨_, rfl, hput hra (fun _ _ => rfl) rfl ha hal⟩, ⟨_, rfl, hput hra (fun _ _ => rfl) rfl ha hal⟩,
      ⟨_, rfl, hput hra (fun _ _ => rfl) rfl ha hal⟩, ⟨_, rfl, hput hr (fun u hu => by rw [rd_of_w hu]) rfl ha hal⟩⟩,
    fun hstep => ⟨fun hal => htraps hstep (if_neg hal).symm (.inl hal), fun hal him => htraps hstep (if_pos hal).symm (.inr him)⟩⟩

end Sys2Proof

/-! SUPPORT. O24: requests to the pad island (R106, R130, R137). -/

namespace Sys2Proof

open Machine

/-! ### The requests that wait in the far port of an engine -/

/-- The far port of every engine holds the same requests. -/
def SamePort (s t : State) : Prop := ∀ j, (t.eng j).padReqs = (s.eng j).padReqs

theorem SamePort.trans {s t u : State} (h : SamePort s t) (h' : SamePort t u) : SamePort s u := fun j => (h' j).trans (h j)

theorem updEng_samePort (s : State) (k : Nat) {f : Engine → Engine} (hf : ∀ e, (f e).padReqs = e.padReqs) :
    SamePort s (s.updEng k f) := by
  intro j
  rw [State.updEng_eng]
  split
  · subst_vars; exact hf _
  · rfl

theorem dropHolder_samePort (s : State) (id : Nat) : SamePort s (s.dropHolder id) :=
  updEng_samePort s (id / 16) fun e => by split <;> rfl

theorem halt_samePort (s : State) (id : Nat) : SamePort s (s.halt id) := by
  simp only [State.halt]
  split
  · exact fun _ => rfl
  · exact dropHolder_samePort (s.updThr id (·.enter s.cycle .halted)) id

theorem done_samePort (s : State) (id : Nat) (pc : Word) : SamePort s (s.done id pc) := by
  simp only [State.done, State.stepEnd]
  split
  · exact halt_samePort (s.updThr id _) id
  · exact fun _ => rfl

theorem takePosition_samePort (s : State) (k p t : Nat) : SamePort s (s.takePosition k p t) := by
  intro j
  simp only [State.takePosition]
  rw [State.updThr_eng]
  split
  · exact updEng_samePort _ k (fun e => by split <;> rfl) j
  · rfl

/-- R118: an instruction that goes on leaves the far ports. -/
theorem perform_next_samePort (s u : State) (id : Nat) (h : ErrorFree u) (ht : u.twin (id / 16) = false) :
    SamePort u (s.perform id (.next u)) := by
  obtain ⟨v, hv⟩ := fill_errorFree (u.updThr id fun t => { t with pc := pcOf ((s.thr id).pc + 4) }) id
    (pcOf ((s.thr id).pc + 4)) false h ht
  simp only [State.perform, State.goTo, hv]
  exact done_samePort ((u.updThr id _).updThr id _) id _

/-! ### A request to the pad island -/

/-- What stands at the far port at the beat of a thread is what stood there before. -/
theorem Begun.updEng {id : Nat} {s p : State} (hp : Begun id s p) (k : Nat) {f : Engine → Engine} (hf : ∀ e, SameEngine e (f e)) :
    Begun id s (p.updEng k f) where
  only := hp.only.trans ((setEng_only p k _).mono (by simp))
  thr := hp.thr
  others := hp.others
  engines := fun j => updEng_same p k j (hp.engines j) hf
  now := hp.now

theorem timed_of_regs {s u : State} (h : u.regs = s.regs) (k t : Nat) : u.timed k t = s.timed k t := by
  simp only [State.timed, State.owns, State.posByte, State.reg_of_regs s u h]

/-- R106, R130: thread `id` has sent `r` to the pad island. -/
structure PadSent (id : Nat) (r : PadReq) (dests : List (Dest × Word)) (s s' : State) : Prop where
  port : (s'.eng (id / 16)).padReqs =
    portInsert (fun i => s.timed (i / 16) (i % 16)) r (s.eng (id / 16)).padReqs
  issued : Issued id .pad .flight dests s s'
  result : NoResult id s s'
  frame : OnlyThread id s s'

theorem perform_padSent {id : Nat} {s p : State} (hp : Begun id s p) (hport : SamePort s p) (hf : ErrorFree s) (hs : Settled s)
    (hw : s.twin (id / 16) = false) (hon : (s.eng (id / 16)).power = .on) {r : PadReq} (hr : r.thr = id)
    (dests : List (Dest × Word)) : PadSent id r dests s (p.perform id (.next (p.padSend r dests))).settle := by
  subst hr
  -- the request joins the far port and the outstanding requests of its thread in either order
  generalize hq : p.updEng (r.thr / 16) (fun e =>
    { e with padReqs := portInsert (fun i => p.timed (i / 16) (i % 16)) r e.padReqs }) = q
  have hbegun : Begun r.thr s q := hq ▸ hp.updEng _ fun _ => ⟨rfl, rfl, rfl⟩
  have hinserted : (q.eng (r.thr / 16)).padReqs =
      portInsert (fun i => p.timed (i / 16) (i % 16)) r (p.eng (r.thr / 16)).padReqs := by rw [← hq, State.updEng_eng_same]
  have hsend : p.padSend r dests = q.request r.thr .pad .flight dests none := by subst hq; rfl
  have hperform (u : State) : p.perform r.thr (.next u) = q.perform r.thr (.next u) := by subst hq; rfl
  have hpow : ((q.request r.thr .pad .flight dests none).eng (r.thr / 16)).power = .on :=
    ((hbegun.engines _).1.trans hon : (q.eng (r.thr / 16)).power = .on)
  have hqe := hbegun.errorFree hf
  have hqw : q.twin (r.thr / 16) = false := (hbegun.twin _).trans hw
  have hqs : Settled q := by rw [Settled, hbegun.sys]; exact hs
  have htold := perform_told (ps := []) hbegun (OnlyIn.refl _ q) (by simp) (by simp) hqe hqw hqs hon .pad .flight dests none
  have hue := hqe.of_only (request_only q r.thr .pad .flight dests none) (by simp) (by simp)
  have hsys := (perform_next_errorFree q (q.request r.thr .pad .flight dests none) r.thr hue hqw).1.only.sys (by simp)
  rw [farNext_on hpow] at htold
  rw [hsend, hperform]
  have honly := hbegun.only.trans htold.only
  refine ⟨?_, htold.issued, htold.result, SameMemory.of_mem (honly.mem (by simp)), htold.others, (honly.mono (by simp)).sameUnits⟩
  rw [settle_of_sys (s := q) hqs hsys, perform_next_samePort q _ r.thr hue hqw, ← hport]
  have htimed : (fun i => p.timed (i / 16) (i % 16)) = fun i => s.timed (i / 16) (i % 16) := 
    funext fun _ => timed_of_regs (hp.only.regs (by simp)) _ _
  rw [← htimed]
  exact hinserted

/-! ### The instructions -/

/-- A thread that is ready for a far instruction is ready for one that reads nothing and issues nothing. -/
theorem Ready.unread {b : Beat} {rs : List Dest} {s : State} (h : Ready b rs true s) : Ready b [] false s :=
  ⟨h.runs, h.single, h.position, h.boundary, h.undivided, h.fetched, fun _ hd => absurd hd List.not_mem_nil,
    fun h => absurd h (by decide), h.space⟩

section

variable {b : Beat} {s : State} (hc : Clean s)
include hc

/-- R106: an illegal form traps before it sends anything. -/
theorem illegal_traps (hr : Ready b [] false s) (hstep : (s.thr b.id).stepping = false) {m n : Nat} (h : m = n) :
    TrapsAt b.id .illop (BitVec.ofNat 32 n) s (beat b {} (fun _ _ => .trap .illop (word m)) s) := by
  subst h
  rw [beat_ready b {} _ s hr]
  exact perform_traps (takePosition_begun s b) _ _ (beat_id_lt b) hc (beat_id_div b ▸ hr.single) hstep

/-- The beat of an instruction whose one effect is a request to the pad island. -/
theorem farBeat_padSent (hs : Settled s) (hi : FarIdle b s) {reads : List Dest} (hr : Ready b reads true s)
    {body : Nat → State → Act} {r : PadReq} {dests : List (Dest × Word)} (hid : r.thr = b.id)
    (h : ∀ p, Begun b.id s p → body b.id p = .next (p.padSend r dests)) :
    PadSent b.id r dests s (farBeat b reads body s) := by
  have hp := takePosition_begun s b
  rw [farBeat_idle hi hr, h _ hp]
  exact perform_padSent hp (takePosition_samePort s _ _ _) hc.errorFree hs (beat_id_div b ▸ hr.single)
    (beat_id_div b ▸ engRuns_power hr.runs) hid dests

end

theorem Begun.padOf {id : Nat} {s p : State} (hp : Begun id s p) (pad : PadSelect) : padOf (p.thr id) pad = padOf (s.thr id) pad := by
  cases pad <;> simp [Machine.padOf, hp.rd]

theorem exec_pset_illegal (b : Beat) (pad : PadSelect) (rb : Reg) (s : State) : exec (.pset b pad 3 rb) s =
    .next (beat b {} (fun _ _ => .trap .illop (word (0x3A * 2 ^ 26 + rb.val * 2 ^ 14 + 3 * 2 ^ 7 + padField pad))) s) := rfl

theorem exec_pcap_illegal (b : Beat) {rd : Reg} (pad : PadSelect) (s : State) (h : rd.val % 2 = 1) : exec (.pcap b rd pad) s =
    .next (beat b {} (fun _ _ => .trap .illop (word (0x3B * 2 ^ 26 + rd.val * 2 ^ 22 + padField pad))) s) :=
  congrArg Host.Outcome.next (if_pos h)

/-- What a legal PSET does when it executes. -/
def psetBody (pad : PadSelect) (level : BitVec 2) (rb : Reg) (id : Nat) (s : State) : Act :=
  .next (s.padSend ⟨id, padOf (s.thr id) pad, some (level, (s.thr id).rd rb), 0, (s.thr id).pc⟩ [])

/-- What a legal PCAP does when it executes. -/
def pcapBody (rd : Reg) (pad : PadSelect) (id : Nat) (s : State) : Act :=
  .next (s.padSend ⟨id, padOf (s.thr id) pad, none, rd, (s.thr id).pc⟩ [(.reg rd, 0), (.reg (rd + 1), 0), (.flagT, 0)])

theorem exec_pset (b : Beat) (pad : PadSelect) {level : BitVec 2} (rb : Reg) (s : State) (h : level ≠ 3) :
    exec (.pset b pad level rb) s = .next (farBeat b (.reg rb :: padReads pad) (psetBody pad level rb) s) :=
  congrArg Host.Outcome.next (if_neg h)

theorem exec_pcap (b : Beat) {rd : Reg} (pad : PadSelect) (s : State) (h : rd.val % 2 = 0) :
    exec (.pcap b rd pad) s = .next (farBeat b (padReads pad) (pcapBody rd pad) s) :=
  congrArg Host.Outcome.next (if_neg (by omega))

/-- Settles O24: a legal form sends its request through `perform_padSent`, an illegal one traps. -/
theorem threadPads : Obligations.ThreadPads := by
  unfold Obligations.ThreadPads
  intro b pad level rb rd s hc hs hi hr t sent
  have hsent {r : PadReq} {dests : List (Dest × Word)} {s' : State} (h : PadSent b.id r dests s s') : sent r dests s' := by
    obtain ⟨hport, hissued, hresult, hframe⟩ := h
    rw [beat_id_div] at hport
    exact ⟨hport, hissued, hresult, hframe⟩
  have hready := hr.unread
  refine ⟨fun hstep j => ⟨⟨_, exec_pset_illegal .., ?_⟩, fun hodd => ⟨_, exec_pcap_illegal _ _ _ hodd, ?_⟩,
      fun p => ⟨⟨_, exec_pset_illegal .., ?_⟩, fun hodd => ⟨_, exec_pcap_illegal _ _ _ hodd, ?_⟩⟩⟩,
    fun hl => ⟨_, exec_pset _ _ _ _ hl, hsent ?_⟩, fun heven => ⟨_, exec_pcap _ _ _ heven, hsent ?_⟩⟩
  · exact illegal_traps hc hready hstep (by simp only [padField]; omega)
  · exact illegal_traps hc hready hstep (by simp only [padField]; omega)
  · exact illegal_traps hc hready hstep rfl
  · exact illegal_traps hc hready hstep rfl
  · exact farBeat_padSent hc hs hi hr rfl fun p hp => by rw [psetBody, hp.padOf, hp.rd, hp.pc]
  · exact farBeat_padSent hc hs hi (hr.reading (padReads pad) fun d hd => List.mem_cons_of_mem _ hd) rfl fun p hp => by
      rw [pcapBody, hp.padOf, hp.pc]

end Sys2Proof

/-! SUPPORT. Waits of a thread: the suspension, and a wait that completes at once (R78, R86, R138, R140). -/

namespace Sys2Proof

open Machine

/-! ### The suspension -/

@[simp] theorem enter_ev (t : Thread) (c : Nat) (st : ThreadState) : (t.enter c st).ev = t.ev := by
  simp only [Thread.enter]; split <;> rfl
@[simp] theorem enter_armed (t : Thread) (c : Nat) (st : ThreadState) : (t.enter c st).armed = t.armed := by
  simp only [Thread.enter]; split <;> rfl

/-- The state in which thread `id` has suspended, with `f` done to the thread. -/
def suspend (id : Nat) (f : Thread → Thread) (s : State) : State := (s.setSt id .waiting).updThr id f

/-- A slack thread that suspends gives up the pool (R77). -/
theorem dropHolder_holder (s : State) (id : Nat) : ((s.dropHolder id).eng (id / 16)).holder.map Fin.val ≠ some (id % 16) := by
  intro h
  rw [State.dropHolder, State.updEng_eng_same] at h
  split at h
  · cases h
  · next hne => exact hne (by simp [h])

section

variable (id : Nat) (f : Thread → Thread) (s : State)

theorem suspend_thr : (suspend id f s).thr id = f ((s.thr id).enter s.cycle .waiting) := by
  have h : (s.setSt id .waiting).thr id = (s.thr id).enter s.cycle .waiting :=
    State.updThr_thr_same s id (·.enter s.cycle .waiting)
  rw [suspend, State.updThr_thr_same, h]

theorem suspend_others : OtherThreads id s (suspend id f s) := fun j hj => by
  rw [suspend, State.updThr_thr, if_neg hj]
  exact updThr_others s id (·.enter s.cycle .waiting) j hj

theorem suspend_only : OnlyIn [.engines, .threads] s (suspend id f s) :=
  (((updThr_only s id _).mono (by simp)).trans ((setEng_only _ (id / 16) _).mono (by simp))).trans
    ((updThr_only _ id f).mono (by simp))

theorem suspend_holder : ((suspend id f s).eng (id / 16)).holder.map Fin.val ≠ some (id % 16) :=
  dropHolder_holder (s.updThr id (·.enter s.cycle .waiting)) id

theorem suspend_power (j : Nat) : ((suspend id f s).eng j).power = (s.eng j).power :=
  (dropHolder_engine (s.updThr id (·.enter s.cycle .waiting)) id j).1

theorem suspend_sameNow : (suspend id f s).sameNow = s.sameNow := sameNow_congr rfl rfl

end

/-! ### A wait that completes -/

theorem wdWait_context (s : State) (id : Nat) (t : Thread) : (s.wdWait id t).w = t.w ∧ (s.wdWait id t).status = t.status
    ∧ (s.wdWait id t).pc = t.pc ∧ (s.wdWait id t).ev = t.ev ∧ (s.wdWait id t).stepping = t.stepping := by
  simp only [State.wdWait]
  split <;> exact ⟨rfl, rfl, rfl, rfl, rfl⟩

/-- The thread at `pc` as the completion of its wait leaves it, in an island that runs. -/
def wokenThr (s : State) (id : Nat) (pc : Word) (t : Thread) : Thread :=
  let t := if t.bpSkip = some pc then { t with bpSkip := none } else t
  { (s.wdWait id t).enter s.cycle .ready with wait := .none }

theorem wokenThr_context (s : State) (id : Nat) (pc : Word) (t : Thread) : (wokenThr s id pc t).w = t.w
    ∧ (wokenThr s id pc t).status = t.status ∧ (wokenThr s id pc t).pc = t.pc ∧ (wokenThr s id pc t).ev = t.ev
    ∧ (wokenThr s id pc t).stepping = t.stepping ∧ (wokenThr s id pc t).st = .ready := by
  simp only [wokenThr]
  obtain ⟨hw, hst, hpc, hev, hstep⟩ := wdWait_context s id (if t.bpSkip = some pc then { t with bpSkip := none } else t)
  simp only [enter_w, enter_status, enter_pc, enter_ev, enter_stepping, enter_st, hw, hst, hpc, hev, hstep]
  split <;> exact ⟨rfl, rfl, rfl, rfl, rfl, trivial⟩

/-- R138, R140: the wait of a thread that waits in an island that runs completes. -/
theorem completeWait_waiting {s : State} {id : Nat} (hst : ((s.goTo id (pcOf ((s.thr id).pc + 4))).thr id).st = .waiting)
    (hon : (s.goTo id (pcOf ((s.thr id).pc + 4))).islandOn (id / 16) = true) : (s.completeWait id).thr id =
      wokenThr (s.goTo id (pcOf ((s.thr id).pc + 4))) id (s.thr id).pc ((s.goTo id (pcOf ((s.thr id).pc + 4))).thr id) := by
  have hskip (t : Thread) (pc : Word) : (if t.bpSkip = some pc then { t with bpSkip := none } else t).st = t.st := by split <;> rfl
  simp only [State.completeWait, State.updThr_thr_same, hon, if_true, wokenThr]
  split
  · next h => rw [hskip, hst] at h; cases h
  · rfl

/-- The wait of thread `id` is over, the thread in state `st`, and nothing else of the state `u` has changed, in which the thread had
suspended. -/
structure WaitOver (id : Nat) (st : ThreadState) (u x : State) : Prop where
  w : (x.thr id).w = (u.thr id).w
  status : (x.thr id).status = (u.thr id).status
  pc : (x.thr id).pc = pcOf ((u.thr id).pc + 4)
  ev : (x.thr id).ev = (u.thr id).ev
  stepping : (x.thr id).stepping = (u.thr id).stepping
  st : (x.thr id).st = st
  others : OtherThreads id u x
  only : OnlyIn [.threads] u x

/-- A change of the thread that keeps its context. -/
theorem WaitOver.updThr {id : Nat} {st st' : ThreadState} {u x : State} (h : WaitOver id st u x) {f : Thread → Thread}
    (hw : (f (x.thr id)).w = (x.thr id).w) (hs : (f (x.thr id)).status = (x.thr id).status)
    (hpc : (f (x.thr id)).pc = (x.thr id).pc) (hev : (f (x.thr id)).ev = (x.thr id).ev)
    (hstep : (f (x.thr id)).stepping = (x.thr id).stepping) (hst : (f (x.thr id)).st = st') :
    WaitOver id st' u (x.updThr id f) := by
  have hx := State.updThr_thr_same x id f
  exact ⟨by rw [hx, hw, h.w], by rw [hx, hs, h.status], by rw [hx, hpc, h.pc], by rw [hx, hev, h.ev],
    by rw [hx, hstep, h.stepping], by rw [hx, hst], fun j hj => (updThr_others x id f j hj).trans (h.others j hj),
    h.only.trans (updThr_only x id f)⟩

theorem completeWait_waitOver {u : State} {id : Nat} (hf : ErrorFree u) (hw : u.twin (id / 16) = false)
    (hst : (u.thr id).st = .waiting) (hon : (u.eng (id / 16)).power = .on) : WaitOver id .ready u (u.completeWait id) := by
  obtain ⟨v, hv⟩ := fill_errorFree (u.updThr id ({ · with pc := pcOf ((u.thr id).pc + 4) })) id (pcOf ((u.thr id).pc + 4)) false hf hw
  have hgo : u.goTo id (pcOf ((u.thr id).pc + 4)) = (u.updThr id ({ · with pc := pcOf ((u.thr id).pc + 4) })).updThr id _ := hv
  have hisland : (u.goTo id (pcOf ((u.thr id).pc + 4))).islandOn (id / 16) = true := by
    rw [hgo]; simp only [State.islandOn, State.updThr_eng, hon, beq_self_eq_true]
  generalize hg : u.goTo id (pcOf ((u.thr id).pc + 4)) = g at hgo hisland
  have hthr := completeWait_waiting (s := u) (id := id) (by rw [hg, hgo, State.updThr_thr_same, State.updThr_thr_same]; exact hst)
    (hg ▸ hisland)
  rw [hg] at hthr
  obtain ⟨cw, cst, cpc, cev, cstep, crdy⟩ := wokenThr_context g id (u.thr id).pc (g.thr id)
  rw [← hthr] at cw cst cpc cev cstep crdy
  obtain ⟨honly, hothers⟩ := completeWait_only u id hf
  have hgthr : (g.thr id).w = (u.thr id).w ∧ (g.thr id).status = (u.thr id).status ∧ (g.thr id).pc = pcOf ((u.thr id).pc + 4)
      ∧ (g.thr id).ev = (u.thr id).ev ∧ (g.thr id).stepping = (u.thr id).stepping := by
    subst hgo; simp
  obtain ⟨gw, gst, gpc, gev, gstep⟩ := hgthr
  exact ⟨cw.trans gw, cst.trans gst, cpc.trans gpc, cev.trans gev, cstep.trans gstep, crdy, hothers, honly⟩

/-- R78, R86: a slack thread has given up the pool, a timed one runs on. -/
theorem WaitOver.atOnce {id : Nat} {u x : State} (h : WaitOver id .ready u x) :
    WaitOver id (if u.timed (id / 16) (id % 16) then .running else .ready) u (x.atOnce id) := by
  simp only [State.atOnce, h.st, beq_self_eq_true, Bool.true_and, timed_of_regs (h.only.regs (by simp))]
  split
  · exact h.updThr (by simp) (by simp) (by simp) (by simp) (by simp) (by simp)
  · exact h

/-- The thread past its instruction at `pc`: a breakpoint that it skipped there matches again (R167). -/
def unskipped (pc : Word) (t : Thread) : Thread := if t.bpSkip = some pc then { t with bpSkip := none } else t

theorem unskipped_context (pc : Word) (t : Thread) : (unskipped pc t).w = t.w ∧ (unskipped pc t).status = t.status
    ∧ (unskipped pc t).pc = t.pc ∧ (unskipped pc t).ev = t.ev ∧ (unskipped pc t).stepping = t.stepping
    ∧ (unskipped pc t).st = t.st ∧ (unskipped pc t).wait = t.wait := by
  unfold unskipped
  split <;> exact ⟨rfl, rfl, rfl, rfl, rfl, rfl, rfl⟩

theorem done_unskipped {s : State} {id : Nat} (pc : Word) (h : (s.thr id).stepping = false) :
    s.done id pc = s.updThr id (unskipped pc) := done_unstepped s id pc h

theorem WaitOver.done {id : Nat} {st : ThreadState} {u x : State} (h : WaitOver id st u x)
    (hstep : (u.thr id).stepping = false) (pc : Word) : WaitOver id st u (x.done id pc) := by
  obtain ⟨hw, hs, hpc, hev, hst, hstt, -⟩ := unskipped_context pc (x.thr id)
  rw [done_unskipped pc (h.stepping.trans hstep)]
  exact h.updThr hw hs hpc hev hst (hstt.trans h.st)

/-- A wait of the beat's thread was over at once: a slack thread has given up the pool and is READY, a timed one runs on. -/
structure PassedWait (b : Beat) (s s' : State) : Prop where
  slack : s.timed b.eng.val b.thr.val = false → (s'.thr b.id).st = .ready ∧ (s'.eng b.eng.val).holder ≠ some b.thr
  timed : s.timed b.eng.val b.thr.val = true → (s'.thr b.id).st = .running
  pc : GoesOn b.id s s'
  others : OtherThreads b.id s s'
  memory : SameMemory s s'

/-- The suspended thread of a beat is not the pool's holder. -/
theorem suspend_not_holder (b : Beat) (f : Thread → Thread) (s : State) :
    ((suspend b.id f s).eng b.eng.val).holder ≠ some b.thr := by
  intro h
  have hne := suspend_holder b.id f s
  rw [beat_id_div, h, beat_id_mod] at hne
  exact hne rfl

/-- `u` is the state in which the suspended thread's wait completes, past what it has consumed. -/
theorem WaitOver.passed {b : Beat} {s p u x : State} {f : Thread → Thread} (hp : Begun b.id s p)
    (hu : OnlyIn [.threads, .hinge] (suspend b.id f p) u) (hother : OtherThreads b.id (suspend b.id f p) u)
    (hpc : (u.thr b.id).pc = (s.thr b.id).pc)
    (h : WaitOver b.id (if u.timed (b.id / 16) (b.id % 16) then .running else .ready) u x) : PassedWait b s x := by
  have hregs : u.regs = s.regs :=
    ((hu.regs (by simp)).trans ((suspend_only _ f p).regs (by simp))).trans (hp.only.regs (by simp))
  have hst := h.st
  rw [timed_of_regs hregs, beat_id_div, beat_id_mod] at hst
  refine ⟨fun ht => ⟨?_, ?_⟩, fun ht => ?_, ?_, fun j hj => ?_, SameMemory.of_mem ?_⟩
  · rw [hst, ht]; rfl
  · rw [State.eng_of_engines u x (h.only.engines (by simp)), State.eng_of_engines _ u (hu.engines (by simp))]
    exact suspend_not_holder b f p
  · rw [hst, ht]; rfl
  · rw [GoesOn, h.pc, hpc]
  · rw [h.others j hj, hother j hj, suspend_others _ _ _ j hj, hp.others j hj]
  · rw [h.only.mem (by simp), hu.mem (by simp), (suspend_only _ f p).mem (by simp), hp.mem]

end Sys2Proof

/-! SUPPORT. O22: the locks of threads (R139, R140, R192 to R195). -/

namespace Sys2Proof

open Machine

/-! ### The Tumbler unit's answers, for the first request of a cycle -/

section

variable {s : State} {id a : Nat} (ht : s.sameNow.tumRank = 0)
include ht

theorem acquire_free (h : tabFind s.tum.locks a = none) (hl : s.tum.locks.length < 4096) :
    s.acquire id a = ((s.tumTurn 3 id).holdLock id a, .taken) := by
  have htum : (s.tumTurn 3 id).tum = s.tum := tumTurn_first s 3 id ht .tum (by simp)
  simp [State.acquire, State.lockCount, htum, h, hl]

theorem acquire_marked (h : tabFind s.tum.locks a = some .marked) :
    s.acquire id a = ((s.tumTurn 3 id).holdLock id a, .broken) := by
  have htum : (s.tumTurn 3 id).tum = s.tum := tumTurn_first s 3 id ht .tum (by simp)
  simp [State.acquire, htum, h]

theorem acquire_held {i : Nat} (h : tabFind s.tum.locks a = some (.held i)) :
    s.acquire id a = (s.tumTurn 3 id, if i = id then .taken else .held) := by
  have htum : (s.tumTurn 3 id).tum = s.tum := tumTurn_first s 3 id ht .tum (by simp)
  simp [State.acquire, htum, h]

theorem acquire_full (h : tabFind s.tum.locks a = none) (hl : 4096 ≤ s.tum.locks.length) :
    s.acquire id a = ((s.tumTurn 3 id).count (aTum 8) 16 16, .full) := by
  have htum : (s.tumTurn 3 id).tum = s.tum := tumTurn_first s 3 id ht .tum (by simp)
  simp [State.acquire, State.lockCount, htum, h, Nat.not_lt.2 hl]

theorem release_other (h : tabFind s.tum.locks a ≠ some (.held id)) :
    s.release id a = ((s.tumTurn 2 id).count (aTum 8) 0 16, .ignored) := by
  have htum : (s.tumTurn 2 id).tum = s.tum := tumTurn_first s 2 id ht .tum (by simp)
  simp [State.release, htum, h]

theorem release_own (h : tabFind s.tum.locks a = some (.held id)) : s.release id a = ((s.tumTurn 2 id).freeLock a false, .released) := by
  have htum : (s.tumTurn 2 id).tum = s.tum := tumTurn_first s 2 id ht .tum (by simp)
  simp [State.release, htum, h]

end

/-- R193: nobody waits for the lock that becomes free. -/
theorem freeLock_unwaited (s : State) (a : Nat) (h : ∀ w ∈ s.tum.waiters, w.2 ≠ a) :
    OnlyIn [.tum] s (s.freeLock a false) ∧ (s.freeLock a false).tum.locks = tabErase s.tum.locks a := by
  have hnone : s.tum.waiters.filter (fun w => w.2 == a) = [] := by
    rw [List.filter_eq_nil_iff]; intro w hm; simpa using h w hm
  simp only [State.freeLock, State.completeWaiters, hnone, List.map_nil, List.foldl_nil, Bool.false_eq_true, if_false]
  exact ⟨(setTum_only s _).trans (setTum_only _ _), trivial⟩

/-! ### The instructions at an address that they may name -/

/-- A request of the Tumbler unit changes the lock table, and of the registers its counters only. -/
structure TumDone (p q : State) : Prop where
  only : OnlyIn [.tum, .regs] p q
  regs : RegsBut [aTum 8] p q

theorem tumTurn_done {s : State} (step id : Nat) (ht : s.sameNow.tumRank = 0) : TumDone s (s.tumTurn step id) :=
  ⟨(tumTurn_first s step id ht).mono (by simp), fun x _ =>
    State.reg_of_regs s _ ((tumTurn_first s step id ht).regs (by simp)) x⟩

theorem TumDone.of_tum {p q : State} (h : OnlyIn [.tum] p q) : TumDone p q :=
  ⟨h.mono (by simp), fun x _ => State.reg_of_regs p q (h.regs (by simp)) x⟩

theorem TumDone.trans {p q r : State} (h : TumDone p q) (h' : TumDone q r) : TumDone p r :=
  ⟨h.only.trans h'.only, h.regs.trans h'.regs⟩

theorem TumDone.count {p q : State} (h : TumDone p q) (lo n k : Nat) : TumDone p (q.count (aTum 8) lo n k) :=
  h.trans ⟨(count_only q _ _ _ _).mono (by simp), count_regsBut q _ _ _ _⟩

theorem TumDone.holdLock {p q : State} (h : TumDone p q) (id a : Nat) : TumDone p (q.holdLock id a) :=
  h.trans (.of_tum (setTum_only q _))

/-- What LOCK does when it executes. -/
def lockBody (rd ra : Reg) (imm : BitVec 14) (id : Nat) (s : State) : Act :=
  let ea := ea14 (s.thr id) ra imm
  farCheck 4 ea inImage
    (let (s, c) := s.acquire id ea.toNat
     let got := c == .taken || c == .broken
     .next (s.request id .fabric .done [(.reg rd, word c.code), (.flagT, bitWord got)] none))

theorem exec_lock (b : Beat) (rd ra : Reg) (imm : BitVec 14) (s : State) :
    exec (.lock b rd ra imm) s = .next (farBeat b [.reg ra] (lockBody rd ra imm) s) := rfl

/-- What ULOCK does when it executes. -/
def ulockBody (ra : Reg) (imm : BitVec 14) (id : Nat) (s : State) : Act :=
  let ea := ea14 (s.thr id) ra imm
  farCheck 4 ea inImage (.next ((s.release id ea.toNat).1.request id .fabric .done [] none))

theorem exec_ulock (b : Beat) (ra : Reg) (imm : BitVec 14) (s : State) :
    exec (.ulock b ra imm) s = .next (farBeat b [.reg ra] (ulockBody ra imm) s) := rfl

/-- The registration of a waiter (R194). -/
def waiting (id a : Nat) (s : State) : State := { s with tum := { s.tum with waiters := tabSet s.tum.waiters id a } }

/-- What WAITL does when it executes. -/
def waitlBody (ra : Reg) (imm : BitVec 14) (id : Nat) (s : State) : Act :=
  let ea := ea14 (s.thr id) ra imm
  farCheck 4 ea inImage
    (let w := (suspend id ({ · with wait := .lock ea }) s).tumTurn 4 id
     if w.lockHeld ea.toNat then .hold ((waiting id ea.toNat w).request id .fabric .done [] none)
     else .hold ((w.completeWait id).atOnce id))

theorem exec_waitl (b : Beat) (ra : Reg) (imm : BitVec 14) (s : State) :
    exec (.waitl b ra imm) s = .next (farBeat b [.reg ra] (waitlBody ra imm) s) := rfl

theorem Begun.ea14 {id : Nat} {s p : State} (hp : Begun id s p) (ra : Reg) (imm : BitVec 14) :
    ea14 (p.thr id) ra imm = (s.thr id).rd ra + imm.signExtend 32 := congrArg (· + imm.signExtend 32) (hp.rd ra)

theorem Begun.tum {id : Nat} {s p : State} (hp : Begun id s p) : p.tum = s.tum := hp.only .tum (by simp)

theorem Begun.tumRank {id : Nat} {s p : State} (hp : Begun id s p) : p.sameNow.tumRank = s.sameNow.tumRank := by rw [hp.now]

section

variable {b : Beat} {ra : Reg} {imm : BitVec 14} {s : State} {ea : Word} (hc : Clean s) (hs : Settled s) (hi : FarIdle b s)
  (hr : Ready b [.reg ra] true s) (hea : ea = (s.thr b.id).rd ra + imm.signExtend 32)
include hc hs hi hr

/-- A far instruction that the address check of R117 stops. -/
theorem farBeat_refused {c : Trap} {info : Word} {body : Nat → State → Act} (hstep : (s.thr b.id).stepping = false)
    (h : ∀ p, Begun b.id s p → body b.id p = .trap c info) : TrapsAt b.id c info s (farBeat b [.reg ra] body s) := by
  have hp := takePosition_begun s b
  rw [farBeat_idle hi hr, h _ hp]
  exact perform_trapsAt hp _ _ (beat_id_lt b) hc hs (beat_id_div b ▸ hr.single) hstep

/-- A request of the Tumbler unit that it has answered in the state `q`. -/
theorem tum_told {body : Nat → State → Act} {q : State} {dests : List (Dest × Word)}
    (hbody : body b.id (s.takePosition b.eng.val b.pos.val b.thr.val) = .next (q.request b.id .fabric .done dests none))
    (hq : TumDone (s.takePosition b.eng.val b.pos.val b.thr.val) q) :
    Told b.id .fabric .done dests none s q (farBeat b [.reg ra] body s) := by
  have hp := takePosition_begun s b
  exact farBeat_told hs hi hr hbody hq.only (by simp) (by simp) (by simp)
    ((hp.errorFree hc.errorFree).of_same (hq.only .ecc (by simp)) (hq.regs _ (by decide)))
    ((hq.regs _ (by decide)).trans (hp.reg _))

include hea

/-- R116, R117: the traps of the lock instructions. -/
theorem lock_refused {body : Nat → State → Act} {act : State → Act}
    (h : ∀ p, body b.id p = farCheck 4 (ea14 (p.thr b.id) ra imm) inImage (act p)) (hstep : (s.thr b.id).stepping = false) {c : Trap}
    (hcode : c = if ea.toNat % 4 = 0 then .farerr else .align) (hbad : ea.toNat % 4 ≠ 0 ∨ inImage ea.toNat = false) :
    TrapsAt b.id c ea s (farBeat b [.reg ra] body s) := by
  refine farBeat_refused hc hs hi hr hstep fun p hp => ?_
  subst hcode
  rw [h, hp.ea14, ← hea]
  by_cases hal : ea.toNat % 4 = 0
  · rw [farCheck_farerr _ _ _ _ hal (hbad.resolve_left (not_not_intro hal)), if_pos hal]
  · rw [farCheck_align _ _ _ _ hal, if_neg hal]

variable (ha : inImage ea.toNat = true) (hal : ea.toNat % 4 = 0)
include ha hal

/-- R139, R192: LOCK tells of what the Tumbler unit has answered. -/
theorem lock_told (rd : Reg) : ∃ p, Begun b.id s p ∧ ∀ {q c}, p.acquire b.id ea.toNat = (q, c) → TumDone p q →
    Told b.id .fabric .done [(.reg rd, word c.code), (.flagT, bitWord (c == .taken || c == .broken))] none s q
      (farBeat b [.reg ra] (lockBody rd ra imm) s) := by
  refine ⟨_, takePosition_begun s b, fun {q c} hq hdone => tum_told hc hs hi hr ?_ hdone⟩
  simp only [lockBody, (takePosition_begun s b).ea14, ← hea, farCheck_ok _ _ _ _ hal ha, hq]

/-- R193: ULOCK tells of no value. -/
theorem ulock_told : ∃ p, Begun b.id s p ∧ ∀ {q c}, p.release b.id ea.toNat = (q, c) → TumDone p q →
    Told b.id .fabric .done [] none s q (farBeat b [.reg ra] (ulockBody ra imm) s) := by
  refine ⟨_, takePosition_begun s b, fun {q c} hq hdone => tum_told hc hs hi hr ?_ hdone⟩
  simp only [ulockBody, (takePosition_begun s b).ea14, ← hea, farCheck_ok _ _ _ _ hal ha, hq]

omit hc hs in
/-- R140: WAITL of a thread that is ready, as far as the state in which it has suspended. -/
theorem waitl_suspends (ht : s.sameNow.tumRank = 0) :
    ∃ p w, Begun b.id s p ∧ OnlyIn [] (suspend b.id ({ · with wait := .lock ea }) p) w ∧
      farBeat b [.reg ra] (waitlBody ra imm) s = (p.perform b.id
        (if w.lockHeld ea.toNat then .hold ((waiting b.id ea.toNat w).request b.id .fabric .done [] none)
          else .hold ((w.completeWait b.id).atOnce b.id))).settle := by
  have hp := takePosition_begun s b
  refine ⟨_, _, hp, tumTurn_first _ 4 b.id ?rank, ?beat⟩
  case rank => rw [suspend_sameNow, hp.tumRank, ht]
  case beat =>
    rw [farBeat_idle hi hr]
    simp only [waitlBody, hp.ea14, ← hea, farCheck_ok _ _ _ _ hal ha]

variable (ht : s.sameNow.tumRank = 0) (hstep : (s.thr b.id).stepping = false)
include ht hstep

omit hc in
/-- R140, R194: the thread waits, registered. -/
theorem waitl_waits {i : Nat} (h : tabFind s.tum.locks ea.toNat = some (.held i)) :
    let s' := farBeat b [.reg ra] (waitlBody ra imm) s
    (s'.thr b.id).st = .waiting ∧ (s'.thr b.id).wait = .lock ea ∧ tabFind s'.tum.waiters b.id = some ea.toNat
      ∧ (s'.thr b.id).pc = (s.thr b.id).pc ∧ s'.tum.locks = s.tum.locks ∧ OtherRegs b.id [] s s'
      ∧ OtherThreads b.id s s' ∧ SameMemory s s' := by
  obtain ⟨p, w, hp, hw, he⟩ := waitl_suspends hi hr hea ha hal ht
  have htum : w.tum = s.tum := (hw .tum (by simp)).trans hp.tum
  have hheld : w.lockHeld ea.toNat = true := by simp [State.lockHeld, htum, h]
  rw [he, if_pos hheld, State.perform]
  generalize hx : (waiting b.id ea.toNat w).request b.id .fabric .done [] none = x
  have hwthr (j : Nat) : w.thr j = (suspend b.id ({ · with wait := .lock ea }) p).thr j :=
    State.thr_of_threads _ w (hw.threads (by simp)) j
  have hxthr : x.thr b.id = { (waiting b.id ea.toNat w).thr b.id with outst := (x.thr b.id).outst } := by
    rw [← hx, request_thr]
  have hown : (waiting b.id ea.toNat w).thr b.id =
      { (p.thr b.id).enter p.cycle .waiting with wait := .lock ea } := (hwthr b.id).trans (suspend_thr _ _ _)
  rw [hown] at hxthr
  have honly : OnlyIn [.engines, .threads, .tum] s x := by
    subst hx
    exact (((hp.only.trans (suspend_only _ _ p)).mono (by simp)).trans (hw.mono (by simp))).trans
      (((setTum_only w _).mono (by simp)).trans ((request_only _ _ _ _ _ _).mono (by simp)))
  have hunstepped : (x.thr b.id).stepping = false := by
    rw [hxthr]; exact (enter_stepping _ _ _).trans (hp.stepping.trans hstep)
  have hsys : (x.done b.id (p.thr b.id).pc).sys = s.sys := ((done_only x _ _).sys (by simp)).trans (honly.sys (by simp))
  have htums : (x.done b.id (p.thr b.id).pc).tum = (waiting b.id ea.toNat w).tum := by
    rw [(done_only x _ _) .tum (by simp), ← hx]; rfl
  obtain ⟨dw, dpc, -⟩ := done_context x b.id (p.thr b.id).pc
  rw [settle_of_sys hs hsys]
  have hkeeps : ((x.done b.id (p.thr b.id).pc).thr b.id).st = (x.thr b.id).st
      ∧ ((x.done b.id (p.thr b.id).pc).thr b.id).wait = (x.thr b.id).wait := by
    obtain ⟨-, -, -, -, -, hst, hwait⟩ := unskipped_context (p.thr b.id).pc (x.thr b.id)
    rw [done_unskipped _ hunstepped, State.updThr_thr_same]
    exact ⟨hst, hwait⟩
  refine ⟨hkeeps.1.trans ?_, hkeeps.2.trans ?_, ?_, dpc.trans ?_, ?_, fun r _ => rd_of_w (dw.trans ?_) r, fun j hj => ?_,
    SameMemory.of_mem ((honly.trans ((done_only x _ _).mono (by simp))).mem (by simp))⟩
  · rw [hxthr]; exact enter_st _ _ _
  · rw [hxthr]
  · rw [htums]; exact (tabFind_tabSet _ _ _ _).trans (if_pos rfl)
  · rw [hxthr]; exact (enter_pc _ _ _).trans hp.pc
  · rw [htums]; exact (congrArg Tumbler.locks htum : w.tum.locks = s.tum.locks)
  · rw [hxthr]; exact (enter_w _ _ _).trans hp.w
  · rw [done_other _ _ _ _ hj, ← hx, request_other _ _ _ _ _ _ j hj]
    exact (hwthr j).trans ((suspend_others _ _ p j hj).trans (hp.others j hj))

/-- R78, R86, R140: the lock is free, and the thread goes on. -/
theorem waitl_passes (h : ∀ i, tabFind s.tum.locks ea.toNat ≠ some (.held i)) :
    let s' := farBeat b [.reg ra] (waitlBody ra imm) s
    PassedWait b s s' ∧ NoResult b.id s s' ∧ s'.tum.locks = s.tum.locks := by
  obtain ⟨p, w, hp, hw, he⟩ := waitl_suspends hi hr hea ha hal ht
  have htum : w.tum = s.tum := (hw .tum (by simp)).trans hp.tum
  have hfree : w.lockHeld ea.toNat = false := by
    rw [State.lockHeld, htum]
    split
    · next i hf => exact absurd hf (h i)
    · rfl
  have hwthr (j : Nat) : w.thr j = (suspend b.id ({ · with wait := .lock ea }) p).thr j :=
    State.thr_of_threads _ w (hw.threads (by simp)) j
  have hown : w.thr b.id = { (p.thr b.id).enter p.cycle .waiting with wait := .lock ea } :=
    (hwthr b.id).trans (suspend_thr _ _ _)
  have hall := hp.only.trans ((suspend_only b.id ({ · with wait := .lock ea }) p).trans (hw.mono (by simp)))
  have hpower : (w.eng (b.id / 16)).power = .on := by
    rw [State.eng_of_engines _ w (hw.engines (by simp)), suspend_power, (hp.engines _).1, beat_id_div]
    exact engRuns_power hr.runs
  have htwin : w.twin (b.id / 16) = false := by
    rw [State.twin, State.reg_of_regs s w (hall.regs (by simp)), beat_id_div]; exact hr.single
  have hover := ((completeWait_waitOver (hc.errorFree.of_only hall (by simp) (by simp)) htwin
    (by rw [hown]; exact enter_st _ _ _) hpower).atOnce.done
    (by rw [hown]; exact (enter_stepping _ _ _).trans (hp.stepping.trans hstep)) (p.thr b.id).pc)
  have hpc : (w.thr b.id).pc = (s.thr b.id).pc := by rw [hown]; exact (enter_pc _ _ _).trans hp.pc
  have hpassed := hover.passed hp (hw.mono (by simp)) (fun j _ => hwthr j) hpc
  rw [he, if_neg (by simp [hfree]), State.perform, settle_of_sys hs ((hover.only.sys (by simp)).trans (hall.sys (by simp)))]
  refine ⟨hpassed, ⟨fun r _ => rd_of_w (hover.w.trans ?_) r, hover.status.trans ?_, hpassed.pc⟩, ?_⟩
  · rw [hown]; exact (enter_w _ _ _).trans hp.w
  · rw [hown]; exact (enter_status _ _ _).trans hp.status
  · rw [hover.only .tum (by simp), htum]

end

/-! ### The obligation -/

section

variable {id : Nat} {s p : State} (hp : Begun id s p) (ht : s.sameNow.tumRank = 0) (step : Nat)
include hp ht

/-- The turn of the first request of a cycle changes nothing. -/
theorem Begun.tumTurn : TumDone p (p.tumTurn step id) ∧ (p.tumTurn step id).tum = s.tum :=
  ⟨tumTurn_done step id (hp.tumRank.trans ht), (tumTurn_first p step id (hp.tumRank.trans ht) .tum (by simp)).trans hp.tum⟩

/-- R192, R193: a request that the Tumbler unit only counts. -/
theorem Begun.tumCounted (lo : Nat) (hlo : lo + 16 ≤ 32) : TumDone p ((p.tumTurn step id).count (aTum 8) lo 16)
    ∧ ((p.tumTurn step id).count (aTum 8) lo 16).tum = s.tum
    ∧ Counted (aTum 8) lo 16 1 s ((p.tumTurn step id).count (aTum 8) lo 16) := by
  obtain ⟨hdone, htum⟩ := hp.tumTurn ht step
  have hreg : (p.tumTurn step id).reg (aTum 8) = s.reg (aTum 8) :=
    (State.reg_of_regs p _ ((tumTurn_first p step id (hp.tumRank.trans ht)).regs (by simp)) _).trans (hp.reg _)
  obtain ⟨hval, hbits⟩ := count_counted (p.tumTurn step id) (aTum 8) lo 16 1 hlo
  refine ⟨hdone.count _ _ _, htum, ?_, fun i hi => ?_⟩
  · rw [hval, hreg]
  · rw [hbits i hi, hreg]

/-- R192: a lock that is taken. -/
theorem Begun.lockTaken (a : Nat) : TumDone p ((p.tumTurn step id).holdLock id a)
    ∧ ((p.tumTurn step id).holdLock id a).tum.locks = tabSet s.tum.locks a (.held id) := by
  obtain ⟨hdone, htum⟩ := hp.tumTurn ht step
  exact ⟨hdone.holdLock id a, by rw [State.holdLock, htum]⟩

end

section

variable {id a : Nat} {dests : List (Dest × Word)} {s p q t : State} (h : Told id .fabric .done dests none s q t)
include h

theorem Told.tum : t.tum = q.tum := h.only .tum (by simp)

theorem Told.sameMemory (hp : Begun id s p) (hq : TumDone p q) : SameMemory s t :=
  SameMemory.of_mem (by rw [h.only.mem (by simp), hq.only.mem (by simp), hp.mem])

theorem Told.counted {lo n k : Nat} (hc : Counted a lo n k s q) : Counted a lo n k s t := by
  have hreg (x : Nat) : t.reg x = q.reg x := State.reg_of_regs q t (h.only.regs (by simp)) x
  obtain ⟨hval, hbits⟩ := hc
  exact ⟨by rw [hreg]; exact hval, fun i hi => by rw [hreg]; exact hbits i hi⟩

/-- What a LOCK leaves that changes no lock but the one at `a`. -/
theorem Told.asked (hp : Begun id s p) (hq : TumDone p q) (hl : ∀ x, x ≠ a → tabFind q.tum.locks x = tabFind s.tum.locks x) :
    Issued id .fabric .done dests s t ∧ NoResult id s t ∧ OtherThreads id s t ∧ SameMemory s t
      ∧ ∀ x, x ≠ a → tabFind t.tum.locks x = tabFind s.tum.locks x :=
  ⟨h.issued, h.result, h.others, h.sameMemory hp hq, fun x hx => by rw [h.tum, hl x hx]⟩

/-- A LOCK that takes the lock. -/
theorem Told.took (hp : Begun id s p) (hq : TumDone p q) (hl : q.tum.locks = tabSet s.tum.locks a (.held id)) :
    (Issued id .fabric .done dests s t ∧ NoResult id s t ∧ OtherThreads id s t ∧ SameMemory s t
      ∧ ∀ x, x ≠ a → tabFind t.tum.locks x = tabFind s.tum.locks x) ∧ tabFind t.tum.locks a = some (.held id) :=
  ⟨h.asked hp hq fun x hx => by rw [hl, tabFind_tabSet, if_neg hx], by rw [h.tum, hl, tabFind_tabSet, if_pos rfl]⟩

end

/-- Settles O22: each answer of the Tumbler unit is one case of `acquire` or `release`, and a WAITL waits or passes. -/
theorem threadLocks : Obligations.ThreadLocks := by
  unfold Obligations.ThreadLocks
  intro b rd ra imm s hc hs hi hr ht ea a l others asked three
  have hthree {c : Trap} (hstep : (s.thr b.id).stepping = false) (hcode : c = if a % 4 = 0 then .farerr else .align)
      (hbad : a % 4 ≠ 0 ∨ inImage a = false) : three fun s' => TrapsAt b.id c ea s s' :=
    ⟨⟨_, exec_lock .., lock_refused hc hs hi hr rfl (fun _ => rfl) hstep hcode hbad⟩,
      ⟨_, exec_ulock .., lock_refused hc hs hi hr rfl (fun _ => rfl) hstep hcode hbad⟩,
      ⟨_, exec_waitl .., lock_refused hc hs hi hr rfl (fun _ => rfl) hstep hcode hbad⟩⟩
  refine ⟨fun hstep => ⟨fun hal => hthree hstep (if_neg hal).symm (.inl hal),
    fun hal him => hthree hstep (if_pos hal).symm (.inr him)⟩, fun ha hal => ?_⟩
  obtain ⟨p, hp, hlock⟩ := lock_told hc hs hi hr (ea := ea) rfl ha hal rd
  obtain ⟨p', hp', hulock⟩ := ulock_told hc hs hi hr (ea := ea) rfl ha hal
  have htp := hp.tumRank.trans ht
  have htp' := hp'.tumRank.trans ht
  have hfind {x : Option Lock} (h : l = x) : tabFind p.tum.locks a = x := by rw [hp.tum]; exact h
  refine ⟨fun h hl => ⟨_, exec_lock .., ?free⟩, fun h => ⟨_, exec_lock .., ?marked⟩, fun i h => ⟨_, exec_lock .., ?held⟩,
    fun h hl => ⟨_, exec_lock .., ?full⟩, fun h => ⟨_, exec_ulock .., ?other⟩, fun h hw => ⟨_, exec_ulock .., ?own⟩,
    fun i h hstep => ⟨_, exec_waitl .., waitl_waits hs hi hr rfl ha hal ht hstep h⟩,
    fun h hstep => ⟨_, exec_waitl .., ?passes⟩⟩
  case free =>
    obtain ⟨hdone, hlocks⟩ := hp.lockTaken ht 3 a
    exact (hlock (acquire_free htp (hfind h) (by rw [hp.tum]; exact hl)) hdone).took hp hdone hlocks
  case marked =>
    obtain ⟨hdone, hlocks⟩ := hp.lockTaken ht 3 a
    exact (hlock (acquire_marked htp (hfind h)) hdone).took hp hdone hlocks
  case held =>
    obtain ⟨hdone, htum⟩ := hp.tumTurn ht 3
    have htold := hlock (acquire_held htp (hfind h)) hdone
    refine ⟨?_, by rw [htold.tum, htum]⟩
    have hanswer := htold.asked (a := a) hp hdone fun x _ => by rw [htum]
    by_cases hown : i = b.id
    · simp only [hown, if_true, decide_true] at hanswer ⊢
      exact hanswer
    · simp only [hown, if_false, decide_false] at hanswer ⊢
      exact hanswer
  case full =>
    obtain ⟨hdone, htum, hcounted⟩ := hp.tumCounted ht 3 16 (by decide)
    have htold := hlock (acquire_full htp (hfind h) (by rw [hp.tum]; exact hl)) hdone
    exact ⟨htold.asked hp hdone fun x _ => by rw [htum], by rw [htold.tum, htum], htold.counted hcounted⟩
  case other =>
    obtain ⟨hdone, htum, hcounted⟩ := hp'.tumCounted ht 2 0 (by decide)
    have htold := hulock (release_other htp' (by rw [hp'.tum]; exact h)) hdone
    exact ⟨by rw [htold.tum, htum], htold.counted hcounted, htold.issued, htold.result, htold.others, htold.sameMemory hp' hdone⟩
  case own =>
    obtain ⟨hdone, htum⟩ := hp'.tumTurn ht 2
    obtain ⟨honly, hlocks⟩ := freeLock_unwaited (p'.tumTurn 2 b.id) a (by rw [htum]; exact hw)
    have hfreed := hdone.trans (.of_tum honly)
    have htold := hulock (release_own htp' (by rw [hp'.tum]; exact h)) hfreed
    exact ⟨by rw [htold.tum, hlocks, htum], htold.issued, htold.result, htold.others, htold.sameMemory hp' hfreed⟩
  case passes =>
    obtain ⟨⟨hslack, htimed, -, hothers, hmem⟩, hresult, hlocks⟩ := waitl_passes hc hs hi hr rfl ha hal ht hstep h
    exact ⟨hslack, htimed, hresult, hothers, hmem, hlocks⟩

end Sys2Proof

/-! SUPPORT. O21: WAITE and SIG (R136, R138, R213, R219). -/

namespace Sys2Proof

open Machine

/-! ### The event that a WAITE takes -/

theorem eventIn_none {t : Thread} {mask : Nat → Bool} (h : ∀ k, k < 4 → mask k = true → tabFind t.ev k = none) :
    t.eventIn mask = none := by
  rw [Thread.eventIn, List.findSome?_eq_none_iff]
  intro k hk
  rw [upTo, List.mem_range] at hk
  cases hm : mask k with
  | false => simp
  | true => simp [h k hk hm]

theorem upTo_split : ∀ k : Fin 4, upTo 4 = upTo k.val ++ k.val :: (upTo (3 - k.val)).map (k.val + 1 + ·) := by decide

/-- The lowest input of the mask that holds an event. -/
theorem eventIn_lowest {t : Thread} {mask : Nat → Bool} {k : Fin 4} {e : Ev} (hk : mask k.val = true)
    (he : tabFind t.ev k.val = some e) (hlow : ∀ j, j < k.val → mask j = true → tabFind t.ev j = none) :
    t.eventIn mask = some (k.val, e) := by
  rw [Thread.eventIn, List.findSome?_eq_some_iff]
  refine ⟨_, _, _, upTo_split k, by simp [hk, he], fun j hj => ?_⟩
  rw [upTo, List.mem_range] at hj
  cases hm : mask j with
  | false => simp
  | true => simp [hlow j hj hm]

/-! ### WAITE -/

/-- The thread that a WAITE suspends. -/
def awaiting (rd : Reg) (t : Thread) : Thread := { t.cancel (.reg rd) with wait := .event rd }

/-- What WAITE does when it executes (R78, R138). -/
def waiteBody (rd : Reg) (id : Nat) (s : State) : Act := .hold (((suspend id (awaiting rd) s).tryWaite id).atOnce id)

theorem exec_waite (b : Beat) (rd : Reg) (s : State) : exec (.waite b rd) s = .next (beat b {} (waiteBody rd) s) := rfl

/-- R213: the thread has consumed the event `e` of its input `k` into w`rd`. -/
def reported (rd : Reg) (id k : Nat) (e : Ev) (u : State) : State := (u.consume id k e).updThr id (·.wr rd (report k e))

/-- What the thread keeps of the state in which it takes its event, and what it gets. -/
structure Consumed (rd : Reg) (id k : Nat) (e : Ev) (v u : State) : Prop where
  only : OnlyIn [.threads, .hinge] v u
  others : OtherThreads id v u
  rd : ∀ r, (u.thr id).rd r = if r = rd then report k e else (v.thr id).rd r
  ev : (u.thr id).ev = tabErase (v.thr id).ev k
  pc : (u.thr id).pc = (v.thr id).pc
  st : (u.thr id).st = (v.thr id).st
  stepping : (u.thr id).stepping = (v.thr id).stepping
  notes : u.hinge.notes = v.hinge.notes ++ [⟨id, k, e.ts⟩]

theorem reported_consumed (rd : Reg) (id k : Nat) (e : Ev) (v : State) : Consumed rd id k e v (reported rd id k e v) := by
  have hev : (v.consume id k e).thr id = { v.thr id with ev := tabErase (v.thr id).ev k } :=
    State.updThr_thr_same v id fun t => { t with ev := tabErase t.ev k }
  have hthr : (reported rd id k e v).thr id = ((v.consume id k e).thr id).wr rd (report k e) := State.updThr_thr_same ..
  rw [hev] at hthr
  refine ⟨?_, fun j hj => ?_, fun r => ?_, ?_, ?_, ?_, ?_, rfl⟩
  · exact (((updThr_only v id _).mono (by simp)).trans ((setHinge_only _ _).mono (by simp))).trans
      ((updThr_only _ id _).mono (by simp))
  · rw [reported, updThr_others _ id _ j hj]
    exact updThr_others v id (fun t => { t with ev := tabErase t.ev k }) j hj
  · rw [hthr, rd_wr]
    rfl
  · rw [hthr]; rfl
  · rw [hthr]; rfl
  · rw [hthr]; rfl
  · rw [hthr]; rfl

theorem tryWaite_none {u : State} {id : Nat} {rd : Reg} (hw : (u.thr id).wait = .event rd) (hst : (u.thr id).st = .waiting)
    (h : (u.thr id).eventIn (fun k => (u.thr id).armed.getLsbD k && !u.ien id k) = none) : u.tryWaite id = u := by
  simp [State.tryWaite, hw, Thread.inWait, hst, h]

theorem tryWaite_some {u : State} {id k : Nat} {e : Ev} {rd : Reg} (hw : (u.thr id).wait = .event rd)
    (hst : (u.thr id).st = .waiting)
    (h : (u.thr id).eventIn (fun k => (u.thr id).armed.getLsbD k && !u.ien id k) = some (k, e)) :
    u.tryWaite id = (reported rd id k e u).completeWait id := by
  simp [State.tryWaite, hw, Thread.inWait, hst, h, reported]

/-- What the suspension leaves of the thread. -/
structure Awaits (rd : Reg) (t u : Thread) : Prop where
  st : u.st = .waiting
  wait : u.wait = .event rd
  pc : u.pc = t.pc
  w : u.w = t.w
  ev : u.ev = t.ev
  armed : u.armed = t.armed
  stepping : u.stepping = t.stepping

theorem awaiting_awaits (rd : Reg) (t : Thread) (c : Nat) : Awaits rd t (awaiting rd (t.enter c .waiting)) :=
  ⟨enter_st t c _, rfl, enter_pc t c _, enter_w t c _, enter_ev t c _, enter_armed t c _, enter_stepping t c _⟩

theorem Begun.awaits {id : Nat} {s p : State} (hp : Begun id s p) (rd : Reg) :
    Awaits rd (s.thr id) ((suspend id (awaiting rd) p).thr id) := by
  obtain ⟨hst, hwait, hpc, hw, hev, harmed, hstep⟩ := awaiting_awaits rd (p.thr id) p.cycle
  rw [suspend_thr]
  exact ⟨hst, hwait, hpc.trans hp.pc, hw.trans hp.w, hev.trans (by simp [hp.thr]), harmed.trans (by simp [hp.thr]),
    hstep.trans hp.stepping⟩

/-- The inputs at which a WAITE of the thread takes an event (R138). -/
def openInput (s : State) (id k : Nat) : Bool := (s.thr id).armed.getLsbD k && !s.ien id k

theorem Begun.openInput_eq {id : Nat} {s p : State} (hp : Begun id s p) (rd : Reg) :
    (fun k => ((suspend id (awaiting rd) p).thr id).armed.getLsbD k && !(suspend id (awaiting rd) p).ien id k) =
      openInput s id := by
  have hien (k : Nat) : (suspend id (awaiting rd) p).ien id k = s.ien id k := by
    simp only [State.ien, State.reg_of_regs p _ ((suspend_only id (awaiting rd) p).regs (by simp)), hp.reg]
  funext k
  rw [(hp.awaits rd).armed, hien, openInput]

section

variable {b : Beat} {rd : Reg} {s : State} (hr : Ready b [] false s) (hstep : (s.thr b.id).stepping = false)
include hr

theorem waite_beat : ∃ p, Begun b.id s p ∧ beat b {} (waiteBody rd) s =
    (((suspend b.id (awaiting rd) p).tryWaite b.id).atOnce b.id).done b.id (p.thr b.id).pc :=
  ⟨_, takePosition_begun s b, beat_ready b {} _ s hr⟩

include hstep

/-- R138: no armed input holds an event. -/
theorem waite_waits (h : ∀ k, k < 4 → openInput s b.id k = true → tabFind (s.thr b.id).ev k = none) :
    let s' := beat b {} (waiteBody rd) s
    (s'.thr b.id).st = .waiting ∧ (s'.thr b.id).wait = .event rd ∧ (s'.thr b.id).pc = (s.thr b.id).pc
      ∧ (s'.eng b.eng.val).holder ≠ some b.thr ∧ OtherRegs b.id [] s s' ∧ OnlyThread b.id s s' := by
  obtain ⟨p, hp, he⟩ := waite_beat (rd := rd) hr
  have hu := hp.awaits rd
  have hnone := tryWaite_none hu.wait hu.st (by
    rw [hp.openInput_eq]; exact eventIn_none fun k hk hm => by rw [hu.ev]; exact h k hk hm)
  have hready : (suspend b.id (awaiting rd) p).atOnce b.id = suspend b.id (awaiting rd) p := by simp [State.atOnce, hu.st]
  rw [he, hnone, hready, done_unskipped _ (hu.stepping.trans hstep)]
  obtain ⟨hw, -, hpc, -, -, hst, hwait⟩ := unskipped_context (p.thr b.id).pc ((suspend b.id (awaiting rd) p).thr b.id)
  rw [← State.updThr_thr_same (suspend b.id (awaiting rd) p) b.id (unskipped _)] at hw hpc hst hwait
  have honly := (hp.only.trans (suspend_only b.id (awaiting rd) p)).trans
    ((updThr_only _ b.id (unskipped (p.thr b.id).pc)).mono (by simp))
  refine ⟨hst.trans hu.st, hwait.trans hu.wait, hpc.trans hu.pc, suspend_not_holder b (awaiting rd) p,
    fun r _ => rd_of_w (hw.trans hu.w) r, SameMemory.of_mem (honly.mem (by simp)), fun j hj => ?_, (honly.mono (by simp)).sameUnits⟩
  rw [updThr_others _ b.id _ j hj, suspend_others _ _ p j hj, hp.others j hj]

variable (hc : Clean s)
include hc

/-- R138: the lowest armed input that holds an event gives it. -/
theorem waite_takes {k : Fin 4} {e : Ev} (hk : openInput s b.id k.val = true) (hev : tabFind (s.thr b.id).ev k.val = some e)
    (hlow : ∀ j, j < k.val → openInput s b.id j = true → tabFind (s.thr b.id).ev j = none) :
    let s' := beat b {} (waiteBody rd) s
    (s'.thr b.id).rd rd = report k.val e ∧ PassedWait b s s' ∧ tabFind (s'.thr b.id).ev k.val = none
      ∧ s'.hinge.notes = s.hinge.notes ++ [⟨b.id, k.val, e.ts⟩] ∧ OtherRegs b.id [rd] s s' := by
  obtain ⟨p, hp, he⟩ := waite_beat (rd := rd) hr
  have hu := hp.awaits rd
  have htakes := tryWaite_some (k := k.val) (e := e) hu.wait hu.st (by
    rw [hp.openInput_eq]
    exact eventIn_lowest hk (by rw [hu.ev]; exact hev) fun j hj hm => by rw [hu.ev]; exact hlow j hj hm)
  rw [he, htakes]
  have hx := reported_consumed rd b.id k.val e (suspend b.id (awaiting rd) p)
  generalize reported rd b.id k.val e (suspend b.id (awaiting rd) p) = u at hx
  have hall := ((hp.only.trans (suspend_only b.id (awaiting rd) p)).mono (by simp)).trans (hx.only.mono (by simp))
    (ps := [.engines, .threads, .hinge])
  have hpower : (u.eng (b.id / 16)).power = .on := by
    rw [State.eng_of_engines _ u (hx.only.engines (by simp)), suspend_power, (hp.engines _).1, beat_id_div]
    exact engRuns_power hr.runs
  have htwin : u.twin (b.id / 16) = false := by
    rw [State.twin, State.reg_of_regs s u (hall.regs (by simp)), beat_id_div]; exact hr.single
  have hover := (completeWait_waitOver (hc.errorFree.of_only hall (by simp) (by simp)) htwin (hx.st.trans hu.st) hpower).atOnce.done
    (hx.stepping.trans (hu.stepping.trans hstep)) (p.thr b.id).pc
  have hrd (r : Reg) := (rd_of_w hover.w r).trans (hx.rd r)
  refine ⟨?_, hover.passed hp hx.only hx.others (hx.pc.trans hu.pc), ?_, ?_, fun r hne => ?_⟩
  · rw [hrd, if_pos rfl]
  · rw [hover.ev, hx.ev, tabFind_tabErase, if_pos rfl]
  · rw [hover.only.hinge (by simp), hx.notes, (suspend_only b.id (awaiting rd) p).hinge (by simp), hp.hinge]
  · rw [hrd, if_neg (by simpa using hne), rd_of_w hu.w]

end

/-! ### SIG -/

/-- What SIG does when it executes (R136, R219). -/
def sigBody (n : BitVec 4) (id : Nat) (s : State) : Act :=
  .next ((s.raiseLater 2 (256 + id / 16 * 16 + n.toNat)).request id .fabric .done [] none)

theorem exec_sig (b : Beat) (n : BitVec 4) (s : State) : exec (.sig b n) s = .next (farBeat b [] (sigBody n) s) := rfl

/-- R219: a raise that the channel takes two fabric cycles later. -/
theorem raiseLater_taken {s : State} {ch : Nat} (h : s.running = true) (hl : bit (s.reg (aHfCh ch)) 31 = false)
    (hr : ∀ r ∈ s.hinge.raised, ¬ (r.cyc = s.cycle + 2 ∧ r.ch = ch)) : OnlyIn [.hinge] s (s.raiseLater 2 ch) ∧
      (s.raiseLater 2 ch).hinge =
        { s.hinge with raised := s.hinge.raised ++ [⟨s.cycle + 2, ch, periods (s.nowIn 2), false, false⟩] } := by
  have h := raiseIn_taken s (s.cycle + 2) ch (periods (s.nowIn 2)) false h hl hr
  rw [State.raiseLater, h]
  exact ⟨setHinge_only s _, rfl⟩

theorem Begun.nowIn {id : Nat} {s p : State} (hp : Begun id s p) (n : Nat) : p.nowIn n = s.nowIn n := by
  have hcycle : p.cycle = s.cycle := hp.only .cycle (by simp)
  have htb : p.tb = s.tb := hp.only .tb (by simp)
  simp only [State.nowIn, State.tbIn, State.untilUp, htb, hcycle, hp.sys, hp.reg]

/-- R219: SIG raises its channel and tells of it. -/
theorem sig_raises {b : Beat} {n : BitVec 4} {s : State} {ch : Nat} (hch : ch = 256 + 16 * b.eng.val + n.toNat) (hc : Clean s)
    (hs : Settled s) (hi : FarIdle b s) (hr : Ready b [] true s) (hrun : s.running = true) (hl : bit (s.reg (aHfCh ch)) 31 = false)
    (hnone : ∀ r ∈ s.hinge.raised, ¬ (r.cyc = s.cycle + 2 ∧ r.ch = ch)) :
    let s' := farBeat b [] (sigBody n) s
    s'.hinge = { s.hinge with raised := s.hinge.raised ++ [⟨s.cycle + 2, ch, periods (s.nowIn 2), false, false⟩] }
      ∧ Issued b.id .fabric .done [] s s' ∧ NoResult b.id s s' ∧ SameMemory s s' ∧ OtherThreads b.id s s' ∧ s'.regs = s.regs := by
  have hp := takePosition_begun s b
  have hcycle : (s.takePosition b.eng.val b.pos.val b.thr.val).cycle = s.cycle := hp.only .cycle (by simp)
  obtain ⟨honly, hraised⟩ := raiseLater_taken (s := s.takePosition b.eng.val b.pos.val b.thr.val) (ch := ch)
    (by simp only [State.running, hp.sys]; exact hrun) (by rw [hp.reg]; exact hl) (by rw [hp.hinge, hcycle]; exact hnone)
  rw [hp.hinge, hcycle, hp.nowIn] at hraised
  have hbody : sigBody n b.id (s.takePosition b.eng.val b.pos.val b.thr.val) =
      .next (((s.takePosition b.eng.val b.pos.val b.thr.val).raiseLater 2 ch).request b.id .fabric .done [] none) := by
    rw [sigBody, beat_id_div, Nat.mul_comm, ← hch]
  have htold := farBeat_told hs hi hr hbody honly (by simp) (by simp) (by simp)
    ((hp.errorFree hc.errorFree).of_only honly (by simp) (by simp)) ((State.reg_of_regs _ _ (honly.regs (by simp)) _).trans (hp.reg _))
  refine ⟨(htold.only.hinge (by simp)).trans hraised, htold.issued, htold.result, SameMemory.of_mem ?_, htold.others, ?_⟩
  · rw [htold.only.mem (by simp), honly.mem (by simp), hp.mem]
  · rw [htold.only.regs (by simp), honly.regs (by simp), hp.only.regs (by simp)]

/-- Settles O21: a WAITE waits or takes the lowest event, and SIG's raise is taken by its channel. -/
theorem waitAndSignal : Obligations.WaitAndSignal := by
  unfold Obligations.WaitAndSignal
  intro b rd n s hc t open_ ch
  refine ⟨fun hr hstep => ⟨fun hnone => ⟨_, exec_waite .., waite_waits hr hstep hnone⟩, fun k e hk hev hlow =>
    ⟨_, exec_waite .., ?_⟩⟩, fun hs hi hr hrun hl hnone => ⟨_, exec_sig .., sig_raises rfl hc hs hi hr hrun hl hnone⟩⟩
  obtain ⟨hvalue, ⟨hslack, htimed, hpc, hothers, hmem⟩, htaken, hnotes, hregs⟩ := waite_takes (rd := rd) hr hstep hc hk hev hlow
  exact ⟨hvalue, hslack, htimed, hpc, htaken, hnotes, hregs, hmem, hothers⟩

end Sys2Proof

/-! SUPPORT. O17: a trap that a running thread takes, vectored or held, with the pc that it saves (R142, R149 to R160). -/

namespace Sys2Proof

open Machine

/-! ### What the cycle has seen -/

/-- The writes that have landed in the cycle and the mode request that it has taken are the same (R42, R52). -/
structure SameSeen (s t : State) : Prop where
  writes : t.sameNow.writes = s.sameNow.writes
  req : t.sameNow.req = s.sameNow.req

namespace SameSeen

theorem refl (s : State) : SameSeen s s := ⟨rfl, rfl⟩

theorem trans {s t u : State} (h : SameSeen s t) (h' : SameSeen t u) : SameSeen s u :=
  ⟨h'.writes.trans h.writes, h'.req.trans h.req⟩

theorem of_same {s t : State} (hs : t.same = s.same) (hc : t.cycle = s.cycle) : SameSeen s t := by
  constructor <;> rw [sameNow_congr hs hc]

/-- A state that has seen what `s` has may stand in its place. -/
theorem congr_left {s s' t : State} (h : SameSeen s' t) (hs : s'.same = s.same) (hc : s'.cycle = s.cycle) : SameSeen s t :=
  (of_same hs hc).trans h

theorem note (s : State) (f : Same → Same) (hc : (f s.sameNow).cyc = s.sameNow.cyc) (hw : (f s.sameNow).writes = s.sameNow.writes)
    (hr : (f s.sameNow).req = s.sameNow.req) : SameSeen s (s.note f) := by
  have hn := note_sameNow s f (hc.trans (sameNow_cyc s))
  constructor <;> rw [hn] <;> assumption

theorem noteSet (s : State) (a i : Nat) : SameSeen s (s.noteSet a i) := by
  apply note <;> (simp only [Same.updSets]; split <;> [skip; split] <;> rfl)

theorem noteCount (s : State) (a lo k : Nat) : SameSeen s (s.noteCount a lo k) := by
  dsimp only [State.noteCount]
  apply note <;> (simp only [Same.updCounts]; split <;> [skip; split] <;> rfl)

theorem setReg (s : State) (a : Nat) (v : Word) : SameSeen s (s.setReg a v) := of_same rfl rfl

theorem setFlag (s : State) (a i : Nat) : SameSeen s (s.setFlag a i) :=
  (setReg s a (setBit (s.reg a) i true)).trans (noteSet _ a i)

theorem count (s : State) (a lo n k : Nat) : SameSeen s (s.count a lo n k) :=
  (setReg s a (setFld (s.reg a) lo n (min (2 ^ n - 1) (fld (s.reg a) lo n + k)))).trans (noteCount _ a lo k)

theorem raise (s : State) (ch : Nat) : SameSeen s (s.raise ch) := by
  simp only [State.raise, State.raiseIn]
  split
  · exact refl s
  · split
    · exact count s _ _ _ _
    · split
      · exact of_same rfl rfl
      · split
        · exact of_same rfl rfl
        · exact ((setFlag { s with hinge := _ } _ _).trans (count _ _ _ _ _)).congr_left rfl rfl

theorem trapRecord (s : State) (k id : Nat) (c : Trap) (pol : Nat) (dbl far vecf : Bool) (named info : Word) :
    SameSeen s (s.trapRecord k id c pol dbl far vecf named info) := by
  have hc := count s (aTrp k 0x14) 0 16 1
  simp only [State.trapRecord]
  generalize s.count (aTrp k 0x14) 0 16 = u at hc ⊢
  split
  · exact (hc.trans (setFlag _ _ _)).trans (noteSet _ _ _)
  · exact (((hc.trans (noteSet _ _ _)).trans (setReg _ _ _)).trans (setReg _ _ _)).trans (setReg _ _ _)

end SameSeen

/-! ### The state in which a trap is taken -/

/-- The state `p` in which thread `id`, which runs with the context that it has in `s`, takes a trap. -/
structure Trapping (id : Nat) (s p : State) : Prop where
  only : OnlyIn [.engines, .threads] s p
  running : (p.thr id).st = .running
  w : (p.thr id).w = (s.thr id).w
  status : (p.thr id).status = (s.thr id).status
  vbase : (p.thr id).vbase = (s.thr id).vbase
  slim : (p.thr id).slim = (s.thr id).slim
  stepping : (p.thr id).stepping = (s.thr id).stepping
  others : OtherThreads id s p
  engines : ∀ j, SameEngine (s.eng j) (p.eng j)
  seen : SameSeen s p

theorem Begun.trapping {id : Nat} {s p : State} (hp : Begun id s p) : Trapping id s p where
  only := hp.only
  running := hp.running
  w := hp.w
  status := hp.status
  vbase := by simp [hp.thr]
  slim := by simp [hp.thr]
  stepping := hp.stepping
  others := hp.others
  engines := hp.engines
  seen := by constructor <;> rw [hp.now]

/-- R143: a far error that is taken is due no more. -/
theorem Trapping.errs {id : Nat} {s p : State} (hp : Trapping id s p) (es : List ErrDue) :
    Trapping id s (p.updThr id ({ · with errs := es })) where
  only := hp.only.trans ((setThr_only p id _).mono (by simp))
  running := by rw [State.updThr_thr_same]; exact hp.running
  w := by rw [State.updThr_thr_same]; exact hp.w
  status := by rw [State.updThr_thr_same]; exact hp.status
  vbase := by rw [State.updThr_thr_same]; exact hp.vbase
  slim := by rw [State.updThr_thr_same]; exact hp.slim
  stepping := by rw [State.updThr_thr_same]; exact hp.stepping
  others := fun j hj => by rw [State.updThr_thr, if_neg hj]; exact hp.others j hj
  engines := hp.engines
  seen := hp.seen.trans (SameSeen.of_same rfl rfl)

section

variable {id : Nat} {s p : State} (hp : Trapping id s p)
include hp

theorem Trapping.rd (r : Reg) : (p.thr id).rd r = (s.thr id).rd r := by simp only [Thread.rd, hp.w]

theorem Trapping.reg (a : Nat) : p.reg a = s.reg a := State.reg_of_regs s p (hp.only.regs (by simp)) a

theorem Trapping.inTrap : (p.thr id).inTrap = (s.thr id).inTrap := by simp only [Thread.inTrap, hp.status]

theorem Trapping.frameFits : p.frameFits id = s.frameFits id := by simp only [State.frameFits, hp.rd, hp.slim, hp.reg]

/-- How a trap is held depends on the context and the policy register alone. -/
theorem Trapping.heldAs (c : Trap) (vecf : Bool) : p.heldAs id c vecf = s.heldAs id c vecf := by
  simp only [State.heldAs, hp.inTrap, hp.reg, hp.frameFits]

theorem Trapping.errorFree (h : ErrorFree s) : ErrorFree p := h.of_only hp.only (by simp) (by simp)

theorem Trapping.twin (k : Nat) : p.twin k = s.twin k := by simp only [State.twin, hp.reg]

end

/-! ### A trap that is vectored -/

/-- R149 to R151, R160: the trap of a running thread that is vectored, at the end of its instruction. -/
theorem Trapping.vectored {id : Nat} {s p : State} (hp : Trapping id s p) (c : Trap) (info savedPc pc : Word) (hid : id < 256)
    (hf : ErrorFree s) (hw : s.twin (id / 16) = false) (hm : mergeForm s = true) (ht : (s.thr id).inTrap = false)
    (hpol : fld (s.reg (aTrp (id / 16) 0)) c.polBit 2 = 0) (hfit : s.frameFits id = true) :
    Vectored id c.code info savedPc s ((p.takeTrap id c info (s.thr id).pc savedPc).done id pc) := by
  obtain ⟨-, -, hinj, htwin, hthcfg⟩ := aTrp_place (k := id / 16) (off := 0x14) (by omega) (by omega)
  rw [takeTrap_vectored info _ _ hp.running ((hp.heldAs c false).trans (heldAs_vectored ht hpol hfit))]
  have hpfit : (p.count (aTrp (id / 16) 0x14) 16 16).frameFits id = s.frameFits id := by
    rw [← hp.frameFits, State.frameFits, count_reg, if_neg (hthcfg (id / 16) (id % 16) (by omega) (by omega)).symm]
    rfl
  have hq : EnteredAt id c.code _ (word c.code) info (s.thr id).pc savedPc (p.count (aTrp (id / 16) 0x14) 16 16) _ :=
    entry_enteredAt _ id c.code true (word c.code) info (s.thr id).pc savedPc hid
      ((hp.errorFree hf).of_same rfl (by rw [count_reg, if_neg hinj.symm]))
      (fun m h => localFits_of_mergeForm hm (id / 16) m ((hp.engines _).2.1 ▸ h))
      (by rw [State.twin, count_reg, if_neg htwin.symm, hp.reg]; exact hw)
      (hpfit.trans hfit)
  generalize (p.count (aTrp (id / 16) 0x14) 16 16).entry id c.code true (word c.code) info (s.thr id).pc savedPc = u at hq
  obtain ⟨hpc, hstatus, hrd, -, hothers, hframe, hbytes, hmemory, honly⟩ := hq
  have hcnt : (p.count (aTrp (id / 16) 0x14) 16 16).thr id = p.thr id := rfl
  simp only [hcnt, hp.rd, hp.status, hp.vbase, frameWords] at hpc hstatus hrd hframe hbytes
  obtain ⟨dw, dpc, dst⟩ := done_context u id pc
  have drd (r : Reg) : ((u.done id pc).thr id).rd r = (u.thr id).rd r := by simp only [Thread.rd, dw]
  have dmem : (u.done id pc).mem = u.mem := (done_only u id _).mem (by simp)
  have dbytes (x : Nat) : localByte (u.done id pc) (id / 16) x = localByte u (id / 16) x :=
    localByte_congr (done_engine u id _ _).2.1 dmem x
  have hreg (a : Nat) : (u.done id pc).reg a = (p.count (aTrp (id / 16) 0x14) 16 16).reg a :=
    (State.reg_of_regs _ _ ((done_only u id _).regs (by simp)) a).trans (State.reg_of_regs _ _ (honly.regs (by simp)) a)
  have hpmem : p.mem = s.mem := hp.only.mem (by simp)
  exact {
    pc := dpc.trans hpc
    status := dst.trans hstatus
    sp := by rw [drd, hrd]; rfl
    told := ⟨by rw [drd, hrd]; rfl, by rw [drd, hrd]; rfl, by rw [drd, hrd]; rfl⟩
    regs := fun r hr => by
      simp only [List.mem_cons, List.not_mem_nil, or_false, not_or] at hr
      obtain ⟨h0, h1, h2, h14⟩ := hr
      rw [drd, hrd, if_neg h2, if_neg h1, if_neg h0, if_neg h14]
    frame := by
      rw [hframe]
      simp only [localNat_eq, show localByte (u.done id pc) (id / 16) = localByte u (id / 16) from funext dbytes]
    local_ := fun x _ hx => ((dbytes x).trans (hbytes x hx)).trans (localByte_congr (hp.engines _).2.1 hpmem x)
    memory := fun x hx => by rw [dmem, hmemory x hx]; exact congrArg (readByte · x) hpmem
    others := fun j hj => (done_other u id j _ hj).trans ((hothers j hj).trans (hp.others j hj))
    count := (count_counted p (aTrp (id / 16) 0x14) 16 16 1 (by omega)).of_reg (hp.reg _).symm (hreg _)
    rest := ⟨fun a ha => by rw [hreg, count_regsBut p _ _ _ _ a ha, hp.reg],
      (((hp.only.mono (by simp)).trans ((count_only p _ _ _ _).mono (by simp))).trans (honly.mono (by simp))).trans
        ((done_only u id _).mono (by simp))⟩ }

/-! ### A trap that is held -/

/-- The state of a trap that is held, ahead of what the policies Engine reset and Safe add (R157, R160). -/
def heldState (id : Nat) (c : Trap) (pol : Nat) (dbl far : Bool) (named info savedPc : Word) (s : State) : State :=
  ((trapped s id savedPc).trapRecord (id / 16) id c pol dbl far false named info).raise (672 + id / 16)

theorem holdTrap_running {s : State} {id : Nat} (hr : (s.thr id).st = .running) (c : Trap) (pol : Nat) (dbl far : Bool)
    (named info savedPc : Word) : s.holdTrap id c pol dbl far false named info savedPc =
      if pol = 2 then (heldState id c pol dbl far named info savedPc s).engineReset (id / 16)
      else if pol = 3 then (heldState id c pol dbl far named info savedPc s).enterSafe 3
      else heldState id c pol dbl far named info savedPc s := by
  simp only [State.holdTrap, leaveWait_running hr]
  rfl

theorem heldState_thr (s : State) (id : Nat) (c : Trap) (pol : Nat) (dbl far : Bool) (named info savedPc : Word) (j : Nat) :
    (heldState id c pol dbl far named info savedPc s).thr j = (trapped s id savedPc).thr j :=
  (State.thr_of_threads _ _ ((raise_only _ _).threads (by simp)) j).trans
    (State.thr_of_threads _ _ ((trapRecord_only (trapped s id savedPc) (id / 16) id c pol dbl far false named info).threads
      (by simp)) j)

/-- What a trap that is held leaves under every policy: thread `id` TRAPPED at `savedPc`, its record and its event. -/
structure HeldIn (id code pol : Nat) (dbl far : Bool) (named info savedPc : Word) (s u : State) : Prop where
  state : (u.thr id).st = .trapped ∧ (u.thr id).pc = savedPc ∧ (u.thr id).status = (s.thr id).status
  w : (u.thr id).w = (s.thr id).w
  stepping : (u.thr id).stepping = (s.thr id).stepping
  others : OtherThreads id s u
  record : Recorded (id / 16) id code pol dbl far false named info s u
  event : Raisable (672 + id / 16) s → RaisedNow (672 + id / 16) s u ∧ RegsBut ([8, 12, 16, 0x14].map (aTrp (id / 16))) s u
  only : OnlyIn [.regs, .threads, .engines, .hinge] s u
  regs : ∀ a, a ≠ aHfCnt → a ≠ aHfCh (672 + id / 16) → a ∉ [8, 12, 16, 0x14].map (aTrp (id / 16)) → u.reg a = s.reg a
  holder : ∀ n, (u.eng (id / 16)).holder = some n → 16 * (id / 16) + n.val ≠ id
  engines : ∀ j, SameEngine (s.eng j) (u.eng j)
  seen : SameSeen s u

theorem trapped_engine (s : State) (id : Nat) (savedPc : Word) (j : Nat) : SameEngine (s.eng j) ((trapped s id savedPc).eng j) :=
  dropHolder_engine (s.updThr id (·.enter s.cycle .trapped)) id j

/-- R157, R158, R160: the trap of a running thread that is held. -/
theorem Trapping.held {id : Nat} {s p : State} (hp : Trapping id s p) (c : Trap) {pol : Nat} (dbl far : Bool)
    (named info savedPc : Word) (hid : id < 256) (hpol : pol < 4) :
    HeldIn id c.code pol dbl far named info savedPc s (heldState id c pol dbl far named info savedPc p) := by
  obtain ⟨hst, hpc, hstatus, hw, hstep⟩ := trapped_thr p id savedPc
  have hto := hp.only.trans ((trapped_only p id savedPc).mono (by simp))
  have hothers := trapped_others p id savedPc
  have hholder := trapped_holder p id savedPc
  have heng (j : Nat) := (hp.engines j).trans (trapped_engine p id savedPc j)
  have hseen := hp.seen.trans (SameSeen.of_same (t := trapped p id savedPc) rfl rfl)
  have hthr := heldState_thr p id c pol dbl far named info savedPc
  simp only [heldState] at hthr ⊢
  generalize trapped p id savedPc = u at *
  have hureg (a : Nat) : u.reg a = s.reg a := State.reg_of_regs s u (hto.regs (by simp)) a
  obtain ⟨hrec, hbut⟩ := trapRecord_recorded u (id / 16) id c pol dbl far false named info (by omega) hpol
  have hro := trapRecord_only u (id / 16) id c pol dbl far false named info
  have hrseen := SameSeen.trapRecord u (id / 16) id c pol dbl far false named info
  generalize u.trapRecord (id / 16) id c pol dbl far false named info = r at *
  have hao := raise_only r (672 + id / 16)
  have hplace {off : Nat} (ho : off < 0x100) : aTrp (id / 16) off ≠ aHfCnt ∧ aTrp (id / 16) off ≠ aHfCh (672 + id / 16) := by
    obtain ⟨h1, h2, -⟩ := aTrp_place (k := id / 16) (off := off) (by omega) ho
    exact ⟨h1, h2 _ (by omega)⟩
  have htrp (off : Nat) (ho : off < 0x100) : (r.raise (672 + id / 16)).reg (aTrp (id / 16) off) = r.reg (aTrp (id / 16) off) :=
    raise_reg _ _ _ (hplace ho).1 (hplace ho).2
  have hre (j : Nat) : (r.raise (672 + id / 16)).eng j = u.eng j :=
    (State.eng_of_engines _ _ (hao.engines (by simp)) _).trans (State.eng_of_engines _ _ (hro.engines (by simp)) _)
  have hso : OnlyIn [.engines, .threads, .regs] s r := (hto.mono (by simp)).trans (hro.mono (by simp))
  have hfresh (h : Raisable (672 + id / 16) s) : Raisable (672 + id / 16) r := by
    refine h.of_same hso (by simp) (by simp) (by simp) ((hbut _ fun hm => ?_).trans (hureg _))
    obtain ⟨off, hoff, hx⟩ := List.mem_map.1 hm
    refine (hplace (off := off) ?_).2 hx
    simp only [List.mem_cons, List.not_mem_nil, or_false] at hoff
    omega
  exact {
    state := by rw [hthr]; exact ⟨hst, hpc, hstatus.trans hp.status⟩
    w := by rw [hthr, hw, hp.w]
    stepping := by rw [hthr, hstep, hp.stepping]
    others := fun j hj => by rw [hthr, hothers j hj, hp.others j hj]
    record := hrec.of_reg (fun off _ => (hureg _).symm) htrp
    event := fun h => ⟨(raise_taken r _ (hfresh h)).of_same hso (by simp) (by simp) (by simp), fun a ha => by
      rw [State.reg_of_regs _ _ (raise_taken_regs r _ (hfresh h)), hbut a ha, hureg]⟩
    only := (hso.mono (by simp)).trans (hao.mono (by simp))
    regs := fun a h1 h2 ha => by rw [raise_reg _ _ _ h1 h2, hbut a ha, hureg]
    holder := fun n hn => hholder n (hre _ ▸ hn)
    engines := fun j => by rw [hre]; exact heng j
    seen := (hseen.trans hrseen).trans (SameSeen.raise r _) }

/-- The policy Hold adds nothing. -/
theorem HeldIn.heldTrap {id code : Nat} {dbl far : Bool} {named info savedPc : Word} {s u : State}
    (h : HeldIn id code 1 dbl far named info savedPc s u) : HeldTrap id code dbl far named info savedPc s u where
  state := h.state
  regs := fun r _ => by simp only [Thread.rd, h.w]
  others := h.others
  record := h.record
  event := fun hra => ⟨(h.event hra).1, (h.event hra).2, h.only⟩
  holder := h.holder

/-- The end of an instruction whose thread has been held, and does not step, keeps what the trap has left (R167). -/
theorem HeldTrap.done {id code : Nat} {dbl far : Bool} {named info savedPc : Word} {s u : State}
    (h : HeldTrap id code dbl far named info savedPc s u) (hstep : (u.thr id).stepping = false) (pc : Word) :
    HeldTrap id code dbl far named info savedPc s (u.done id pc) := by
  obtain ⟨⟨hst, hpc, hstatus⟩, hregs, hothers, hrec, hevent, hholder⟩ := h
  obtain ⟨kw, kstatus, kpc, -, -, kst, -⟩ := unskipped_context pc (u.thr id)
  rw [done_unskipped pc hstep]
  have hthr : (u.updThr id (unskipped pc)).thr id = unskipped pc (u.thr id) := State.updThr_thr_same ..
  refine ⟨?_, fun r hr => ?_, fun j hj => ?_, hrec.of_reg (fun _ _ => rfl) fun _ _ => rfl, fun hra => ?_, hholder⟩
  · rw [hthr, kst, kpc, kstatus]; exact ⟨hst, hpc, hstatus⟩
  · rw [hthr, Thread.rd, kw]; exact hregs r hr
  · rw [State.updThr_thr, if_neg hj]; exact hothers j hj
  · obtain ⟨hraised, hbut, honly⟩ := hevent hra
    exact ⟨hraised.of_hinge rfl, hbut, honly.trans ((setThr_only u id _).mono (by simp))⟩

end Sys2Proof

/-! SUPPORT. O17: the policy Engine reset, in an engine of no pair while nobody waits for a lock (R94, R157). -/

namespace Sys2Proof

open Machine

/-! ### The merge entries -/

/-- R177: the flush of the local merge entry, with memory free of errors. -/
theorem flushLocal_flushed (s : State) (k : Nat) (hf : ErrorFree s) (hl : LocalFits k s) :
    OnlyIn [.mem, .engines] s (s.flushLocal k) ∧ SameSeen s (s.flushLocal k)
      ∧ ((s.flushLocal k).eng k).localMerge = none ∧ ((s.flushLocal k).eng k).farMerge = (s.eng k).farMerge := by
  cases hm : (s.eng k).localMerge with
  | none =>
    have h : s.flushLocal k = s := by simp [State.flushLocal, hm]
    rw [h]
    exact ⟨OnlyIn.refl _ s, SameSeen.refl s, hm, rfl⟩
  | some m =>
    obtain ⟨-, -, -, hsorted, -⟩ := (localForm_iff m).1 (hl m hm)
    obtain ⟨mem, hw, -⟩ := mergeCode_errorFree (s.updEng k ({ · with localMerge := none })) (engKey k m.addr)
      (16 * s.lead k + m.owners.headD 0) m.lanes hf hsorted
    have he := State.updEng_eng_same s k ({ · with localMerge := none })
    have hlocal := congrArg Engine.localMerge he
    have hfar := congrArg Engine.farMerge he
    simp only [State.flushLocal, hm, hw]
    exact ⟨((setEng_only s k _).mono (by simp)).trans ((setMem_only _ mem).mono (by simp)), SameSeen.of_same rfl rfl,
      hlocal, hfar⟩

/-- The far merge entry of engine `k`, if it has one, has its lanes in order (R179). -/
def FarSorted (k : Nat) (s : State) : Prop := ∀ m, (s.eng k).farMerge = some m → tabSorted m.lanes = true

theorem farSorted_of_mergeForm {s : State} (h : mergeForm s = true) (k : Nat) : FarSorted k s := by
  intro m hm
  simp only [State.eng, tabGet] at hm
  cases he : tabFind s.engines k with
  | none => rw [he] at hm; cases hm
  | some e =>
    rw [he, Option.getD_some] at hm
    have := List.all_eq_true.1 h _ (mem_of_tabFind _ _ _ he)
    simp only [Bool.and_eq_true, hm, Option.all_some, farForm] at this
    exact this.2.1.1.2

/-- R180: the flush of the far merge entry, in a cycle in which no write has landed. -/
theorem flushFar_flushed (s : State) (k : Nat) (hf : ErrorFree s) (hl : FarSorted k s) (hn : s.sameNow.writes = []) :
    OnlyIn [.mem, .engines, .scan, .threads] s (s.flushFar k)
      ∧ ((s.flushFar k).eng k).farMerge = none ∧ ((s.flushFar k).eng k).localMerge = (s.eng k).localMerge := by
  cases hm : (s.eng k).farMerge with
  | none =>
    have h : s.flushFar k = s := by simp [State.flushFar, hm]
    rw [h]
    exact ⟨OnlyIn.refl _ s, hm, rfl⟩
  | some m =>
    have hc : ∃ n, s.flushFar k = (((s.imageCycles n).updEng k ({ · with farMerge := none })).landLanes m.addr m.owner
        m.lanes).updThr m.owner Thread.mergeDone := ⟨_, by simp only [State.flushFar, hm]; rfl⟩
    obtain ⟨n, hc⟩ := hc
    have hio := imageCycles_only s n
    have hseen : (s.imageCycles n).sameNow = s.sameNow := by
      refine sameNow_congr ?_ (hio .cycle (by simp))
      simp only [State.imageCycles]
      split <;> rfl
    rw [hc]
    generalize s.imageCycles n = i at hio hseen
    have hif : ErrorFree i := hf.of_only hio (by simp) (by simp)
    have hlo := landLanes_errorFree (i.updEng k ({ · with farMerge := none })) m.addr m.owner m.lanes m.owner hif
      (fun a => outranked_none _ _ _ ((congrArg Same.writes hseen).trans hn)) (hl m hm)
    have he := State.updEng_eng_same i k ({ · with farMerge := none })
    have hi : i.eng k = s.eng k := State.eng_of_engines s i (hio.engines (by simp)) k
    have honly : OnlyIn [.mem, .engines, .scan, .threads] s (i.updEng k ({ · with farMerge := none })) :=
      (hio.mono (by simp)).trans ((setEng_only i k _).mono (by simp))
    generalize (i.updEng k ({ · with farMerge := none })).landLanes m.addr m.owner m.lanes = l at hlo
    have hle : (l.updThr m.owner Thread.mergeDone).eng k = { i.eng k with farMerge := none } :=
      (State.eng_of_engines _ l (hlo.only.engines (by simp)) k).trans he
    refine ⟨(honly.trans (hlo.only.mono (by simp))).trans ((setThr_only l m.owner _).mono (by simp)), ?_, ?_⟩
    · rw [hle]
    · rw [hle, hi]

/-! ### The threads -/

/-- Engine `k` is in no pair, its merge entries are empty, and nobody waits for a lock. -/
structure Emptied (k : Nat) (s : State) : Prop where
  single : s.twin k = false
  locals : (s.eng k).localMerge = none
  far : (s.eng k).farMerge = none
  unawaited : s.tum.waiters = []

/-- R197: with nobody waiting, the reset of a holder changes the Tumbler unit only. -/
theorem holderReset_unawaited (s : State) (id : Nat) (h : s.tum.waiters = []) :
    OnlyIn [.tum] s (s.holderReset id) ∧ (s.holderReset id).tum.waiters = [] := by
  have hd : OnlyIn [.tum] s (s.deregister id) ∧ (s.deregister id).tum.waiters = [] :=
    ⟨setTum_only s _, by simp [State.deregister, h, tabErase]⟩
  obtain ⟨honly, hw⟩ := foldl_keeps (fun t => OnlyIn [.tum] s t ∧ t.tum.waiters = []) (fun t a => t.freeLock a true)
    (heldBy id s) _ hd fun t a ⟨ht, hw⟩ => ⟨ht.trans (freeLock_alone t a true hw), by
      simp [State.freeLock, State.completeWaiters, hw]⟩
  exact ⟨honly.trans (setTum_only _ _), hw⟩

/-- The parts that the reset of a thread changes where nothing of it waits to be written and nobody waits for its locks. -/
def resetParts : List Part := [.tum, .threads, .engines, .hinge]

/-- R93: the reset of a thread whose stores have been written, while nobody waits for its locks. -/
theorem resetThread_emptied {k id : Nat} {s : State} (h : Emptied k s) (hid : id / 16 = k) :
    Emptied k (s.resetThread id) ∧ OnlyIn resetParts s (s.resetThread id) ∧ (s.resetThread id).thr id = {}
      ∧ OtherThreads id s (s.resetThread id) := by
  subst hid
  obtain ⟨hsingle, hlocals, hfar, hw⟩ := h
  have hd : OnlyIn [.engines] s (s.dropHolder id) := setEng_only s _ _
  obtain ⟨-, hdl, hdf⟩ := dropHolder_engine s id (id / 16)
  obtain ⟨hro, hrw⟩ := holderReset_unawaited (s.dropHolder id) id hw
  generalize hr : (s.dropHolder id).holderReset id = r at hro hrw
  have he : s.resetThread id = { r.setThr id {} with hinge := { r.hinge with
      inputs := tabDrop (fun i _ => i / 4 == id) r.hinge.inputs
      drops := tabDrop (fun i _ => i / 4 == id) r.hinge.drops
      notes := r.hinge.notes.filter fun n => n.id != id } } := by
    simp only [State.resetThread, State.both, hsingle, hlocals, hfar, Bool.false_eq_true, if_false, List.foldl_cons,
      List.foldl_nil, Option.any_none, hr]
    rfl
  have honly : OnlyIn resetParts s (s.resetThread id) := by
    rw [he]
    exact (((hd.mono (by simp [resetParts])).trans (hro.mono (by simp [resetParts]))).trans
      ((setThr_only r id {}).mono (by simp [resetParts]))).trans ((setHinge_only _ _).mono (by simp [resetParts]))
  have heng : (s.resetThread id).eng (id / 16) = (s.dropHolder id).eng (id / 16) := by
    rw [he]
    exact State.eng_of_engines (s.dropHolder id) r (hro.engines (by simp)) _
  refine ⟨⟨?_, ?_, ?_, ?_⟩, honly, ?_, fun j hj => ?_⟩
  · rw [State.twin, State.reg_of_regs s _ (honly.regs (by simp [resetParts]))]; exact hsingle
  · rw [heng, hdl, hlocals]
  · rw [heng, hdf, hfar]
  · rw [he]; exact hrw
  · rw [he]; exact State.setThr_thr_same ..
  · have h1 : (r.setThr id {}).thr j = r.thr j := by rw [State.setThr_thr, if_neg hj]
    rw [he]
    exact h1.trans (State.thr_of_threads (s.dropHolder id) r (hro.threads (by simp)) j)

/-- R94: the resets of some threads of engine `k`, one after the other. -/
theorem resetThreads_emptied {k : Nat} (is : List Nat) (hi : ∀ i ∈ is, i < 16) {s : State} (h : Emptied k s) :
    let t := is.foldl (fun s i => s.resetThread (16 * k + i)) s
    Emptied k t ∧ OnlyIn resetParts s t ∧ ∀ j, (s.thr j = {} ∨ ∃ i ∈ is, j = 16 * k + i) → t.thr j = {} := by
  induction is generalizing s with
  | nil => exact ⟨h, OnlyIn.refl _ s, fun j hj => by simpa using hj⟩
  | cons i is ih =>
    have hlt := hi i (List.mem_cons_self ..)
    obtain ⟨h1, ho1, hthr, hothers⟩ := resetThread_emptied h (id := 16 * k + i) (by omega)
    obtain ⟨h2, ho2, hall⟩ := ih (fun x hx => hi x (List.mem_cons_of_mem _ hx)) h1
    refine ⟨h2, ho1.trans ho2, fun j hj => hall j ?_⟩
    by_cases hji : j = 16 * k + i
    · exact .inl (hji ▸ hthr)
    · rcases hj with hj | ⟨x, hx, rfl⟩
      · exact .inl ((hothers j hji).trans hj)
      · rcases List.mem_cons.1 hx with rfl | hx
        · exact absurd rfl hji
        · exact .inr ⟨x, hx, rfl⟩

/-! ### The engine -/

theorem govInsert_start (r : GovReq) (g : List GovReq) (h : r.start = true) :
    ∃ q ∈ govInsert r g, q.eng = r.eng ∧ q.start = true := by
  induction g with
  | nil => exact ⟨r, List.mem_singleton_self r, rfl, h⟩
  | cons x g ih =>
    simp only [govInsert]
    split
    · rename_i he
      exact ⟨_, List.mem_cons_self .., he, by simp [h]⟩
    · split
      · exact ⟨r, List.mem_cons_self .., rfl, h⟩
      · obtain ⟨q, hq, hp⟩ := ih
        exact ⟨q, List.mem_cons_of_mem _ hq, hp⟩

/-- What the reset of engine `k` leaves: its threads reset, no holder, its start queued; of the registers only SYS_ENGSTART
changes, and the mode stands. -/
structure EngineGone (k : Nat) (s t : State) : Prop where
  threads : ∀ i, i < 16 → t.thr (16 * k + i) = {}
  holder : (t.eng k).holder = none
  queued : ∃ q ∈ t.sys.gov, q.eng = k ∧ q.start = true
  start : bit (t.reg aEngStart) k = true
  mode : t.sys.mode = s.sys.mode
  regs : RegsBut [aEngStart] s t

/-- R94: the reset of an engine of no pair, while nobody waits for a lock and no write has landed in the cycle. -/
theorem engineReset_engineGone {k : Nat} {s : State} (hk : k < 16) (hf : ErrorFree s) (hl : LocalFits k s) (hs : FarSorted k s)
    (hn : s.sameNow.writes = []) (ht : s.twin k = false) (hw : s.tum.waiters = []) : EngineGone k s (s.engineReset k) := by
  have hd : s.deregisterAll (engIds k) = s := by
    have hdrop : tabDrop (fun id _ => (engIds k).contains id) s.tum.waiters = s.tum.waiters := by rw [hw]; rfl
    simp only [State.deregisterAll, hdrop]
  have he : s.engineReset k = ((((s.flushLocal k).flushFar k).resetThreads k).updEng k
      ({ · with holder := none, yielded := none, twinStop := false })).queueStart k := by
    simp only [State.engineReset, State.lead, State.both, ht, Bool.false_eq_true, if_false, List.flatMap_cons,
      List.flatMap_nil, List.append_nil, hd, List.foldl_cons, List.foldl_nil]
  obtain ⟨ho1, hseen, hl1, hf1⟩ := flushLocal_flushed s k hf hl
  rw [he]
  generalize s.flushLocal k = a at ho1 hseen hl1 hf1
  obtain ⟨ho2, hf2, hl2⟩ := flushFar_flushed a k (hf.of_only ho1 (by simp) (by simp)) (fun m hm => hs m (hf1 ▸ hm))
    (hseen.writes.trans hn)
  generalize a.flushFar k = c at ho2 hf2 hl2
  have ho := (ho1.mono (by simp)).trans ho2
  have hc : Emptied k c := {
    single := by rw [State.twin, State.reg_of_regs s c (ho.regs (by simp))]; exact ht
    locals := hl2.trans hl1
    far := hf2
    unawaited := by rw [ho .tum (by simp)]; exact hw }
  obtain ⟨-, ho3, hall⟩ := resetThreads_emptied (upTo 16) (fun i hi => List.mem_range.1 hi) hc
  have hr : c.resetThreads k = (upTo 16).foldl (fun s i => s.resetThread (16 * k + i)) c := rfl
  rw [← hr] at ho3 hall
  generalize c.resetThreads k = r at ho3 hall
  have hregs (x : Nat) : r.reg x = s.reg x :=
    (State.reg_of_regs c r (ho3.regs (by simp [resetParts])) x).trans (State.reg_of_regs s c (ho.regs (by simp)) x)
  have hsys : r.sys = s.sys := (ho3.sys (by simp [resetParts])).trans (ho.sys (by simp))
  have heng := State.updEng_eng_same r k ({ · with holder := none, yielded := none, twinStop := false })
  generalize hu : r.updEng k ({ · with holder := none, yielded := none, twinStop := false }) = u at heng
  have hur (x : Nat) : u.reg x = s.reg x := by rw [← hu]; exact hregs x
  have hus : u.sys = s.sys := by rw [← hu]; exact hsys
  have hmode : u.sys.mode = s.sys.mode := congrArg Sys.mode hus
  have hflag : bit (((u.govQueue k false true).setFlag aEngStart k).reg aEngStart) k = true :=
    (setFlag_flagged (u.govQueue k false true) aEngStart k (by omega)).1
  obtain ⟨q, hq, hqe, hqs⟩ := govInsert_start ⟨k, false, true, u.cycle⟩ u.sys.gov rfl
  exact {
    threads := fun i hi => by
      have hthr : r.thr (16 * k + i) = {} := hall _ (.inr ⟨i, List.mem_range.2 hi, rfl⟩)
      rw [← hthr, ← hu]
      rfl
    holder := congrArg Engine.holder heng
    queued := ⟨q, hq, hqe, hqs⟩
    start := hflag
    mode := hmode
    regs := fun x hx => by
      have hx : x ≠ aEngStart := by simpa using hx
      rw [State.queueStart, setFlag_reg, if_neg hx]
      exact hur x }

end Sys2Proof

/-! SUPPORT. O17: the policy Safe, in a cycle that has taken no mode request (R52, R53, R157, R277, R279). -/

namespace Sys2Proof

open Machine

/-- What the cause of Safe of a trap does ahead of the transition: its bit, and the Shackle gate where the unit drives its
outputs (R157, R279). -/
def trapCaused (s : State) : State :=
  let s := s.setFlag aSafeCause 3
  if bit (s.reg aOwnStat) 0 && !s.sys.gate then s.shkGateOn else s

/-- The Shackle gate touches no register. -/
theorem trapCaused_caused (s : State) : OnlyIn [.regs, .pads] s (trapCaused s)
    ∧ ∀ a, (trapCaused s).reg a = (s.setFlag aSafeCause 3).reg a := by
  have hf : OnlyIn [.regs, .pads] s (s.setFlag aSafeCause 3) := (setFlag_only s _ _).mono (by simp)
  simp only [trapCaused]
  split
  · have hg := shkGateOn_only (s.setFlag aSafeCause 3)
    exact ⟨hf.trans (hg.mono (by simp)), State.reg_of_regs _ _ (hg.regs (by simp))⟩
  · exact ⟨hf, fun _ => rfl⟩

/-- The parts and the registers that a trap's entry to Safe changes. -/
def safeParts : List Part := [.regs, .sys, .hinge, .shk, .ecc, .pads]
def safeRegs : List Nat := [aSafeCause, aMode, 0x500F7000, aHfCnt, aHfCh 656, aHfCh 657]

/-- What the policy Safe adds to a trap that is held: the unit is in Safe with the cause of a trap. -/
structure SafeCaused (s t : State) : Prop where
  mode : t.sys.mode = .safe
  cause : bit (t.reg aSafeCause) 3 = true
  only : OnlyIn safeParts s t
  regs : RegsBut safeRegs s t

/-- R52, R157: a unit in Safe stays there and takes the cause. -/
theorem setFlag_safeCaused {s : State} (hm : s.sys.mode = .safe) : SafeCaused s (s.setFlag aSafeCause 3) where
  mode := hm
  cause := (setFlag_flagged s aSafeCause 3 (by omega)).1
  only := (setFlag_only s _ _).mono (by simp [safeParts])
  regs := fun a ha => by
    rw [setFlag_reg, if_neg]
    rintro rfl
    exact ha (List.mem_cons_self ..)

/-- R53, R277: a unit that leaves another mode for Safe. -/
theorem setMode_safeCaused (s : State) : SafeCaused s ((trapCaused s).setMode .safe).gateOn := by
  obtain ⟨hco, hcr⟩ := trapCaused_caused s
  have ht := setMode_transition (trapCaused s) .safe
  have hg := gateOn_only ((trapCaused s).setMode .safe)
  obtain ⟨b, hgs⟩ := gateOn_sys ((trapCaused s).setMode .safe)
  have hreg (a : Nat) : ((trapCaused s).setMode .safe).gateOn.reg a = ((trapCaused s).setMode .safe).reg a :=
    State.reg_of_regs _ _ (hg.regs (by simp)) a
  refine ⟨?_, ?_, ?_, fun a ha => ?_⟩
  · rw [hgs, ht.sys]
  · rw [hreg, ht.regs _ (by decide), hcr]
    exact (setFlag_flagged s aSafeCause 3 (by omega)).1
  · exact ((hco.mono (by simp [safeParts])).trans (ht.only.mono (by simp [safeParts]))).trans (hg.mono (by simp [safeParts]))
  · obtain ⟨hcause, hrest⟩ : a ≠ aSafeCause ∧ a ∉ [aMode, 0x500F7000, aHfCnt, aHfCh 656, aHfCh 657] := by
      simpa [safeRegs] using ha
    rw [hreg, ht.regs a hrest, hcr, setFlag_reg, if_neg hcause]

theorem SafeCaused.congr {s s' t : State} (h : SafeCaused s' t) (ho : OnlyIn [] s s') : SafeCaused s t where
  mode := h.mode
  cause := h.cause
  only := (ho.mono (by simp)).trans h.only
  regs := fun a ha => (h.regs a ha).trans (State.reg_of_regs s s' (ho.regs (by simp)) a)

/-- The cycle has seen the unit take the way to Safe by a cause other than a request. -/
def safeTaken (x : Same) : Same := { x with safe := true, cause := x.cause || true }

/-- R52: in a mode in which threads execute, where the cycle has taken no mode request. -/
theorem enterSafe_safeCaused {s : State} (hm : s.sys.mode.executes = true) (hr : s.sameNow.req = none) :
    SafeCaused s (s.enterSafe 3) := by
  have hu : s.undoRequest = s := by simp only [State.undoRequest, hr]
  have hn := note_only s safeTaken
  have hmode : (s.note safeTaken).sys.mode = s.sys.mode := rfl
  have he : s.enterSafe 3 = match s.sys.mode with
      | .safe => (s.note safeTaken).setFlag aSafeCause 3
      | .unaddressed | .preparation | .run | .tracking => ((trapCaused (s.note safeTaken)).setMode .safe).gateOn
      | _ => s.note safeTaken := by
    simp only [State.enterSafe, hu]
    rfl
  rw [he]
  cases hs : s.sys.mode <;> rw [hs] at hm
  case safe => exact (setFlag_safeCaused (hmode.trans hs)).congr hn
  case unaddressed | preparation | run | tracking => exact (setMode_safeCaused _).congr hn
  all_goals cases hm

/-- The trap block of an engine lies apart from the registers that an entry to Safe changes. -/
theorem aTrp_safeRegs {k off : Nat} (hk : k < 16) (ho : off < 0x100) : aTrp k off ∉ safeRegs := by
  simp only [safeRegs, aTrp, aSafeCause, aMode, aHfCnt, aHfCh, List.mem_cons, List.not_mem_nil, or_false, not_or]
  omega

end Sys2Proof

/-! SUPPORT. O17: TRAP n by its policy, and a far error that is taken in its place (R141 to R143, R149 to R151, R156 to R160). -/

namespace Sys2Proof

open Machine

/-! ### How a trap is held -/

section

variable {s : State} {id : Nat} {c : Trap}

/-- R157, R158: under a policy other than Vector a trap is held by that policy, within a trap too. -/
theorem heldAs_policy {pol : Nat} (h : fld (s.reg (aTrp (id / 16) 0)) c.polBit 2 = pol) (hpol : pol ≠ 0) :
    s.heldAs id c false = some (c, pol, (s.thr id).inTrap) := by
  cases ht : (s.thr id).inTrap with
  | true => simp [State.heldAs, ht, h]; omega
  | false => simp [State.heldAs, ht, h, hpol]

/-- R150: a trap to be vectored whose frame does not fit is a trap STKOV. -/
theorem heldAs_stkov (ht : (s.thr id).inTrap = false) (hpol : fld (s.reg (aTrp (id / 16) 0)) c.polBit 2 = 0)
    (hfit : s.frameFits id = false) (hs : fld (s.reg (aTrp (id / 16) 0)) 20 2 ≤ 1) :
    s.heldAs id c false = some (.stkov, 1, false) := by
  have hmax : max 1 (fld (s.reg (aTrp (id / 16) 0)) Trap.stkov.polBit 2) = 1 := Nat.max_eq_left hs
  simp [State.heldAs, ht, hpol, hfit, hmax]

/-- R157: a trap that is held as itself. -/
theorem takeTrap_holdTrap (hr : (s.thr id).st = .running) {pol : Nat} {dbl : Bool} (h : s.heldAs id c false = some (c, pol, dbl))
    (info named savedPc : Word) (far : Bool) :
    s.takeTrap id c info named savedPc far = s.holdTrap id c pol dbl far false named info savedPc := by
  simp [State.takeTrap, leaveWait_running hr, h]

/-- R150: a trap that is held as one of another code tells of the sp. -/
theorem takeTrap_other (hr : (s.thr id).st = .running) {c' : Trap} (hc : c' ≠ c) {pol : Nat} {dbl : Bool}
    (h : s.heldAs id c false = some (c', pol, dbl)) (info named savedPc : Word) :
    s.takeTrap id c info named savedPc = s.holdTrap id c' pol dbl false false named ((s.thr id).rd 14) savedPc := by
  simp [State.takeTrap, leaveWait_running hr, h, hc]

end

/-! ### What the policies leave -/

section

variable {id code pol : Nat} {dbl far : Bool} {named info savedPc : Word} {s u : State}

/-- The memory system's registers lie apart from those that a trap changes. -/
theorem HeldIn.reg (h : HeldIn id code pol dbl far named info savedPc s u) (hid : id < 256) {a : Nat}
    (ha : a = aEccInj ∨ a = aTwin) : u.reg a = s.reg a := by
  have htrp : a ∉ [8, 12, 16, 0x14].map (aTrp (id / 16)) := fun hm => by
    obtain ⟨off, hoff, rfl⟩ := List.mem_map.1 hm
    simp only [List.mem_cons, List.not_mem_nil, or_false] at hoff
    obtain ⟨-, -, hinj, htwin, -⟩ := aTrp_place (k := id / 16) (off := off) (by omega) (by omega)
    exact ha.elim hinj htwin
  refine h.regs a ?_ ?_ htrp <;> rcases ha with rfl | rfl <;> simp only [aEccInj, aTwin, aHfCnt, aHfCh] <;> omega

/-- R94, R157: what the policy Engine reset finds of the trap's engine, and leaves. -/
theorem HeldIn.engineGone (h : HeldIn id code pol dbl far named info savedPc s u) (hid : id < 256) (hc : Clean s)
    (hm : mergeForm s = true) (ht : s.twin (id / 16) = false) (hw : s.tum.waiters = []) :
    EngineGone (id / 16) u (u.engineReset (id / 16)) := by
  obtain ⟨-, hlocal, hfar⟩ := h.engines (id / 16)
  refine engineReset_engineGone (by omega) (hc.errorFree.of_same (h.only .ecc (by simp)) (h.reg hid (.inl rfl)))
    (fun m hl => localFits_of_mergeForm hm _ m (hlocal ▸ hl)) (fun m hl => farSorted_of_mergeForm hm _ m (hfar ▸ hl))
    (h.seen.writes.trans hc.2.2) ?_ ((congrArg Tumbler.waiters (h.only .tum (by simp))).trans hw)
  rw [State.twin, h.reg hid (.inr rfl)]
  exact ht

/-- The record of a trap stands while the registers of its block do. -/
theorem HeldIn.recorded {t : State} (h : HeldIn id code pol dbl far named info savedPc s u)
    (ht : ∀ off, off < 0x100 → t.reg (aTrp (id / 16) off) = u.reg (aTrp (id / 16) off)) :
    Recorded (id / 16) id code pol dbl far false named info s t :=
  h.record.of_reg (fun _ _ => rfl) ht

end

/-! ### TRAP n -/

section

variable {b : Beat} {n : BitVec 4} {s : State} (hr : Ready b [] false s)
include hr

/-- R141: TRAP n below the last word of the code space saves the address of the following word. -/
theorem after_trapOp {P : State → Prop} (h : ∀ p, Begun b.id s p →
      P ((p.takeTrap b.id (.trapN n) 0 (s.thr b.id).pc (pcOf ((s.thr b.id).pc + 4))).done b.id (s.thr b.id).pc)) :
    After (.trapOp b n) s P := by
  have hp := takePosition_begun s b
  refine ⟨_, rfl, ?_⟩
  rw [beat_ready b {} _ s hr]
  have hq := h _ hp
  simp only [hp.pc, if_neg (hr.space rfl)]
  simpa only [State.perform, hp.pc] using hq

/-- R149 to R151: TRAP n with the policy Vector and room for the frame. -/
theorem trapOp_vectored (hc : Clean s) (hm : mergeForm s = true) (ht : (s.thr b.id).inTrap = false)
    (hpol : fld (s.reg (aTrp b.eng.val 0)) 22 2 = 0) (hfit : s.frameFits b.id = true) :
    After (.trapOp b n) s (Vectored b.id (16 + n.toNat) 0 (pcOf ((s.thr b.id).pc + 4)) s) :=
  after_trapOp hr fun _ hp => hp.trapping.vectored (.trapN n) 0 _ _ (beat_id_lt b) hc.errorFree
    (beat_id_div b ▸ hr.single) hm ht (beat_id_div b ▸ hpol) hfit

/-- R157: TRAP n held under the policy `pol`, with the trap that is recorded. -/
theorem trapOp_held {P : State → Prop} {pol : Nat} (hpol : pol < 4) (hheld : s.heldAs b.id (.trapN n) false
      = some (.trapN n, pol, (s.thr b.id).inTrap))
    (h : ∀ u, HeldIn b.id (16 + n.toNat) pol (s.thr b.id).inTrap false (s.thr b.id).pc 0 (pcOf ((s.thr b.id).pc + 4)) s u →
      P ((if pol = 2 then u.engineReset (b.id / 16) else if pol = 3 then u.enterSafe 3 else u).done b.id (s.thr b.id).pc)) :
    After (.trapOp b n) s P := by
  refine after_trapOp hr fun p hp => ?_
  rw [takeTrap_holdTrap hp.running ((hp.trapping.heldAs _ _).trans hheld), holdTrap_running hp.running]
  exact h _ (hp.trapping.held (.trapN n) _ _ _ _ _ (beat_id_lt b) hpol)

/-- R157, R158: TRAP n with the policy Hold, and within a trap. -/
theorem trapOp_hold (hstep : (s.thr b.id).stepping = false) (h : fld (s.reg (aTrp b.eng.val 0)) 22 2 = 1
      ∨ (s.thr b.id).inTrap = true ∧ fld (s.reg (aTrp b.eng.val 0)) 22 2 = 0) :
    After (.trapOp b n) s (HeldTrap b.id (16 + n.toNat) (s.thr b.id).inTrap false (s.thr b.id).pc 0
      (pcOf ((s.thr b.id).pc + 4)) s) := by
  rw [← beat_id_div b] at h
  exact trapOp_held hr (by omega) (heldAs_hold h) fun _ hu => hu.heldTrap.done (hu.stepping.trans hstep) _

/-- R94, R157: TRAP n with the policy Engine reset, while nobody waits for a lock. -/
theorem trapOp_engineReset (hc : Clean s) (hm : mergeForm s = true) (hpol : fld (s.reg (aTrp b.eng.val 0)) 22 2 = 2)
    (hw : s.tum.waiters = []) : After (.trapOp b n) s fun s' =>
      Recorded b.eng.val b.id (16 + n.toNat) 2 (s.thr b.id).inTrap false false (s.thr b.id).pc 0 s s'
      ∧ (∀ i, i < 16 → s'.thr (16 * b.eng.val + i) = {}) ∧ (s'.eng b.eng.val).holder = none
      ∧ (∃ q ∈ s'.sys.gov, q.eng = b.eng.val ∧ q.start = true) ∧ bit (s'.reg aEngStart) b.eng.val = true
      ∧ s'.sys.mode = s.sys.mode := by
  rw [← beat_id_div b] at hpol ⊢
  refine trapOp_held hr (by omega) (heldAs_policy hpol (by omega)) fun u hu => ?_
  obtain ⟨hthreads, hholder, hqueued, hstart, hmode, hregs⟩ := hu.engineGone (beat_id_lt b) hc hm
    (beat_id_div b ▸ hr.single) hw
  have hown := hthreads (b.id % 16) (by omega)
  rw [Nat.div_add_mod] at hown
  rw [if_pos rfl]
  generalize u.engineReset (b.id / 16) = t at hthreads hholder hqueued hstart hmode hregs hown
  rw [done_unskipped _ (by rw [hown])]
  refine ⟨hu.recorded fun off ho => hregs _ ?_, fun i hi => ?_, hholder, hqueued, hstart, hmode.trans ?_⟩
  · simp only [aTrp, aEngStart, List.mem_singleton]; omega
  · rw [State.updThr_thr]
    split
    · rw [hown]; rfl
    · exact hthreads i hi
  · rw [hu.only.sys (by simp)]

/-- R52, R157: TRAP n with the policy Safe, in a cycle that has taken no mode request. -/
theorem trapOp_safe (hstep : (s.thr b.id).stepping = false) (hpol : fld (s.reg (aTrp b.eng.val 0)) 22 2 = 3)
    (hreq : s.sameNow.req = none) : After (.trapOp b n) s fun s' =>
      Recorded b.eng.val b.id (16 + n.toNat) 3 (s.thr b.id).inTrap false false (s.thr b.id).pc 0 s s'
      ∧ (s'.thr b.id).st = .trapped ∧ (s'.thr b.id).pc = pcOf ((s.thr b.id).pc + 4)
      ∧ (s'.thr b.id).status = (s.thr b.id).status ∧ OtherRegs b.id [] s s' ∧ OtherThreads b.id s s'
      ∧ s'.sys.mode = .safe ∧ bit (s'.reg aSafeCause) 3 = true := by
  have hk := b.eng.isLt
  rw [← beat_id_div b] at hpol hk ⊢
  refine trapOp_held hr (by omega) (heldAs_policy hpol (by omega)) fun u hu => ?_
  have hexec : s.sys.mode.executes = true := by
    have hruns := hr.runs
    simp only [State.engRuns, Bool.and_eq_true] at hruns
    exact hruns.1.1.2
  have hsys : u.sys = s.sys := hu.only.sys (by simp)
  obtain ⟨hmode, hcause, honly, hregs⟩ := enterSafe_safeCaused (s := u) (by rw [hsys]; exact hexec) (hu.seen.req.trans hreq)
  have hthr (j : Nat) : (u.enterSafe 3).thr j = u.thr j := State.thr_of_threads _ _ (honly.threads (by simp [safeParts])) j
  obtain ⟨hst, hpc, hstatus⟩ := hu.state
  obtain ⟨kw, kstatus, kpc, -, -, kst, -⟩ := unskipped_context (s.thr b.id).pc (u.thr b.id)
  rw [if_neg (by omega), if_pos rfl, done_unskipped _ (by rw [hthr, hu.stepping, hstep])]
  refine ⟨hu.recorded fun off ho => hregs _ (aTrp_safeRegs hk ho), ?_, ?_, ?_, fun r _ => ?_, fun j hj => ?_, hmode, hcause⟩
  · rw [State.updThr_thr_same, hthr, kst, hst]
  · rw [State.updThr_thr_same, hthr, kpc, hpc]
  · rw [State.updThr_thr_same, hthr, kstatus, hstatus]
  · rw [State.updThr_thr_same, hthr, Thread.rd, kw, hu.w]; rfl
  · rw [State.updThr_thr, if_neg hj, hthr, hu.others j hj]

/-- R150: TRAP n with the policy Vector and no room for the frame, where STKOV is held by Hold (log entry 91). -/
theorem trapOp_stkov (hstep : (s.thr b.id).stepping = false) (ht : (s.thr b.id).inTrap = false)
    (hpol : fld (s.reg (aTrp b.eng.val 0)) 22 2 = 0) (hfit : s.frameFits b.id = false)
    (hs : fld (s.reg (aTrp b.eng.val 0)) 20 2 ≤ 1) : After (.trapOp b n) s
      (HeldTrap b.id 10 false false (s.thr b.id).pc ((s.thr b.id).rd 14) (pcOf ((s.thr b.id).pc + 4)) s) := by
  rw [← beat_id_div b] at hpol hs
  refine after_trapOp hr fun p hp => ?_
  rw [takeTrap_other hp.running (by simp) ((hp.trapping.heldAs _ _).trans (heldAs_stkov (c := .trapN n) ht hpol hfit hs)),
    holdTrap_running hp.running, if_neg (by omega), if_neg (by omega), hp.rd]
  have hu := hp.trapping.held .stkov (pol := 1) false false (s.thr b.id).pc ((s.thr b.id).rd 14) (pcOf ((s.thr b.id).pc + 4))
    (beat_id_lt b) (by omega)
  exact hu.heldTrap.done (hu.stepping.trans hstep) _

end

/-! ### A far error that is due -/

section

variable {b : Beat} {s : State} {e : ErrDue}

/-- R143, R157: a far error that is taken under the policy Hold by a thread that does not step. -/
theorem Begun.farError {id : Nat} {s p : State} (hp : Begun id s p) (e : ErrDue) (hid : id < 256)
    (hstep : (s.thr id).stepping = false) (hpol : fld (s.reg (aTrp (id / 16) 0)) e.code.polBit 2 = 1) :
    HeldTrap id e.code.code (s.thr id).inTrap true e.pc e.info (s.thr id).pc s (p.takeBoundary id (.farError e))
      ∧ ((p.takeBoundary id (.farError e)).thr id).errs = (s.thr id).errs.tail
      ∧ (p.takeBoundary id (.farError e)).twin (id / 16) = s.twin (id / 16) := by
  have hq : Trapping id s (p.updThr id fun t => { t with errs := t.errs.tail }) := hp.trapping.errs (p.thr id).errs.tail
  have herrs : ((p.updThr id fun t => { t with errs := t.errs.tail }).thr id).errs = (s.thr id).errs.tail := by
    rw [State.updThr_thr_same, hp.thr, enter_errs]
  have hheld := takeTrap_holdTrap hq.running ((hq.heldAs _ _).trans (heldAs_policy hpol (by omega))) e.info e.pc (p.thr id).pc true
  rw [holdTrap_running hq.running, if_neg (by omega), if_neg (by omega), hp.pc] at hheld
  have hu := hq.held e.code (pol := 1) (s.thr id).inTrap true e.pc e.info (s.thr id).pc hid (by omega)
  have hthr := heldState_thr (p.updThr id fun t => { t with errs := t.errs.tail }) id e.code 1 (s.thr id).inTrap true e.pc e.info
    (s.thr id).pc id
  have ht : p.takeBoundary id (.farError e) = heldState id e.code 1 (s.thr id).inTrap true e.pc e.info (s.thr id).pc
      (p.updThr id fun t => { t with errs := t.errs.tail }) := by
    simp only [State.takeBoundary, hp.pc, hheld, State.stepEnd, hu.stepping, hstep, Bool.false_eq_true, if_false]
  rw [ht]
  refine ⟨hu.heldTrap, ?_, ?_⟩
  · rw [hthr, ← herrs]
    simp [trapped, State.setSt, State.dropHolder]
  · rw [State.twin, hu.reg hid (.inr rfl), State.twin]

/-- R147: a beat of an engine in no pair that finds a far error due takes it in place of the instruction. -/
theorem beat_farError (sh : Shape) (body : Nat → State → Act) (hruns : s.engRuns b.eng.val = true)
    (hsingle : s.twin b.eng.val = false) (hpos : s.atPosition b.eng.val b.pos.val = some b.thr.val)
    (hb : (s.takePosition b.eng.val b.pos.val b.thr.val).boundary b.id = .farError e)
    (htwin : ((s.takePosition b.eng.val b.pos.val b.thr.val).takeBoundary b.id (.farError e)).twin b.eng.val = false) :
    beat b sh body s = (s.takePosition b.eng.val b.pos.val b.thr.val).takeBoundary b.id (.farError e) := by
  simp only [Beat.id] at hb htwin ⊢
  simp only [beat, hruns, hsingle, hpos, hb, htwin, Bool.not_true, Bool.false_and, Bool.or_self, bne_self_eq_false,
    Bool.false_eq_true, if_false]

end

/-- Settles O17, by the policy of TRAP n and the state of its thread. -/
theorem trapEntry : Obligations.TrapEntry := by
  unfold Obligations.TrapEntry
  intro b n s hc hm t k pol code next recorded
  refine ⟨fun hr hstep => ⟨fun ht hpol hfit => trapOp_vectored hr hc hm ht hpol hfit, trapOp_hold hr hstep,
    fun hpol hw => ?_, fun hpol hreq => ?_, trapOp_stkov hr hstep⟩, fun e hruns hsingle hpos hb hstep hpol => ?_⟩
  · simpa only [recorded, hpol] using trapOp_engineReset hr hc hm hpol hw
  · simpa only [recorded, hpol] using trapOp_safe hr hstep hpol hreq
  · obtain ⟨hheld, herrs, htwin⟩ := (takePosition_begun s b).farError e (beat_id_lt b) hstep (beat_id_div b ▸ hpol)
    rw [beat_id_div] at htwin
    refine ⟨_, rfl, ?_⟩
    rw [beat_farError {} _ hruns hsingle hpos hb (htwin.trans hsingle)]
    exact ⟨hheld, herrs⟩

end Sys2Proof

/-! SUPPORT. O18: the return from an interrupt or a trap (R155). -/

namespace Sys2Proof

open Machine

/-! ### The frame -/

/-- The words of the frame at `sp` as loads of engine `k` see them (Table 5.2). -/
def seenFrame (s : State) (k sp : Nat) : List Word := (upTo 7).map fun i => word (localNat s k (sp + 4 * i) 4)

/-- One step of the read of a frame (R155). -/
def readFrameWord (k id sp : Nat) (acc : State × FrameRead) (i : Nat) : State × FrameRead :=
  match acc.1.loadPair k (sp + 4 * i) 4 id with
  | (s, some v, some w) =>
    (s, { acc.2 with words := acc.2.words ++ [word v], diff := if v = w then acc.2.diff else acc.2.diff ||| frameDiff i })
  | (s, none, none) => (s, { acc.2 with words := acc.2.words ++ [0], bad := some (acc.2.bad.getD (sp + 4 * i)) })
  | (s, v, _) => (s, { acc.2 with words := acc.2.words ++ [word (v.getD 0)], one := some (acc.2.one.getD (sp + 4 * i)) })

theorem readFrame_eq (s : State) (k id sp : Nat) : s.readFrame k id sp = (upTo 7).foldl (readFrameWord k id sp) (s, {}) := rfl

/-- R155: a frame that lies in the SRAM of an engine in no pair is read without a difference or an error. -/
theorem readFrame_errorFree (s : State) {k sp : Nat} (id : Nat) (hf : ErrorFree s) (hw : s.twin k = false) (hk : k < 16)
    (hal : sp % 4 = 0) (hhigh : sp + 32 ≤ 0x14000) : s.readFrame k id sp = (s, { words := seenFrame s k sp }) := by
  have hsteps (n : Nat) (hn : n ≤ 7) : (upTo n).foldl (readFrameWord k id sp) (s, {}) =
      (s, { words := (upTo n).map fun i => word (localNat s k (sp + 4 * i) 4) }) := by
    induction n with
    | zero => rfl
    | succ n ih =>
      have hload := loadPair_errorFree s (a := sp + 4 * n) (n := 4) id hf hw hk (by omega) (by omega)
      have hlist : upTo (n + 1) = upTo n ++ [n] := List.range_succ
      simp [hlist, ih (by omega), readFrameWord, hload]
  exact (readFrame_eq s k id sp).trans (hsteps 7 (Nat.le_refl 7))

/-- The registers of a thread that has returned: sp past the frame, w0 to w3 and lk from it, the others as they were. -/
theorem restore_rd (t : Thread) (sp : Word) (ws : List Word) (r : Reg) : (t.restore sp ws).rd r =
    if r = 14 then sp + 32 else if r = 15 then ws.getD 6 0 else if r = 3 then ws.getD 5 0 else if r = 2 then ws.getD 4 0
    else if r = 1 then ws.getD 3 0 else if r = 0 then ws.getD 2 0 else t.rd r := by
  have hcancel (t : Thread) : (t.cancel .flagT).rd r = t.rd r := rfl
  have h : (t.restore sp ws).rd r = ((((((((t.wr 0 (ws.getD 2 0)).wr 1 (ws.getD 3 0)).wr 2 (ws.getD 4 0)).wr 3
    (ws.getD 5 0)).wr 15 (ws.getD 6 0)).cancel .flagT)).wr 14 (sp + 32)).rd r := rfl
  simp only [h, rd_wr, hcancel]

/-! ### The instruction -/

/-- R155: an RFI at whose position `p` begins its frame is complete and lies in data SRAM, with a pc that is a word of the code
space. -/
theorem exec_rfi_returns {b : Beat} {s p : State} (hr : Ready b [.reg 14] false s (transfers := true))
    (hp : s.takePosition b.eng.val b.pos.val b.thr.val = p) (hf : ErrorFree p) (hw : p.twin b.eng.val = false) {sp pc : Word}
    (hsp : (p.thr b.id).rd 14 = sp) (hawaits : (p.thr b.id).frameAwaits sp = false) (hal : sp.toNat % 4 = 0)
    (hlow : 0x10000 ≤ sp.toNat) (hhigh : sp.toNat + 32 ≤ 0x14000) (hpc : (seenFrame p b.eng.val sp.toNat).getD 0 0 = pc)
    (hpcal : pc.toNat % 4 = 0) (hpclow : pc.toNat < 0x10000) : exec (.rfi b) s = .next
      (p.perform b.id (.jump (p.updThr b.id (·.restore sp (seenFrame p b.eng.val sp.toNat))) pc)) := by
  have hread := readFrame_errorFree p b.id hf hw b.eng.isLt hal hhigh
  show execRfi b s = _
  rw [execRfi, beat_ready b { reads := [.reg 14], transfer := true } _ s hr, hp]
  simp only [hsp, hawaits, hal, beat_id_div, hread, hpc, hpcal, ne_eq, not_true_eq_false, Bool.false_eq_true, if_false,
    Nat.not_lt.2 hlow, Nat.not_lt.2 hhigh, or_self, Nat.not_le.2 hpclow]

/-- A frame word waits for its reply whatever the state of the thread is. -/
theorem Begun.frameAwaits {id : Nat} {s p : State} (hp : Begun id s p) (sp : Word) :
    (p.thr id).frameAwaits sp = (s.thr id).frameAwaits sp := by simp only [Thread.frameAwaits, hp.outst]

/-- The frame reads as it did before the position began. -/
theorem Begun.seenFrame {id : Nat} {s p : State} (hp : Begun id s p) (k sp : Nat) : seenFrame p k sp = seenFrame s k sp := by
  simp only [Sys2Proof.seenFrame, hp.localNat]

/-- Settles O18: RFI jumps to the frame's pc in the thread that `Thread.restore` leaves. -/
theorem returnFromInterrupt : Obligations.ReturnFromInterrupt := by
  unfold Obligations.ReturnFromInterrupt
  intro b s hc hr t k sp w hawaits hal hlow hhigh hpcal hpclow
  have hp := takePosition_begun s b
  generalize hpos : s.takePosition b.eng.val b.pos.val b.thr.val = p at hp
  refine ⟨_, exec_rfi_returns (sp := t.rd 14) (pc := w 0) hr hpos (hp.errorFree hc.errorFree) ((hp.twin _).trans hr.single)
    (hp.rd 14) ((hp.frameAwaits _).trans hawaits) hal hlow hhigh (by rw [hp.seenFrame]; rfl) hpcal hpclow, ?_⟩
  rw [hp.seenFrame]
  have hu := updThr_only p b.id (·.restore (t.rd 14) (seenFrame s k sp))
  have hothers := updThr_others p b.id (·.restore (t.rd 14) (seenFrame s k sp))
  have hthr := State.updThr_thr_same p b.id (·.restore (t.rd 14) (seenFrame s k sp))
  generalize p.updThr b.id (·.restore (t.rd 14) (seenFrame s k sp)) = u at hu hothers hthr
  have honly := hp.only.trans (hu.mono (by simp))
  obtain ⟨hend, hpc⟩ := goTo_done_ended u b.id (w 0) (p.thr b.id).pc (hc.errorFree.of_only honly (by simp) (by simp))
    (by rw [State.twin, State.reg_of_regs s u (honly.regs (by simp)), beat_id_div]; exact hr.single)
  have hall := honly.trans hend.only
  have hrd (r : Reg) := ((rd_of_w hend.w r).trans (congrArg (Thread.rd · r) hthr)).trans (restore_rd _ _ _ r)
  refine ⟨hpc, hend.status.trans (congrArg Thread.status hthr), hrd 0, hrd 1, hrd 2, hrd 3, hrd 15, hrd 14, fun r hne => ?_,
    SameMemory.of_mem (hall.mem (by simp)), fun j hj => ?_, (hall.mono (by simp)).sameUnits⟩
  · simp only [List.mem_cons, List.not_mem_nil, or_false, not_or] at hne
    obtain ⟨h0, h1, h2, h3, h14, h15⟩ := hne
    exact (hrd r).trans (by rw [if_neg h14, if_neg h15, if_neg h3, if_neg h2, if_neg h1, if_neg h0, hp.rd])
  · exact (hend.others j hj).trans ((hothers j hj).trans (hp.others j hj))

end Sys2Proof

/-! SUPPORT. Events at a thread: their delivery and their consume notes (R138, R213, R227). -/

namespace Sys2Proof

open Machine

/-! ### Checked reads and the notes on their way -/

/-- What a checked read leaves alone, whatever errors the code word holds (R172, R173). -/
structure MemoryRead (s t : State) : Prop where
  only : OnlyIn memoryParts s t
  mem : t.mem = s.mem
  notes : t.hinge.notes = s.hinge.notes

theorem MemoryRead.trans {s t u : State} (h : MemoryRead s t) (h' : MemoryRead t u) : MemoryRead s u :=
  ⟨h.only.trans h'.only, h'.mem.trans h.mem, h'.notes.trans h.notes⟩

theorem raise_notes (s : State) (ch : Nat) : (s.raise ch).hinge.notes = s.hinge.notes := by
  simp only [State.raise, State.raiseIn]
  split
  · rfl
  · split
    · rfl
    · split
      · rfl
      · split <;> rfl

theorem corrected_notes (s : State) (key src id bitNo : Nat) :
    (s.corrected key src id bitNo).hinge.notes = s.hinge.notes := by
  have hevent (t : State) : (correctedEvent t).hinge.notes = t.hinge.notes := by
    simp only [correctedEvent]
    split
    · exact raise_notes t 658
    · rfl
  simp only [corrected_eq]
  split <;> exact hevent (correctedRecord s key src id bitNo)

theorem uncorrectable_notes (s : State) (key src id : Nat) (p : Bool) :
    (s.uncorrectable key src id p).hinge.notes = s.hinge.notes := by
  simp only [State.uncorrectable, raise_notes]
  split <;> rfl

theorem readCode_notes (s : State) (key src id : Nat) : (s.readCode key src id).1.hinge.notes = s.hinge.notes := by
  simp only [State.readCode]
  split
  · rfl
  · split
    · exact corrected_notes ..
    · split
      · exact uncorrectable_notes ..
      · split
        · exact uncorrectable_notes ..
        · split
          · exact corrected_notes ..
          · rfl

theorem readCode_memoryRead (s : State) (key src id : Nat) : MemoryRead s (s.readCode key src id).1 :=
  ⟨readCode_only s key src id, readCode_mem s key src id, readCode_notes s key src id⟩

/-- R118: filling the fetch-ahead word of a thread reads memory and changes that word of the thread. -/
theorem fill_fetches (s : State) (id : Nat) (a : Word) (vec : Bool) : ∃ (u : State) (w w' : Word) (bad bad' : Bool),
    MemoryRead s u ∧ s.fill id a vec = u.updThr id fun t =>
      { t with faAddr := a, faWord := w, faBad := bad, faVec := vec, faWord2 := w', faBad2 := bad' } := by
  have hread := readCode_memoryRead s (engKey (s.lead (id / 16)) a.toNat) 0 id
  simp only [State.fill]
  split
  · exact ⟨_, _, _, _, _, hread.trans (readCode_memoryRead _ _ _ _), rfl⟩
  · exact ⟨_, _, _, _, _, hread, rfl⟩

/-! ### A wait that completes -/

/-- The wait of thread `id` is over, memory free of errors or not: it is READY at the word after its instruction. -/
structure WaitDone (id : Nat) (u x : State) : Prop where
  w : (x.thr id).w = (u.thr id).w
  pc : (x.thr id).pc = pcOf ((u.thr id).pc + 4)
  ev : (x.thr id).ev = (u.thr id).ev
  st : (x.thr id).st = .ready
  others : OtherThreads id u x
  mem : x.mem = u.mem
  notes : x.hinge.notes = u.hinge.notes

/-- Past the move to the next word a completion changes its thread only. -/
theorem completeWait_updThr (s : State) (id : Nat) :
    ∃ f, s.completeWait id = (s.goTo id (pcOf ((s.thr id).pc + 4))).updThr id f := by
  simp only [State.completeWait]
  exact ⟨_, rfl⟩

/-- R138, R140: the wait of a thread that waits in an island that runs completes. -/
theorem completeWait_waitDone {u : State} {id : Nat} (hst : (u.thr id).st = .waiting)
    (hon : (u.eng (id / 16)).power = .on) : WaitDone id u (u.completeWait id) := by
  obtain ⟨v, w, w', bad, bad', hread, hgo⟩ := fill_fetches (u.updThr id ({ · with pc := pcOf ((u.thr id).pc + 4) })) id
    (pcOf ((u.thr id).pc + 4)) false
  change u.goTo id (pcOf ((u.thr id).pc + 4)) = _ at hgo
  have hv (j : Nat) : v.thr j = (u.updThr id ({ · with pc := pcOf ((u.thr id).pc + 4) })).thr j :=
    State.thr_of_threads _ v (hread.only.threads (by simp [memoryParts])) j
  have hpower : (v.eng (id / 16)).power = .on := by
    rw [State.eng_of_engines _ v (hread.only.engines (by simp [memoryParts])), State.updThr_eng, hon]
  generalize hg : u.goTo id (pcOf ((u.thr id).pc + 4)) = g at hgo
  have hgthr : (g.thr id).w = (u.thr id).w ∧ (g.thr id).pc = pcOf ((u.thr id).pc + 4) ∧ (g.thr id).ev = (u.thr id).ev
      ∧ (g.thr id).st = .waiting := by subst hgo; simp [hv, hst]
  obtain ⟨gw, gpc, gev, gst⟩ := hgthr
  have hthr := completeWait_waiting (s := u) (id := id) (hg ▸ gst)
    (by rw [hg, hgo]; simp only [State.islandOn, State.updThr_eng, hpower, beq_self_eq_true])
  obtain ⟨cw, -, cpc, cev, -, crdy⟩ := wokenThr_context g id (u.thr id).pc (g.thr id)
  rw [hg] at hthr
  rw [← hthr] at cw cpc cev crdy
  obtain ⟨f, hend⟩ := completeWait_updThr u id
  rw [hg] at hend
  refine ⟨cw.trans gw, cpc.trans gpc, cev.trans gev, crdy, fun j hj => ?_, ?_, ?_⟩
  · rw [hend, updThr_others _ id f j hj, hgo, updThr_others _ id _ j hj, hv, updThr_others _ id _ j hj]
  · rw [hend, hgo]; exact hread.mem
  · rw [hend, hgo]; exact hread.notes

/-! ### Delivery -/

/-- R213: an event latched at input `k` of a thread reaches an engine that can take it. -/
theorem deliverEvent_taken {s : State} {id k : Nat} {e : Ev} (he : tabFind s.hinge.inputs (4 * id + k) = some e)
    (hon : s.islandOn (id / 16) = true) (hstop : (s.eng (id / 16)).twinStop = false) (hev : tabFind (s.thr id).ev k = none)
    (hnotes : ∀ n ∈ s.hinge.notes, n.id ≠ id ∨ n.k ≠ k) :
    s.deliverEvent id k = (s.updThr id fun t => { t with ev := tabSet t.ev k e }).tryWaite id := by
  have hnone : (s.hinge.notes.any fun n => n.id == id && n.k == k) = false := by
    rw [List.any_eq_false]
    intro n hn
    rcases hnotes n hn with h | h <;> simp [h]
  simp [State.deliverEvent, he, hon, hstop, hev, hnone]

/-- R138: a thread that does not wait takes no event. -/
theorem tryWaite_unwaiting {u : State} {id : Nat} (h : (u.thr id).inWait = false) : u.tryWaite id = u := by
  simp only [State.tryWaite, h]
  split <;> rfl

/-- R138, R213: an event that reaches an armed input of a thread that waits without one gives its report. -/
theorem tryWaite_latched {s : State} {id : Nat} {k : Fin 4} {e : Ev} {rd : Reg} (hst : (s.thr id).st = .waiting)
    (hwait : (s.thr id).wait = .event rd) (hev : (s.thr id).ev = []) (harmed : (s.thr id).armed.getLsbD k.val = true)
    (hien : s.ien id k.val = false) : (s.updThr id fun t => { t with ev := tabSet t.ev k.val e }).tryWaite id =
      (reported rd id k.val e (s.updThr id fun t => { t with ev := tabSet t.ev k.val e })).completeWait id := by
  have hthr := State.updThr_thr_same s id fun t => { t with ev := tabSet t.ev k.val e }
  have hlist (j : Nat) : tabFind (tabSet (s.thr id).ev k.val e) j = if j = k.val then some e else none := by
    rw [tabFind_tabSet, hev]; rfl
  have hien' (j : Nat) : (s.updThr id fun t => { t with ev := tabSet t.ev k.val e }).ien id j = s.ien id j := rfl
  refine tryWaite_some (by rw [hthr]; exact hwait) (by rw [hthr]; exact hst) ?_
  rw [hthr]
  exact eventIn_lowest (by simp [harmed, hien', hien]) (by simp [hlist]) fun j hj _ => by simp [hlist, Nat.ne_of_lt hj]

/-- R138, R213: the WAITE of that thread completes with the delivery. -/
theorem deliverEvent_completes {s : State} {id : Nat} {k : Fin 4} {e : Ev} {rd : Reg}
    (htaken : s.deliverEvent id k.val = (s.updThr id fun t => { t with ev := tabSet t.ev k.val e }).tryWaite id)
    (hon : s.islandOn (id / 16) = true) (hst : (s.thr id).st = .waiting) (hwait : (s.thr id).wait = .event rd)
    (hev : (s.thr id).ev = []) (harmed : (s.thr id).armed.getLsbD k.val = true) (hien : s.ien id k.val = false) :
    let s' := s.deliverEvent id k.val
    (s'.thr id).st = .ready ∧ (s'.thr id).rd rd = report k.val e ∧ GoesOn id s s' ∧ tabFind (s'.thr id).ev k.val = none
      ∧ OtherRegs id [rd] s s' ∧ s'.hinge.notes = s.hinge.notes ++ [⟨id, k.val, e.ts⟩] ∧ ThreadsBut [id] s s'
      ∧ SameMemory s s' := by
  have hthr := State.updThr_thr_same s id fun t => { t with ev := tabSet t.ev k.val e }
  have hx := reported_consumed rd id k.val e (s.updThr id fun t => { t with ev := tabSet t.ev k.val e })
  rw [htaken, tryWaite_latched hst hwait hev harmed hien]
  generalize reported rd id k.val e (s.updThr id fun t => { t with ev := tabSet t.ev k.val e }) = u at hx
  have hdone := completeWait_waitDone (u := u) (id := id) (by rw [hx.st, hthr]; exact hst)
    (by rw [State.eng_of_engines _ u (hx.only.engines (by simp)), State.updThr_eng]; exact beq_iff_eq.1 hon)
  have hrd (r : Reg) := (rd_of_w hdone.w r).trans (hx.rd r)
  refine ⟨hdone.st, (hrd rd).trans (if_pos rfl), ?_, ?_, fun r hr => ?_, hdone.notes.trans hx.notes, fun j hj => ?_,
    SameMemory.of_mem (hdone.mem.trans (hx.only.mem (by simp)))⟩
  · rw [GoesOn, hdone.pc, hx.pc, hthr]
  · rw [hdone.ev, hx.ev, tabFind_tabErase, if_pos rfl]
  · rw [hrd, if_neg (by simpa using hr), hthr]
    rfl
  · have hne : j ≠ id := by simpa using hj
    rw [hdone.others j hne, hx.others j hne, updThr_others s id _ j hne]

/-! ### Consume notes -/

/-- R213, R227: the oldest note of all lands, in a cycle in which no event has met its input occupied. -/
theorem landNote_first {s : State} {id k : Nat} {ts : Time64} {rest : List Note} (hn : s.hinge.notes = ⟨id, k, ts⟩ :: rest)
    (hmissed : ∀ m ∈ s.sameNow.missed, m.input ≠ 4 * id + k) : s.landNote id = { s with
      hinge := { s.hinge with notes := rest, inputs := tabErase s.hinge.inputs (4 * id + k)
                              rts := tabSet s.hinge.rts id ts } } := by
  have hnone : s.sameNow.missed.filter (·.input == 4 * id + k) = [] := by
    rw [List.filter_eq_nil_iff]
    intro m hm
    simpa using hmissed m hm
  have hsame (h : Hinge) : State.sameNow { s with hinge := h } = s.sameNow := rfl
  simp [State.landNote, hn, hsame, hnone]

end Sys2Proof

/-! SUPPORT. The entry of an interrupt at a boundary of a thread that is READY (R147 to R151). -/

namespace Sys2Proof

open Machine

/-! ### The position -/

/-- R73: a timed thread that is READY has the positions that it owns. -/
theorem atPosition_owned {s : State} {k p t : Nat} (ho : s.owns k p t = true) (hst : (s.thr (16 * k + t)).st = .ready) :
    s.atPosition k p = some t := by
  simp only [State.owns, Bool.and_eq_true, beq_iff_eq] at ho
  obtain ⟨hclass, hthr⟩ := ho
  simp [State.atPosition, hclass, hthr, hst]

/-- R144, R148: a READY timed thread takes at one of its positions what its boundary has selected. -/
theorem entryTurn_ready {s : State} {eng thr : Fin 16} {k : Nat} {e : Ev} (hruns : s.engRuns eng.val = true)
    (hw : s.twin eng.val = false) (hst : (s.thr (16 * eng.val + thr.val)).st = .ready)
    (hb : s.boundary (16 * eng.val + thr.val) = .interrupt k e) (ho : ∃ p, p < 16 ∧ s.owns eng.val p thr.val = true) :
    ∃ b : Beat, b.id = 16 * eng.val + thr.val ∧ s.entryTurn eng.val thr.val =
      (s.takePosition b.eng.val b.pos.val b.thr.val).takeBoundary (16 * eng.val + thr.val) (.interrupt k e) := by
  obtain ⟨p, hp, ho⟩ := ho
  cases hfind : (upTo 16).find? fun p => s.atPosition eng.val p == some thr.val with
  | none =>
    rw [List.find?_eq_none] at hfind
    exact absurd (hfind p (List.mem_range.2 hp)) (by simp [atPosition_owned ho hst])
  | some q =>
    have hq : q < 16 := List.mem_range.1 (List.mem_of_find?_eq_some hfind)
    refine ⟨⟨eng, thr, ⟨q, hq⟩, 0⟩, rfl, ?_⟩
    simp [State.entryTurn, hruns, hw, hst, hb, hfind]

/-! ### The entry -/

/-- R113: a divide is abandoned ahead of the entry. -/
theorem Trapping.undivided {id : Nat} {s p : State} (hp : Trapping id s p) :
    Trapping id s (p.updThr id ({ · with div := none })) where
  only := hp.only.trans ((setThr_only p id _).mono (by simp))
  running := by rw [State.updThr_thr_same]; exact hp.running
  w := by rw [State.updThr_thr_same]; exact hp.w
  status := by rw [State.updThr_thr_same]; exact hp.status
  vbase := by rw [State.updThr_thr_same]; exact hp.vbase
  slim := by rw [State.updThr_thr_same]; exact hp.slim
  stepping := by rw [State.updThr_thr_same]; exact hp.stepping
  others := fun j hj => by rw [State.updThr_thr, if_neg hj]; exact hp.others j hj
  engines := hp.engines
  seen := hp.seen.trans (SameSeen.of_same rfl rfl)

/-- The events that have reached the engine stand through an entry. -/
theorem entry_ev (s : State) (id index : Nat) (trap : Bool) (w0 w1 w2 savedPc : Word) (hid : id < 256) (hf : ErrorFree s)
    (hl : LocalFits (id / 16) s) (ht : s.twin (id / 16) = false) (hfit : s.frameFits id = true) :
    ((s.entry id index trap w0 w1 w2 savedPc).thr id).ev = (s.thr id).ev := by
  obtain ⟨halign, hlow, hhigh⟩ := frameFits_place hfit
  have hs := (writeWords_bytes (id / 16) _ (frameWords (s.thr id) savedPc) 7 s (by omega) hf hl ht halign hlow (by omega)).1
  have hthr := State.thr_of_threads s _ (hs.only.threads (by simp)) id
  obtain ⟨u, w, w', bad, bad', hread, hfill⟩ := fill_fetches
    ((writeWords (id / 16) ((s.thr id).rd 14 - 32).toNat (frameWords (s.thr id) savedPc) 7 s).updThr id fun t =>
      entered ((s.thr id).rd 14 - 32) (pcOf ((s.thr id).vbase + word (4 * index)))
        (setFld (setBit t.status (if trap then 22 else 23) true) 16 6 index) w0 w1 w2 t) id
    (pcOf ((s.thr id).vbase + word (4 * index))) true
  rw [entry_eq, hfill, State.updThr_thr_same, State.thr_of_threads _ u (hread.only.threads (by simp [memoryParts])),
    State.updThr_thr_same, hthr]
  rfl

/-- The state `c` in which the event at input `k` of thread `id` is consumed, ahead of the entry of its interrupt. -/
structure Interrupted (id k : Nat) (e : Ev) (s c : State) : Prop where
  only : OnlyIn [.engines, .threads, .hinge] s c
  w : (c.thr id).w = (s.thr id).w
  status : (c.thr id).status = (s.thr id).status
  vbase : (c.thr id).vbase = (s.thr id).vbase
  slim : (c.thr id).slim = (s.thr id).slim
  stepping : (c.thr id).stepping = (s.thr id).stepping
  ev : tabFind (c.thr id).ev k = none
  notes : c.hinge.notes = s.hinge.notes ++ [⟨id, k, e.ts⟩]
  others : OtherThreads id s c
  engines : ∀ j, SameEngine (s.eng j) (c.eng j)

/-- R213: a thread that runs consumes the event of its interrupt. -/
theorem Begun.interrupted {id : Nat} {s p : State} (hp : Begun id s p) (k : Nat) (e : Ev) :
    Interrupted id k e s ((p.updThr id ({ · with div := none })).consume id k e) := by
  have hq := hp.trapping.undivided
  have hhinge : (p.updThr id ({ · with div := none })).hinge = s.hinge := hp.hinge
  generalize p.updThr id ({ · with div := none }) = q at hq hhinge
  have hthr : (q.consume id k e).thr id = { q.thr id with ev := tabErase (q.thr id).ev k } :=
    State.updThr_thr_same q id fun t => { t with ev := tabErase t.ev k }
  refine ⟨?_, ?_, ?_, ?_, ?_, ?_, ?_, ?_, fun j hj => ?_, hq.engines⟩
  · exact ((hq.only.mono (by simp)).trans ((updThr_only q id _).mono (by simp))).trans ((setHinge_only _ _).mono (by simp))
  · rw [hthr]; exact hq.w
  · rw [hthr]; exact hq.status
  · rw [hthr]; exact hq.vbase
  · rw [hthr]; exact hq.slim
  · rw [hthr]; exact hq.stepping
  · rw [hthr, tabFind_tabErase, if_pos rfl]
  · show q.hinge.notes ++ _ = _
    rw [hhinge]
  · exact (updThr_others q id (fun t => { t with ev := tabErase t.ev k }) j hj).trans (hq.others j hj)

section

variable {id k : Nat} {e : Ev} {s c : State} (hc : Interrupted id k e s c)
include hc

theorem Interrupted.rd (r : Reg) : (c.thr id).rd r = (s.thr id).rd r := rd_of_w hc.w r

theorem Interrupted.reg (a : Nat) : c.reg a = s.reg a := State.reg_of_regs s c (hc.only.regs (by simp)) a

theorem Interrupted.frameFits : c.frameFits id = s.frameFits id := by simp only [State.frameFits, hc.rd, hc.slim, hc.reg]

end

/-- R149, R150: the interrupt of a thread that does not step, where the frame fits. -/
theorem Begun.takes_interrupt {id k : Nat} {e : Ev} {s p : State} (hp : Begun id s p) (hid : id < 256) (hf : ErrorFree s)
    (hw : s.twin (id / 16) = false) (hm : mergeForm s = true) (hfit : s.frameFits id = true)
    (hstep : (s.thr id).stepping = false) : ∃ c, Interrupted id k e s c
      ∧ EnteredAt id (0x20 + k) (setFld (setBit (c.thr id).status 23 true) 16 6 (0x20 + k)) (report k e) 0 (s.thr id).pc
        (s.thr id).pc c (p.takeBoundary id (.interrupt k e))
      ∧ ((p.takeBoundary id (.interrupt k e)).thr id).ev = (c.thr id).ev := by
  have hq := hp.trapping.undivided
  have hqpc : ((p.updThr id ({ · with div := none })).thr id).pc = (s.thr id).pc := by
    rw [State.updThr_thr_same]; exact hp.pc
  have hc := hp.interrupted k e
  have hcf := hf.of_only hc.only (by simp) (by simp)
  have hcl : LocalFits (id / 16) _ := fun m h => localFits_of_mergeForm hm (id / 16) m ((hc.engines _).2.1 ▸ h)
  have hcw := (congrArg (bit · (16 + id / 16 / 2)) (hc.reg aTwin)).trans hw
  have hentered := entry_enteredAt _ id (0x20 + k) false (report k e) 0 (s.thr id).pc (s.thr id).pc hid hcf hcl hcw
    (hc.frameFits.trans hfit)
  have hev := entry_ev _ id (0x20 + k) false (report k e) 0 (s.thr id).pc (s.thr id).pc hid hcf hcl hcw (hc.frameFits.trans hfit)
  have htakes : (p.updThr id ({ · with div := none })).takeInt id k e =
      ((p.updThr id ({ · with div := none })).consume id k e).entry id (0x20 + k) false (report k e) 0 (s.thr id).pc
        (s.thr id).pc := by
    simp only [State.takeInt, leaveWait_running hq.running, hq.frameFits, hfit, hqpc, if_true]
  have hboundary : p.takeBoundary id (.interrupt k e) = (p.updThr id ({ · with div := none })).takeInt id k e := by
    simp only [State.takeBoundary, State.stepEnd, htakes, hentered.stepping, hc.stepping, hstep, Bool.false_eq_true, if_false]
  rw [hboundary, htakes]
  exact ⟨_, hc, hentered, hev⟩

theorem localNat_lt (s : State) (k a n : Nat) : localNat s k a n < 256 ^ n := by
  induction n generalizing a with
  | zero => exact Nat.one_pos
  | succ n ih =>
    have hbyte := (localByte s k a).isLt
    have htail := ih (a + 1)
    rw [localNat, Nat.pow_succ]
    omega

/-- A word that loads see, as a number. -/
theorem localNat_of_word {s : State} {k a : Nat} {v : Word} (h : v = BitVec.ofNat 32 (localNat s k a 4)) :
    localNat s k a 4 = v.toNat := by
  rw [h, BitVec.toNat_ofNat]
  exact (Nat.mod_eq_of_lt (localNat_lt s k a 4)).symm

/-- The first two words of the frame of an entry (Table 5.2). -/
theorem EnteredAt.saved {id index : Nat} {status w0 w1 w2 savedPc : Word} {s t : State}
    (h : EnteredAt id index status w0 w1 w2 savedPc s t) :
    localNat t (id / 16) ((s.thr id).rd 14 - 32).toNat 4 = savedPc.toNat
      ∧ localNat t (id / 16) (((s.thr id).rd 14 - 32).toNat + 4) 4 = (s.thr id).status.toNat := by
  have hwords (i : Nat) (hi : i < 7) := congrArg (fun ws : List Word => ws.getD i 0) h.frame
  exact ⟨localNat_of_word (hwords 0 (by omega)), localNat_of_word (hwords 1 (by omega))⟩

/-- R149 to R151, R213: what the entry of an interrupt leaves, as the thread was before its boundary. -/
theorem Interrupted.entered {id k : Nat} {e : Ev} {s c s' : State} (hi : Interrupted id k e s c)
    (hq : EnteredAt id (0x20 + k) (setFld (setBit (c.thr id).status 23 true) 16 6 (0x20 + k)) (report k e) 0 (s.thr id).pc
      (s.thr id).pc c s') (hev : (s'.thr id).ev = (c.thr id).ev) :
    (s'.thr id).pc = pcOf ((s.thr id).vbase + word (4 * (0x20 + k)))
      ∧ (s'.thr id).status = setFld (setBit (s.thr id).status 23 true) 16 6 (0x20 + k)
      ∧ (s'.thr id).rd 14 = (s.thr id).rd 14 - 32 ∧ (s'.thr id).rd 0 = report k e ∧ (s'.thr id).rd 1 = 0
      ∧ (s'.thr id).rd 2 = (s.thr id).pc ∧ OtherRegs id [0, 1, 2, 14] s s' ∧ tabFind (s'.thr id).ev k = none
      ∧ s'.hinge.notes = s.hinge.notes ++ [⟨id, k, e.ts⟩]
      ∧ localNat s' (id / 16) ((s.thr id).rd 14 - 32).toNat 4 = (s.thr id).pc.toNat
      ∧ localNat s' (id / 16) (((s.thr id).rd 14 - 32).toNat + 4) 4 = (s.thr id).status.toNat
      ∧ MemoryOutside (engKey (id / 16) 0x10000) 0x4000 s s' ∧ ThreadsBut [id] s s' := by
  obtain ⟨hpc, hstatus⟩ := hq.saved
  rw [hi.rd] at hpc hstatus
  rw [hi.status] at hstatus
  refine ⟨hi.vbase ▸ hq.pc, hi.status ▸ hq.status, (hq.rd 14).trans ?_, hq.rd 0, hq.rd 1, hq.rd 2, fun r hr => ?_,
    hev ▸ hi.ev, ?_, hpc, hstatus, fun a ha => (hq.memory a ha).trans (congrArg (readByte · a) (hi.only.mem (by simp))),
    fun j hj => ?_⟩
  · rw [hi.rd]
    rfl
  · simp only [List.mem_cons, List.not_mem_nil, or_false, not_or] at hr
    obtain ⟨h0, h1, h2, h14⟩ := hr
    exact (hq.rd r).trans (by rw [if_neg h2, if_neg h1, if_neg h0, if_neg h14, hi.rd])
  · rw [hq.only.hinge (by simp), hi.notes]
  · have hne : j ≠ id := by simpa using hj
    exact (hq.others j hne).trans (hi.others j hne)

end Sys2Proof

/-! SUPPORT. O34: the watchdog (R161), and the obligation. -/

namespace Sys2Proof

open Machine

/-- R161: a watchdog that counts in a running island is due at the end of its period. -/
theorem exec_wdog_due {s : State} {eng thr : Fin 16} {c : Nat} (hrun : s.running = true)
    (hfrom : (s.thr (16 * eng.val + thr.val)).wdFrom = some c) (hwdt : s.wdt (16 * eng.val + thr.val) ≠ 0)
    (hdue : (s.thr (16 * eng.val + thr.val)).wdDue = false) (hcount : (s.thr (16 * eng.val + thr.val)).st.counting = true)
    (hon : s.islandOn ((16 * eng.val + thr.val) / 16) = true) : exec (.wdog eng thr) s = .next ((s.atCycle
      (c + 2 * (1000 * 4 ^ (s.wdt (16 * eng.val + thr.val) - 1) - (s.thr (16 * eng.val + thr.val)).wdAcc))).updThr
        (16 * eng.val + thr.val) ({ · with wdDue := true })) := by
  show execWdog eng thr s = _
  simp [execWdog, hrun, State.wdExpire, hfrom, hwdt, hdue, hcount, hon, wdPeriod]

/-- Settles O34: a delivery latches its event or completes a WAITE, the oldest note lands, a READY thread enters, and the watchdog
falls due. -/
theorem threadEvents : Obligations.ThreadEvents := by
  unfold Obligations.ThreadEvents
  intro eng thr k s id t
  have hdiv : id / 16 = eng.val := by have := thr.isLt; simp only [id]; omega
  have hid : id < 256 := by have := thr.isLt; have := eng.isLt; simp only [id]; omega
  refine ⟨fun e hrun he hon hstop hev hnotes => ?_, fun ts rest hrun hnotes hmissed => ?_,
    fun e hruns hw hst hstep hb ho hfit hm hc => ?_, fun c hrun hfrom hwdt hdue hcount hon => ?_⟩
  · have hdeliver : exec (.eventDelivery eng thr k) s = .next (s.deliverEvent id k.val) := by
      show execEventDelivery eng thr k s = _
      rw [execEventDelivery, if_pos hrun]
    have hon' : s.islandOn (id / 16) = true := hdiv ▸ hon
    have htaken := deliverEvent_taken he hon' (hdiv ▸ hstop) hev hnotes
    refine ⟨fun hin => ⟨_, hdeliver, ?_⟩, fun rd hst hwait hnone harmed hien =>
      ⟨_, hdeliver, deliverEvent_completes htaken hon' hst hwait hnone harmed hien⟩⟩
    have hthr := State.updThr_thr_same s id fun t => { t with ev := tabSet t.ev k.val e }
    rw [htaken, tryWaite_unwaiting (by rw [hthr]; exact hin)]
    exact ⟨hthr, fun j hj => updThr_others s id _ j (by simpa using hj), updThr_only s id _⟩
  · refine ⟨s.landNote id, ?_, ?_⟩
    · show execConsumeNote eng thr s = _
      rw [execConsumeNote, if_pos hrun]
    · rw [landNote_first hnotes hmissed]
      exact ⟨rfl, setHinge_only s _⟩
  · obtain ⟨b, hbid, hturn⟩ := entryTurn_ready hruns hw hst hb ho
    have hp := takePosition_begun s b
    rw [hbid] at hp
    obtain ⟨c, hi, hq, hev⟩ := hp.takes_interrupt (k := k.val) (e := e) hid hc.errorFree (by rw [hdiv]; exact hw) hm hfit hstep
    have hentered := hi.entered hq hev
    rw [hdiv] at hentered
    exact ⟨_, congrArg Host.Outcome.next hturn, hentered⟩
  · have hu := pass_only s (c + 2 * (1000 * 4 ^ (s.wdt id - 1) - t.wdAcc) - s.cycle)
    have hthr (j : Nat) := State.thr_of_threads _ _ (hu.threads (by simp [timeParts])) j
    refine ⟨_, exec_wdog_due hrun hfrom hwdt hdue hcount (by rw [hdiv]; exact hon), ?_, fun j hj => ?_, updThr_only _ id _⟩
    · exact (State.updThr_thr_same _ id _).trans (congrArg (fun t : Thread => { t with wdDue := true }) (hthr id))
    · exact (updThr_others _ id _ j (by simpa using hj)).trans (hthr j)

end Sys2Proof

/-! SUPPORT. O28: a thread halted in a WAITE whose event has become one that WAITE reports. -/

namespace Sys2Proof

open Machine

/-- Thread 1 of engine 0 is halted in the WAITE at 0x100. Its armed input 0 holds an event and is no interrupt input. -/
def waiteHalted : State :=
  { State.reset with
    engines := [(0, { power := .on })]
    threads := [(1, { st := .halted, hprev := .waiting, pc := 0x100, wait := .event 5, armed := 1
                      ev := [(0, ⟨77, 5, false, false⟩)] })]
    sys := { mode := .preparation } }

/-- Thread 1 of engine 0 comes to that WAITE with input 0 an interrupt input, at which the fabric holds the event. -/
def waiteAhead : State :=
  { State.reset with
    regs := [(aEng 0 0x20, 0x80), (aThcfg 0 1, 1)]
    engines := [(0, { power := .on })]
    threads := [(1, { st := .ready, pc := 0x100, armed := 1 })]
    hinge := { inputs := [(4, ⟨77, 5, false, false⟩)] }
    sys := { mode := .preparation } }

/-- The state that the commands leave, one after the other. -/
def afterAll : List Instr → State → Option State
  | [], s => some s
  | c :: cs, s => match exec c s with
    | .next t => afterAll cs t
    | _ => none

/-- The thread of `waiteAhead` waits, debug halts it, the event arrives, and the IEN bit is cleared: that is the thread of
`waiteHalted`. -/
theorem waiteHalted_reached : (afterAll [.waite ⟨0, 1, 0, 0⟩ 5, .dbgHalt 290 0 2, .eventDelivery 0 1 0,
    .registerWrite 290 (word (aThcfg 0 1)) 0] waiteAhead).map (fun s => s.thr 1) = some (waiteHalted.thr 1) := by
  decide +kernel

/-- Debug's write of DBG_RUN for that thread lands. -/
theorem waiteHalted_lands : Lands 290 0x500F3104 2 waiteHalted where
  runs := rfl
  issues := by decide +kernel
  still := fun h => absurd h (by unfold PadWindow; decide)
  alone := fun h => absurd h (by decide)
  settled := ⟨rfl, rfl⟩
  window := by decide +kernel
  may := by decide +kernel
  island := by decide +kernel
  free := by decide +kernel
  first := rfl
  keeper := fun h => absurd h (by decide)

/-- The resumed WAITE takes the event (R138), and its thread goes on with the word after it. -/
theorem waiteHalted_goes_on : ∃ t, exec (.dbgRun 290 0 2) waiteHalted = .next t ∧ (t.thr 1).pc = 0x104 :=
  ⟨_, rfl, by decide +kernel⟩

/-- Refutes O28: its clause on DBG_RUN has every thread that resumes keep its pc, whatever HPREV is, and so has its clause on
FREEZE back at 0. A thread that resumes into a WAITE takes an event that its armed input holds and goes on with the next word
(R138), in `waiteHalted` from 0x100 to 0x104. The block comes to such a thread (`waiteHalted_reached`): an event that arrives
while the thread is halted completes no WAITE at an interrupt input (R145), and clearing the IEN bit then does not try the wait
(log entry 117). -/
theorem not_debug : ¬ Obligations.Debug := by
  unfold Obligations.Debug
  intro h
  obtain ⟨-, -, hrun, -⟩ := h 290 0 1 0 2 waiteHalted
  obtain ⟨t, he, hresumes, -⟩ := hrun waiteHalted_lands
  obtain ⟨-, hpc, -⟩ := hresumes (by decide +kernel) (by decide) rfl
  obtain ⟨u, hu, hnext⟩ := waiteHalted_goes_on
  obtain rfl : u = t := Host.Outcome.next.inj (hu.symm.trans he)
  exact absurd (hnext.symm.trans hpc) (by decide)

end Sys2Proof

/-! SUPPORT. The forms of the state (O60): memories, profiles, images and merge entries in canonical form, and how a step is put
together. For each function `f` of the model that leaves a state, one lemma `InForm.f` says that it keeps the forms; its proof
follows the body of `f`, a call of a lemma for each call of a function. -/

namespace Sys2Proof

open Machine

/-! ### Ranges of a memory in canonical form -/

theorem tabSorted_append {α : Type} {l m : Tab α} (hl : tabSorted l = true) (hm : tabSorted m = true)
    (h : ∀ x ∈ l, ∀ y ∈ m, x.1 < y.1) : tabSorted (l ++ m) = true := by
  induction l with
  | nil => exact hm
  | cons c l ih =>
    obtain ⟨hlow, hl⟩ := (tabSorted_cons c.1 c.2 l).1 hl
    refine (tabSorted_cons c.1 c.2 (l ++ m)).2 ⟨fun x hx => ?_, ih hl fun x hx => h x (List.mem_cons_of_mem c hx)⟩
    obtain hx | hx := List.mem_append.1 hx
    · exact hlow x hx
    · exact h c List.mem_cons_self x hx

theorem tabSorted_map_key {α : Type} {l : Tab α} (f : Nat → Nat) (hl : tabSorted l = true)
    (h : ∀ x ∈ l, ∀ y ∈ l, x.1 < y.1 → f x.1 < f y.1) : tabSorted (l.map fun c => (f c.1, c.2)) = true := by
  induction l with
  | nil => rfl
  | cons c l ih =>
    obtain ⟨hlow, hl⟩ := (tabSorted_cons c.1 c.2 l).1 hl
    refine (tabSorted_cons (f c.1) c.2 _).2 ⟨fun x hx => ?_, ih hl fun x hx y hy =>
      h x (List.mem_cons_of_mem c hx) y (List.mem_cons_of_mem c hy)⟩
    obtain ⟨y, hy, rfl⟩ := List.mem_map.1 hx
    exact h c List.mem_cons_self y (List.mem_cons_of_mem c hy) (hlow y hy)

theorem wf_append {l m : Memory} (hl : Memory.wf l = true) (hm : Memory.wf m = true) (h : ∀ x ∈ l, ∀ y ∈ m, x.1 < y.1) :
    Memory.wf (l ++ m) = true := by
  rw [Memory.wf_def] at hl hm ⊢
  exact ⟨tabSorted_append hl.1 hm.1 h, fun c hc => (List.mem_append.1 hc).elim (hl.2 c) (hm.2 c)⟩

theorem wf_map_key {m : Memory} (f : Nat → Nat) (hm : Memory.wf m = true)
    (h : ∀ x ∈ m, ∀ y ∈ m, x.1 < y.1 → f x.1 < f y.1) : Memory.wf (m.map fun c => (f c.1, c.2)) = true := by
  rw [Memory.wf_def] at hm ⊢
  refine ⟨tabSorted_map_key f hm.1 h, fun c hc => ?_⟩
  obtain ⟨x, hx, rfl⟩ := List.mem_map.1 hc
  exact hm.2 x hx

theorem wf_loadRange {m cells : Memory} {lo n : Nat} (hm : Memory.wf m = true) (hc : Memory.wf cells = true) :
    Memory.wf (loadRange m lo n cells) = true := by
  have hmid := wf_map_key (lo + ·) (Memory.wf_filter cells (fun c => decide (c.1 < n)) hc) fun _ _ _ _ h => Nat.add_lt_add_left h lo
  refine wf_append (wf_append (Memory.wf_filter m _ hm) hmid fun x hx y hy => ?_) (Memory.wf_filter m _ hm) fun x hx y hy => ?_
  · obtain ⟨z, hz, rfl⟩ := List.mem_map.1 hy
    have := (List.mem_filter.1 hx).2
    simp only [decide_eq_true_eq] at this ⊢
    omega
  · have hy := (List.mem_filter.1 hy).2
    obtain hx | hx := List.mem_append.1 hx
    · have hx := (List.mem_filter.1 hx).2
      simp only [decide_eq_true_eq] at hx hy
      omega
    · obtain ⟨z, hz, rfl⟩ := List.mem_map.1 hx
      have hz := (List.mem_filter.1 hz).2
      simp only [decide_eq_true_eq] at hy hz ⊢
      omega

theorem wf_saveRange {m : Memory} {lo n : Nat} (hm : Memory.wf m = true) : Memory.wf (saveRange m lo n) = true := by
  refine wf_map_key (· - lo) (Memory.wf_filter m _ hm) fun x hx y _ h => ?_
  have hx := (List.mem_filter.1 hx).2
  simp only [Bool.and_eq_true, decide_eq_true_eq] at hx ⊢
  omega

theorem forall_mem_tabSet {α : Type} {P : α → Bool} {l : Tab α} {k : Nat} {v : α} (h : ∀ x ∈ l, P x.2 = true)
    (hv : P v = true) : ∀ x ∈ tabSet l k v, P x.2 = true := by
  intro x hx
  obtain rfl | hx := mem_tabSet l k v x hx
  · exact hv
  · exact h x hx

/-! ### Profiles in canonical form -/

theorem profileForm_iff (p : Profile) : profileForm p = true ↔
    Memory.wf p.ward = true ∧ Memory.wf p.routes = true ∧ ∀ x ∈ p.images, imageForm x.2 = true := by
  simp [profileForm, and_assoc]

theorem imageForm_image {p : Profile} {k : Nat} {x : EngImage} (hp : profileForm p = true) (hx : p.image k = some x) :
    imageForm x = true := by
  obtain ⟨-, -, hi⟩ := (profileForm_iff p).1 hp
  unfold Profile.image at hx
  split at hx
  · exact hi _ (mem_of_tabFind _ _ x hx)
  · exact hi _ (mem_of_tabFind _ _ x hx)

/-! ### The forms and what they speak of -/

/-- The forms of the state: its memories, stored tables and images in canonical form, its merge entries in theirs. -/
def InForm (s : State) : Prop := memoryForm s = true ∧ mergeForm s = true

/-- The merge entries of engine `k` have their form. -/
def EntriesFit (k : Nat) (e : Engine) : Prop := e.localMerge.all localForm = true ∧ e.farMerge.all (farForm k) = true

theorem EntriesFit.dropLocal {k : Nat} {e : Engine} (h : EntriesFit k e) : EntriesFit k { e with localMerge := none } := ⟨rfl, h.2⟩

theorem EntriesFit.dropFar {k : Nat} {e : Engine} (h : EntriesFit k e) : EntriesFit k { e with farMerge := none } := ⟨h.1, rfl⟩

theorem inForm_iff (s : State) : InForm s ↔ Memory.wf s.mem = true ∧ (∀ x ∈ s.nv.profiles, profileForm x.2 = true)
    ∧ (∀ x ∈ s.upd.extents, imageForm x.2 = true) ∧ (∀ c, s.upd.commit = some c → ∀ x ∈ c.2.2, imageForm x.2 = true)
    ∧ ∀ e ∈ s.engines, EntriesFit e.1 e.2 := by
  simp [InForm, memoryForm, mergeForm, EntriesFit, Option.all_eq_true, and_assoc]

variable {s t : State}

theorem InForm.wf (h : InForm s) : Memory.wf s.mem = true := ((inForm_iff s).1 h).1

/-- A change of parts that hold neither a memory nor a merge entry. -/
theorem InForm.beside {cycle tb corrections regs ecc threads hinge timers pads cvts tum sys nowh lasth chain chans scan shk kpr
    agent lrp tap shTurn reply free pins same clamps pending} (h : InForm s) :
    InForm { cycle, tb, corrections, regs, ecc, threads, hinge, timers, pads, cvts, tum, sys, nowh, lasth, chain, chans, scan,
             shk, kpr, agent, lrp, tap, shTurn, reply, free, pins, same, clamps, pending
             mem := s.mem, engines := s.engines, nv := s.nv, upd := s.upd } := h

/-- A change of the NV store beside its profiles, with a change of such parts. -/
theorem InForm.besideNv {cycle tb corrections regs ecc threads hinge timers pads cvts tum sys nowh lasth chain chans scan shk kpr
    agent lrp tap shTurn reply free pins same clamps pending formatted rawcnt live rings journal orders} (h : InForm s) :
    InForm { cycle, tb, corrections, regs, ecc, threads, hinge, timers, pads, cvts, tum, sys, nowh, lasth, chain, chans, scan,
             shk, kpr, agent, lrp, tap, shTurn, reply, free, pins, same, clamps, pending
             mem := s.mem, engines := s.engines, upd := s.upd
             nv := { formatted, rawcnt, live, rings, journal, orders, profiles := s.nv.profiles } } := h

/-- A change of the stager beside its extents, with a change of such parts. -/
theorem InForm.besideUpd {cycle tb corrections regs ecc threads hinge timers pads cvts tum sys nowh lasth chain chans scan shk kpr
    agent lrp tap shTurn reply free pins same clamps pending state header cover sealReq profile armed due verdict result
    undecided version actTime timeh} (h : InForm s) :
    InForm { cycle, tb, corrections, regs, ecc, threads, hinge, timers, pads, cvts, tum, sys, nowh, lasth, chain, chans, scan,
             shk, kpr, agent, lrp, tap, shTurn, reply, free, pins, same, clamps, pending
             mem := s.mem, engines := s.engines, nv := s.nv
             upd := { state, header, cover, sealReq, profile, armed, due, verdict, result, undecided, version, actTime, timeh
                      extents := s.upd.extents, commit := s.upd.commit } } := h

theorem InForm.profiles (h : InForm s) : ∀ x ∈ s.nv.profiles, profileForm x.2 = true := ((inForm_iff s).1 h).2.1

theorem InForm.extents (h : InForm s) : ∀ x ∈ s.upd.extents, imageForm x.2 = true := ((inForm_iff s).1 h).2.2.1

theorem InForm.commit (h : InForm s) : ∀ c, s.upd.commit = some c → ∀ x ∈ c.2.2, imageForm x.2 = true :=
  ((inForm_iff s).1 h).2.2.2.1

/-- A change of the NV store, with a change of such parts. -/
theorem InForm.setProfiles {cycle tb corrections regs ecc threads hinge timers pads cvts tum sys nowh lasth chain chans scan shk kpr
    agent lrp tap shTurn reply free pins same clamps pending formatted rawcnt live rings journal orders profiles} (h : InForm s)
    (hp : ∀ x ∈ profiles, profileForm x.2 = true) :
    InForm { cycle, tb, corrections, regs, ecc, threads, hinge, timers, pads, cvts, tum, sys, nowh, lasth, chain, chans, scan,
             shk, kpr, agent, lrp, tap, shTurn, reply, free, pins, same, clamps, pending
             mem := s.mem, engines := s.engines, upd := s.upd
             nv := { formatted, rawcnt, live, rings, journal, orders, profiles } } := by
  rw [inForm_iff] at h ⊢
  exact ⟨h.1, hp, h.2.2⟩

/-- A change of the stager, with a change of such parts. -/
theorem InForm.setUpd {cycle tb corrections regs ecc threads hinge timers pads cvts tum sys nowh lasth chain chans scan shk kpr
    agent lrp tap shTurn reply free pins same clamps pending upd} (h : InForm s)
    (hx : ∀ x ∈ upd.extents, imageForm x.2 = true) (hc : ∀ c, upd.commit = some c → ∀ x ∈ c.2.2, imageForm x.2 = true) :
    InForm { cycle, tb, corrections, regs, ecc, threads, hinge, timers, pads, cvts, tum, sys, nowh, lasth, chain, chans, scan,
             shk, kpr, agent, lrp, tap, shTurn, reply, free, pins, same, clamps, pending, upd
             mem := s.mem, engines := s.engines, nv := s.nv } := by
  rw [inForm_iff] at h ⊢
  exact ⟨h.1, h.2.1, hx, hc, h.2.2.2.2⟩

/-! ### Memory -/

/-- A change of memory, with a change of parts that hold neither a memory nor a merge entry. -/
theorem InForm.memory {cycle tb corrections regs ecc threads hinge timers pads cvts tum sys nowh lasth chain chans scan shk kpr
    agent lrp tap shTurn reply free pins same clamps pending mem} (h : InForm s)
    (hm : Memory.wf s.mem = true → Memory.wf mem = true) :
    InForm { cycle, tb, corrections, regs, ecc, threads, hinge, timers, pads, cvts, tum, sys, nowh, lasth, chain, chans, scan,
             shk, kpr, agent, lrp, tap, shTurn, reply, free, pins, same, clamps, pending, mem
             engines := s.engines, nv := s.nv, upd := s.upd } := by
  rw [inForm_iff] at h ⊢
  exact ⟨hm h.1, h.2⟩

/-! ### Engines -/

theorem InForm.entries (h : InForm s) (k : Nat) : EntriesFit k (s.eng k) := by
  unfold State.eng tabGet
  cases hk : tabFind s.engines k with
  | none => exact ⟨rfl, rfl⟩
  | some e => exact ((inForm_iff s).1 h).2.2.2.2 _ (mem_of_tabFind _ k e hk)

theorem InForm.setEng {k : Nat} {e : Engine} (h : InForm s) (hk : EntriesFit k e) : InForm (s.setEng k e) := by
  rw [inForm_iff] at h ⊢
  refine ⟨h.1, h.2.1, h.2.2.1, h.2.2.2.1, fun x hx => ?_⟩
  obtain rfl | hx := mem_tabSet s.engines k e x hx
  · exact hk
  · exact h.2.2.2.2 x hx

theorem InForm.updEng {k : Nat} {f : Engine → Engine} (h : InForm s)
    (hf : ∀ e, EntriesFit k e → EntriesFit k (f e) := by exact fun _ h => h) : InForm (s.updEng k f) :=
  h.setEng (hf _ (h.entries k))

/-! ### How a step is put together -/

theorem InForm.ite {a b : State} {c : Prop} {_ : Decidable c} (h : InForm s) (ha : InForm s → InForm a)
    (hb : InForm s → InForm b) : InForm (if c then a else b) := by
  split
  · exact ha h
  · exact hb h

theorem InForm.when {c : Prop} {_ : Decidable c} (h : InForm s) (ht : InForm s → InForm t) : InForm (if c then t else s) :=
  h.ite ht id

theorem InForm.unless {c : Prop} {_ : Decidable c} (h : InForm s) (ht : InForm s → InForm t) : InForm (if c then s else t) :=
  h.ite id ht

theorem InForm.foldl {α : Type} {f : State → α → State} {l : List α} (h : InForm s)
    (hf : ∀ t a, InForm t → InForm (f t a)) : InForm (l.foldl f s) :=
  foldl_keeps InForm f l s h hf

theorem InForm.elim {α : Type} {o : Option α} {f : α → State} (h : InForm s) (hf : ∀ x, InForm (f x)) :
    InForm (o.elim s f) := by
  cases o with
  | none => exact h
  | some x => exact hf x

/-! A state that comes with a result. -/

section

variable {α β : Type} {p q : State × β}

theorem InForm.iteFst {c : Prop} {_ : Decidable c} (h : InForm s) (hp : InForm s → InForm p.1) (hq : InForm s → InForm q.1) :
    InForm (if c then p else q).1 := by
  split
  · exact hp h
  · exact hq h

theorem InForm.foldlFst {f : State × β → α → State × β} {l : List α} (h : InForm p.1)
    (hf : ∀ q a, InForm q.1 → InForm (f q a).1) : InForm (l.foldl f p).1 := by
  induction l generalizing p with
  | nil => exact h
  | cons a l ih => exact ih (hf p a h)

theorem InForm.of_eq {x : β} (h : InForm p.1) (he : p = (t, x)) : InForm t := by
  rw [he] at h
  exact h

end

end Sys2Proof

/-! SUPPORT. The forms of the state (O60): registers, threads, beats. -/

namespace Sys2Proof

open Machine

variable {s t : State}

/-! ### Shared operations -/

theorem InForm.setThr {id : Nat} {t : Thread} (h : InForm s) : InForm (s.setThr id t) := h.beside

theorem InForm.updThr {id : Nat} {f : Thread → Thread} (h : InForm s) : InForm (s.updThr id f) := h.setThr

theorem InForm.setTmr {t : Nat} {x : Timer} (h : InForm s) : InForm (s.setTmr t x) := h.beside

theorem InForm.updTmr {t : Nat} {f : Timer → Timer} (h : InForm s) : InForm (s.updTmr t f) := h.setTmr

theorem InForm.setPad {p : Nat} {x : Pad} (h : InForm s) : InForm (s.setPad p x) := h.beside

theorem InForm.updPad {p : Nat} {f : Pad → Pad} (h : InForm s) : InForm (s.updPad p f) := h.setPad

theorem InForm.setCvt {p : Nat} {x : Cvt} (h : InForm s) : InForm (s.setCvt p x) := h.beside

theorem InForm.updCvt {p : Nat} {f : Cvt → Cvt} (h : InForm s) : InForm (s.updCvt p f) := h.setCvt

theorem InForm.setReg {a : Nat} {v : Word} (h : InForm s) : InForm (s.setReg a v) := h.beside

theorem InForm.setRegFld {a lo n v : Nat} (h : InForm s) : InForm (s.setRegFld a lo n v) := h.setReg

theorem InForm.note {f : Same → Same} (h : InForm s) : InForm (s.note f) := h.beside

theorem InForm.noteSet {a i : Nat} (h : InForm s) : InForm (s.noteSet a i) := h.note

theorem InForm.noteCount {a lo k : Nat} (h : InForm s) : InForm (s.noteCount a lo k) := h.note

theorem InForm.noteWrites {id : Nat} {as : List Nat} (h : InForm s) : InForm (s.noteWrites id as) := h.note

theorem InForm.setFlag {a i : Nat} (h : InForm s) : InForm (s.setFlag a i) := h.setReg.noteSet

theorem InForm.clearFlag {a i : Nat} (h : InForm s) : InForm (s.clearFlag a i) := h.unless (·.setReg)

theorem InForm.armFlag {a i : Nat} (h : InForm s) : InForm (s.armFlag a i) := h.ite (·.noteSet) (·.setReg)

theorem InForm.ackFlag {a i : Nat} (h : InForm s) : InForm (s.ackFlag a i) := h.unless (·.setRegFld)

theorem InForm.count {a lo n : Nat} {k : Nat} (h : InForm s) : InForm (s.count a lo n k) := h.setRegFld.noteCount

theorem InForm.clearCount {a lo n : Nat} (h : InForm s) : InForm (s.clearCount a lo n) := h.setRegFld

theorem InForm.drawBit (h : InForm s) : InForm (s.drawBit).1 := h.beside

theorem InForm.drawNat (h : InForm s) : InForm (s.drawNat).1 := h.beside

theorem InForm.drawWord (h : InForm s) : InForm (s.drawWord).1 := h.beside

theorem InForm.raiseIn {cyc ch : Nat} {ts : Time64} {route : Bool} (h : InForm s) : InForm (s.raiseIn cyc ch ts route) := by
  refine h.unless fun h => h.ite (·.count) fun h => ?_
  dsimp only
  split
  · exact h.beside
  · exact h.beside.unless (·.setFlag.count)

theorem InForm.raise {ch : Nat} (h : InForm s) : InForm (s.raise ch) := h.raiseIn

theorem InForm.raiseLater {n ch : Nat} (h : InForm s) : InForm (s.raiseLater n ch) := h.raiseIn

theorem InForm.clamp {n : Nat} (h : InForm s) : InForm (s.clamp n) := h.unless (·.beside.count.raise)

theorem InForm.corrected {key src id bitNo : Nat} (h : InForm s) : InForm (s.corrected key src id bitNo) :=
  (h.count.noteSet.setReg.setReg.when (·.raise)).unless (·.beside)

theorem InForm.uncorrectable {key src id : Nat} {poisoned : Bool} (h : InForm s) :
    InForm (s.uncorrectable key src id poisoned) :=
  (h.count.ite (·.setFlag.noteSet) (·.noteSet.setReg.setReg)).raise

theorem InForm.readCode {key src id : Nat} (h : InForm s) : InForm (s.readCode key src id).1 :=
  h.iteFst (fun h => h) fun h =>
    h.iteFst (·.corrected) fun h =>
      h.iteFst (·.uncorrectable) fun h =>
        h.drawNat.iteFst (·.uncorrectable) fun h => h.iteFst (·.drawNat.corrected) fun h => h

theorem InForm.markCode {key : Nat} {bad : BitVec 72} (h : InForm s) : InForm (s.markCode key bad) :=
  h.beside.unless (·.clearFlag)

theorem InForm.writeCode {key v : Nat} (h : InForm s) : InForm (s.writeCode key v) :=
  (h.memory (wf_writeBytes _ _ _)).markCode

theorem InForm.mergeCode {key id : Nat} {lanes : Tab Byte} (h : InForm s) : InForm (s.mergeCode key id lanes) := by
  refine h.ite (fun h => (h.memory (wf_putLanes _ _ _)).markCode) fun h => ?_
  dsimp only
  split <;> exact (h.readCode.memory (fun hm => wf_putLanes _ _ _ (wf_writeBytes _ _ _ hm))).markCode

theorem InForm.landLanes {key id : Nat} {lanes : Tab Byte} {who : Nat} (h : InForm s) : InForm (s.landLanes key id lanes who) :=
  h.unless (·.noteWrites.mergeCode)

theorem InForm.storeIn {key n v id : Nat} (h : InForm s) : InForm (s.storeIn key n v id) := h.landLanes

theorem InForm.storeBytes {key id : Nat} {bs : List Byte} {who : Nat} (h : InForm s) : InForm (s.storeBytes key id bs who) :=
  h.foldl fun _ _ => (·.landLanes)

theorem InForm.loadIn {key n src id : Nat} (h : InForm s) : InForm (s.loadIn key n src id).1 := h.readCode

theorem InForm.loadBytes {key n src id : Nat} (h : InForm s) : InForm (s.loadBytes key n src id).1 :=
  h.foldlFst fun _ _ => (·.readCode)

theorem InForm.loseEngine {k : Nat} (h : InForm s) : InForm (s.loseEngine k) := h.memory (wf_eraseRange _ _ _)

theorem InForm.drGone {src : Source} (h : InForm s) : InForm (s.drGone src) := h.beside

theorem InForm.aonGone (h : InForm s) : InForm (s.aonGone) := h.beside

/-! ### Threads -/

theorem InForm.dropHolder {id : Nat} (h : InForm s) : InForm (s.dropHolder id) :=
  h.updEng fun e he => by split <;> exact he

theorem InForm.setSt {id : Nat} {st : ThreadState} (h : InForm s) : InForm (s.setSt id st) := h.updThr.dropHolder

theorem InForm.gateOn (h : InForm s) : InForm (s.gateOn) :=
  h.unless fun h => (h.foldl fun _ _ h => h.unless (·.updPad)).beside

theorem InForm.shkGateOff (h : InForm s) : InForm (s.shkGateOff) := h.beside

theorem InForm.gateOff (h : InForm s) : InForm (s.gateOff) := (h.when (·.shkGateOff)).beside

theorem InForm.shkGateOn (h : InForm s) : InForm (s.shkGateOn) := h.foldl fun _ _ h => h.when (·.updPad)

theorem InForm.lapGo {ms : List Nat} (h : InForm s) : InForm (s.lapGo ms) := h.beside

theorem InForm.lapHold {ms : List Nat} (h : InForm s) : InForm (s.lapHold ms) := h.beside

theorem InForm.lapMode {m : Mode} (h : InForm s) : InForm (s.lapMode m) :=
  h.unless fun h => h.ite (·.lapGo) (·.lapHold)

theorem InForm.setMode {m : Mode} (h : InForm s) : InForm (s.setMode m) :=
  ((h.lapMode.setRegFld.setFlag.when (·.clearFlag)).ite (·.beside.raise) (·.raise.beside)).when (·.raise)

theorem InForm.denyMode (h : InForm s) : InForm (s.denyMode) := h.unless (·.beside)

theorem InForm.restoreMode {q : ReqTaken} (h : InForm s) : InForm (s.restoreMode q) :=
  h.setRegFld.setRegFld.setRegFld.setRegFld.setReg.beside

theorem InForm.undoRequest (h : InForm s) : InForm (s.undoRequest) := by
  simp only [State.undoRequest]
  split
  · exact h
  · exact h.unless fun h =>
        (h.note.ite (·.denyMode) (·.setFlag)).ite (·.setRegFld) fun h => h.unless (·.restoreMode)

theorem InForm.enterSafe {cause : Nat} (h : InForm s) : InForm (s.enterSafe cause) := by
  simp only [State.enterSafe]
  split
  · exact (h.unless (·.undoRequest)).note.setFlag
  · exact ((h.unless (·.undoRequest)).note.setFlag.when (·.shkGateOn)).setMode.gateOn
  · exact ((h.unless (·.undoRequest)).note.setFlag.when (·.shkGateOn)).setMode.gateOn
  · exact ((h.unless (·.undoRequest)).note.setFlag.when (·.shkGateOn)).setMode.gateOn
  · exact ((h.unless (·.undoRequest)).note.setFlag.when (·.shkGateOn)).setMode.gateOn
  · exact (h.unless (·.undoRequest)).note

theorem InForm.govQueue {k : Nat} {powerUp start : Bool} (h : InForm s) : InForm (s.govQueue k powerUp start) :=
  h.beside

theorem InForm.queueStart {k : Nat} (h : InForm s) : InForm (s.queueStart k) := h.govQueue.setFlag

theorem InForm.gateCount {id : Nat} (h : InForm s) : InForm (s.gateCount id) := h.count.setRegFld.setFlag.raise

theorem InForm.wakeLost (h : InForm s) : InForm (s.wakeLost) := h.count.raise.when (·.enterSafe)

theorem InForm.flushLocal {k : Nat} (h : InForm s) : InForm (s.flushLocal k) := by
  simp only [State.flushLocal]
  split
  · exact h
  · exact (h.updEng fun _ he => he.dropLocal).mergeCode

theorem InForm.flushLocalAt {k a : Nat} (h : InForm s) : InForm (s.flushLocalAt k a) := h.when (·.flushLocal)

theorem InForm.imageCycles {n : Nat} (h : InForm s) : InForm (s.imageCycles n) := by
  simp only [State.imageCycles]
  split
  · exact h
  · exact h.beside

theorem InForm.flushFar {k : Nat} (h : InForm s) : InForm (s.flushFar k) := by
  simp only [State.flushFar]
  split
  · exact h
  · exact (h.imageCycles.updEng fun _ he => he.dropFar).landLanes.updThr

theorem InForm.fill {id : Nat} {a : Word} {vec : Bool} (h : InForm s) : InForm (s.fill id a vec) :=
  (h.readCode.iteFst (·.readCode) fun h => h).updThr

theorem InForm.goTo {id : Nat} {a : Word} (h : InForm s) : InForm (s.goTo id a) := h.updThr.fill

theorem InForm.snoop {k a : Nat} {v : Word} (h : InForm s) : InForm (s.snoop k a v) :=
  h.foldl fun _ _ h => h.when (·.setThr)

theorem InForm.completeWait {id : Nat} (h : InForm s) : InForm (s.completeWait id) := h.goTo.updThr

theorem InForm.wakeIsland {k : Nat} (h : InForm s) : InForm (s.wakeIsland k) :=
  h.foldl fun _ _ h => h.when (·.govQueue.setRegFld)

theorem InForm.completeWaiters {a : Nat} (h : InForm s) : InForm (s.completeWaiters a) :=
  h.beside.foldl fun _ _ h => h.when (·.wakeIsland.completeWait)

theorem InForm.freeLock {a : Nat} {mark : Bool} (h : InForm s) : InForm (s.freeLock a mark) :=
  h.beside.completeWaiters

theorem InForm.deregister {id : Nat} (h : InForm s) : InForm (s.deregister id) := h.beside

theorem InForm.deregisterAll {ids : List Nat} (h : InForm s) : InForm (s.deregisterAll ids) := h.beside

theorem InForm.holderReset {id : Nat} (h : InForm s) : InForm (s.holderReset id) :=
  (h.deregister.foldl fun _ _ => (·.freeLock)).beside

theorem InForm.resetThread {id : Nat} (h : InForm s) : InForm (s.resetThread id) :=
  ((h.foldl fun _ _ h => h.when (·.flushLocal)).when (·.flushFar)).dropHolder.holderReset.setThr.beside

theorem InForm.resetThreads {k : Nat} (h : InForm s) : InForm (s.resetThreads k) := h.foldl fun _ _ => (·.resetThread)

theorem InForm.engineReset {k : Nat} (h : InForm s) : InForm (s.engineReset k) :=
  (h.deregisterAll.foldl fun _ _ => (·.flushLocal.flushFar.resetThreads.updEng)).queueStart

theorem InForm.twinStops {k thr pos : Nat} {diff : Nat} (h : InForm s) : InForm (s.twinStops k thr pos diff) :=
  ((h.foldl fun _ _ => (·.updEng)).unless (·.noteSet.setReg)).enterSafe

theorem InForm.writeFrame {k : Nat} {a : Nat} {v : Word} (h : InForm s) : InForm (s.writeFrame k a v) :=
  h.foldl fun _ _ => (·.flushLocalAt.writeCode)

theorem InForm.entry {id index : Nat} {trap : Bool} {w0 w1 w2 savedPc : Word} (h : InForm s) :
    InForm (s.entry id index trap w0 w1 w2 savedPc) :=
  (h.foldl fun _ _ => (·.writeFrame)).updThr.fill

theorem InForm.leaveWait {id : Nat} (h : InForm s) : InForm (s.leaveWait id) := h.when (·.deregister.updThr)

theorem InForm.trapRecord {k id : Nat} {c : Trap} {pol : Nat} {dbl far vecf : Bool} {named info : Word} (h : InForm s) :
    InForm (s.trapRecord k id c pol dbl far vecf named info) :=
  h.count.ite (·.setFlag.noteSet) (·.noteSet.setReg.setReg.setReg)

theorem InForm.holdTrap {id : Nat} {c : Trap} {pol : Nat} {dbl far vecf : Bool} {named info savedPc : Word} (h : InForm s) :
    InForm (s.holdTrap id c pol dbl far vecf named info savedPc) :=
  h.leaveWait.setSt.updThr.trapRecord.raise.ite (·.engineReset) fun h => h.when (·.enterSafe)

theorem InForm.takeTrap {id : Nat} {c : Trap} {info named savedPc : Word} {far vecf : Bool} (h : InForm s) :
    InForm (s.takeTrap id c info named savedPc far vecf) := by
  simp only [State.takeTrap]
  split
  · exact h.leaveWait.count.entry
  · exact h.leaveWait.ite (·.holdTrap) (·.holdTrap)

theorem InForm.oneSided {id pos : Nat} {c : Trap} {vecf : Bool} {named info : Word} (h : InForm s) :
    InForm (s.oneSided id pos c vecf named info) := by
  refine (?_ : InForm _).twinStops.when (·.enterSafe)
  split
  · exact h.count
  · exact h.trapRecord.raise

theorem InForm.consume {id k : Nat} {e : Ev} (h : InForm s) : InForm (s.consume id k e) := h.updThr.beside

theorem InForm.takeInt {id k : Nat} {e : Ev} (h : InForm s) : InForm (s.takeInt id k e) :=
  h.leaveWait.ite (·.consume.entry) (·.holdTrap)

theorem InForm.halt {id : Nat} (h : InForm s) : InForm (s.halt id) := h.unless (·.setSt.updThr)

theorem InForm.stepEnd {id : Nat} (h : InForm s) : InForm (s.stepEnd id) := h.when (·.halt)

theorem InForm.takeBoundary {id : Nat} {b : Boundary} (h : InForm s) : InForm (s.takeBoundary id b) := by
  simp only [State.takeBoundary]
  split
  · exact h.halt
  · exact h.updThr.takeTrap.stepEnd
  · exact h.updThr.takeTrap.stepEnd
  · exact h.beside.takeTrap.stepEnd
  · exact h.updThr.takeInt.stepEnd
  · exact h.takeTrap.stepEnd
  · exact h

theorem InForm.farWake {id : Nat} (h : InForm s) : InForm (s.farWake id) := h.unless (·.updThr)

theorem InForm.deliver {id : Nat} {d : Dest} {v : Word} (h : InForm s) : InForm (s.deliver id d v) := by
  simp only [State.deliver]
  split
  · exact h.updThr
  · exact h.updThr
  · exact h.writeFrame
  · refine h.foldl fun _ _ h => ?_
    split
    · have h := h.flushLocalAt.readCode.of_eq ‹_›
      exact h.writeCode
    · have h := h.flushLocalAt.readCode.of_eq ‹_›
      exact (h.memory (wf_writeBytes _ _ _)).markCode

/-! ### Beats -/

theorem InForm.takePosition {k p t : Nat} (h : InForm s) : InForm (s.takePosition k p t) :=
  (h.note.when fun h => h.updEng fun e he => by split <;> exact he).updThr

theorem InForm.stall {id : Nat} {w : Wait} (h : InForm s) : InForm (s.stall id w) := h.ite (·.updThr) (·.setSt.updThr)

theorem InForm.done {id : Nat} {pc : Word} (h : InForm s) : InForm (s.done id pc) := h.updThr.stepEnd

/-- Where an instruction leaves a state to go on with, that state has its forms. -/
def Machine.Act.Fits : Act → Prop
  | .next s | .jump s _ | .fail s _ _ | .hold s | .within s | .stall s _ => InForm s
  | .trap _ _ | .trapAfter _ => True

theorem InForm.perform {id : Nat} {a : Act} (h : InForm s) (ha : a.Fits) : InForm (s.perform id a) := by
  cases a with
  | next t => exact InForm.done (InForm.goTo ha)
  | jump t target => exact InForm.done (InForm.goTo ha)
  | trap c info => exact h.takeTrap.done
  | fail t c info => exact InForm.done (InForm.takeTrap ha)
  | trapAfter c => exact h.takeTrap.done
  | hold t => exact InForm.done ha
  | within t => exact ha
  | stall t w => exact InForm.stall ha

theorem Machine.Act.Fits.atEnd {a : Act} (ha : a.Fits) : a.atEnd.Fits := by
  unfold Act.atEnd
  split
  case h_6 => exact ha
  all_goals exact trivial

theorem Machine.Act.Fits.ite {a b : Act} {c : Prop} {_ : Decidable c} (ha : a.Fits) (hb : b.Fits) : (if c then a else b).Fits := by
  split
  · exact ha
  · exact hb

theorem InForm.issue {id pos : Nat} {sh : Shape} {body : State → Act} (h : InForm s) (hb : (body s).Fits) :
    InForm (s.issue id pos sh body) :=
  h.ite (·.oneSided) fun h => h.ite (·.takeTrap.stepEnd) fun h => h.ite (·.stall) fun h => h.ite (·.stall) fun h =>
    h.perform (.ite hb.atEnd hb)

theorem InForm.pairDiff {b : Beat} (h : InForm s) : InForm (s.pairDiff b).1 :=
  h.iteFst (fun h => h) fun h => h.iteFst (fun h => h) fun h => h.iteFst (fun h => h) (·.drawNat)

theorem InForm.beat {b : Beat} {sh : Shape} {body : Nat → State → Act} (h : InForm s)
    (hb : ∀ id t, InForm t → (body id t).Fits) : InForm (beat b sh body s) := by
  refine h.unless fun h => ?_
  dsimp only
  split
  · exact h.takePosition.unless fun h => h.pairDiff.ite (fun h => h.issue (hb _ _ h)) fun h =>
      (h.unless fun h => h.issue (hb _ _ h)).twinStops
  · exact h.takePosition.takeBoundary
  · exact h.takePosition.takeBoundary.when (·.twinStops)

theorem InForm.advance {id : Nat} (h : InForm s) : InForm (s.advance id) := h.goTo

theorem InForm.regBeat {b : Beat} {reads : List Dest} {f : Thread → Thread} (h : InForm s) : InForm (regBeat b reads f s) :=
  h.beat fun _ _ h => h.updThr

/-! ### Arithmetic -/

theorem InForm.logic {f : Word → Word → Word} {b : Beat} {rd ra : Reg} {x : Operand} (h : InForm s) :
    InForm (Machine.logic f b rd ra x s) :=
  h.regBeat

theorem InForm.shift {k : Shift} {b : Beat} {rd ra : Reg} {x : ShiftAmount} (h : InForm s) :
    InForm (Machine.shift k b rd ra x s) :=
  h.regBeat

end Sys2Proof

/-! SUPPORT. The forms of the state (O60): routes, timers, pads, the Hinge fabric. -/

namespace Sys2Proof

open Machine

variable {s t : State}

/-! ### Timer steps -/

theorem InForm.updSlot {t i : Nat} {f : Slot → Slot} (h : InForm s) : InForm (s.updSlot t i f) := h.updTmr

theorem InForm.slotEvent {t i : Nat} (h : InForm s) : InForm (s.slotEvent t i) := h.unless (·.raiseLater)

theorem InForm.slotMatch {t i : Nat} (h : InForm s) : InForm (s.slotMatch t i) :=
  (h.updSlot.when (·.setFlag)).slotEvent

theorem InForm.afterStep {t : Nat} {wrap : Bool} (h : InForm s) : InForm (s.afterStep t wrap) :=
  (h.foldl fun _ _ h => h.ite (·.slotMatch) fun h => h.when (·.slotEvent)).unless (·.updTmr.noteSet)

theorem InForm.steps {t n : Nat} (h : InForm s) : InForm (s.steps t n) := by
  induction n generalizing s with
  | zero => exact h
  | succ n ih => exact h.unless fun h => ih h.setTmr.afterStep

theorem InForm.jumpTo {t : Nat} {new : BitVec 48} (h : InForm s) : InForm (s.jumpTo t new) :=
  h.updTmr.unless fun h => h.foldl fun _ _ h => h.when (·.slotMatch)

theorem InForm.jump {t : Nat} (h : InForm s) : InForm (s.jump t) := h.jumpTo

theorem InForm.takeSteps {t : Nat} (h : InForm s) : InForm (s.takeSteps t) := h.setTmr.when (·.updTmr.steps)

theorem InForm.cycleSteps {t : Nat} (h : InForm s) : InForm (s.cycleSteps t) := by
  refine h.takeSteps.unless fun h => ?_
  split
  · exact h.jump
  · exact h
  · exact h.unless fun h => h.ite (·.updTmr.steps) (·.updTmr)

theorem InForm.tmrStart {t : Nat} (h : InForm s) : InForm (s.tmrStart t) := h.unless (·.setTmr)

theorem InForm.tmrStepEvents {t n : Nat} (h : InForm s) : InForm (s.tmrStepEvents t n) := h.updTmr

theorem InForm.tmrStop {t : Nat} (h : InForm s) : InForm (s.tmrStop t) := h.unless (·.updTmr)

theorem InForm.tmrReloaded {t : Nat} (h : InForm s) : InForm (s.tmrReloaded t) := h.unless (·.setTmr)

theorem InForm.tmrReload {t : Nat} (h : InForm s) : InForm (s.tmrReload t) := h.updTmr.tmrReloaded

theorem InForm.captureOf {t i : Nat} {c : BitVec 48} (h : InForm s) : InForm (s.captureOf t i c).1 := by
  refine h.iteFst (fun h => h) fun h => ?_
  dsimp only
  split
  · exact h.updSlot.slotEvent
  · exact h.updSlot.slotEvent
  · exact h.setFlag

theorem InForm.capture {t i : Nat} (h : InForm s) : InForm (s.capture t i).1 := h.captureOf

theorem InForm.lfcap {t : Nat} (h : InForm s) : InForm (s.lfcap t) := h.capture

/-! ### Quiet cycles -/

theorem InForm.passBy {n : Nat} (h : InForm s) : InForm (s.passBy n) := h.unless (·.beside)

theorem InForm.setSync {b : Bool} (h : InForm s) : InForm (s.setSync b) := h.unless (·.setRegFld.raise)

theorem InForm.padUp (h : InForm s) : InForm (s.padUp) := h.beside.setSync.setRegFld

theorem InForm.passUp {n : Nat} (h : InForm s) : InForm (s.passUp n) := h.ite (·.passBy) (·.passBy.padUp.passBy)

theorem InForm.endCycle (h : InForm s) : InForm (s.endCycle) := h.foldl fun _ _ => (·.takeSteps)

theorem InForm.landLfcap {x : Nat × Nat} (h : InForm s) : InForm (s.landLfcap x) := h.passUp.beside.lfcap

theorem InForm.pass {n : Nat} (h : InForm s) : InForm (s.pass n) :=
  h.unless fun h => (h.endCycle.foldl fun _ _ => (·.landLfcap)).passUp

theorem InForm.landsAfter {id a : Nat} (h : InForm s) : InForm (s.landsAfter id a) := h.when (·.pass)

theorem InForm.atCycle {c : Nat} (h : InForm s) : InForm (s.atCycle c) := h.pass

theorem InForm.atChain {t : Time64} (h : InForm s) : InForm (s.atChain t) := h.pass

theorem InForm.deadlock (h : InForm s) : InForm (s.deadlock) := (h.when (·.pass)).unless (·.pass.beside.count.raise)

/-! ### Pads and converters -/

/-- What `State.place` does once the edge has its place: that place as a parameter, so that a proof can take it apart. -/
def Machine.State.placeAt (s : State) (p : Nat) (x : Pad) (lvl : BitVec 2) (moved : Prop) [Decidable moved] (commit : Bool)
    (k : Nat) (q : Time64 × Nat × Bool) : State :=
  let (at_, cyc, late) := q
  let x := { x with decided := some (s.cycle + k) }
  let s := if moved then s.setFlag (aPadStat p) 4 else s
  let s := if late then (s.setFlag (aPadStat p) 3).count aPadEcnt 0 16 else s
  if commit && lvl == x.finalLvl then s.setPad p { x with prev := some at_ }
  else
    let s := if s.settled then s else s.setFlag (aPadStat p) 7
    let gone := x.placed.filter fun y => decide (y.1 ≤ s.cycle)
    s.setPad p { x with prev := some at_, slvl := gone.foldl (fun _ y => y.2) x.slvl
                        placed := x.placed.filter (fun y => decide (s.cycle < y.1)) ++ [(cyc, lvl)] }

theorem place_eq_placeAt (s : State) (p : Nat) (t : Time64) (lvl : BitVec 2) (commit : Bool) :
    s.place p t lvl commit =
      s.placeAt p (s.pad p) lvl (spaced t (s.pad p).prev ≠ t) commit (s.decideIn (spaced t (s.pad p).prev))
        (s.placement (s.decideIn (spaced t (s.pad p).prev)) (spaced t (s.pad p).prev) (s.fine p)) := by
  generalize hf : State.place = f
  generalize hg : @State.placeAt = g
  delta State.place at hf
  delta State.placeAt at hg
  subst hf hg
  rfl

theorem InForm.placeAt {p : Nat} {x : Pad} {lvl : BitVec 2} {moved : Prop} [Decidable moved] {commit : Bool} {k : Nat}
    {q : Time64 × Nat × Bool} (h : InForm s) : InForm (s.placeAt p x lvl moved commit k q) :=
  ((h.when (·.setFlag)).when (·.setFlag.count)).ite (·.setPad) fun h => (h.unless (·.setFlag)).setPad

theorem InForm.place {p : Nat} {t : Time64} {lvl : BitVec 2} {commit : Bool} (h : InForm s) :
    InForm (s.place p t lvl commit) := by
  rw [place_eq_placeAt]
  exact h.placeAt

theorem InForm.placeHead {p : Nat} (h : InForm s) : InForm (s.placeHead p) := by
  simp only [State.placeHead]
  split
  · exact h
  · exact h.atCycle.pass.updPad.place

theorem InForm.psetLand {p : Nat} {lvl : BitVec 2} {off : Word} (h : InForm s) : InForm (s.psetLand p lvl off) :=
  h.ite (·.setFlag.count) fun h => h.ite (·.setFlag.count) (·.setPad)

theorem InForm.stampIn {p n : Nat} {t : Time64} (h : InForm s) : InForm (s.stampIn p n t) :=
  (h.unless (·.setFlag)).updPad

theorem InForm.storeStamp {p : Nat} {t : Time64} (h : InForm s) : InForm (s.storeStamp p t) :=
  h.ite (·.setPad) (·.setReg.setRegFld)

theorem InForm.settlePad {p : Nat} (h : InForm s) : InForm (s.settlePad p) :=
  h.unless fun h => h.updPad.foldl fun _ _ => (·.storeStamp)

theorem InForm.settlePads (h : InForm s) : InForm (s.settlePads) := h.foldl fun _ _ => (·.settlePad)

theorem InForm.edge {p : Nat} {level : Bool} {sub : BitVec 6} (h : InForm s) : InForm (s.edge p level sub) :=
  h.unless fun h => h.updPad.unless fun h => h.ite (·.setFlag.count) fun h => h.updPad.stampIn.when (·.raiseIn)

theorem InForm.stampOut {p : Nat} (h : InForm s) : InForm (s.stampOut p).1 := by
  simp only [State.stampOut]
  split
  · exact h.settlePad
  · exact h.settlePad.updPad

theorem InForm.padStamp {p : Nat} (h : InForm s) : InForm (s.padStamp p) := h.stampIn

theorem InForm.setLatches {p : Nat} {f o : Option (BitVec 2)} (h : InForm s) : InForm (s.setLatches p f o) := h.updPad

theorem InForm.padForce {p : Nat} (h : InForm s) : InForm (s.padForce p) := h.setLatches.updPad

theorem InForm.padHold {p : Nat} (h : InForm s) : InForm (s.padHold p) := h.setLatches.updPad

theorem InForm.padRelease {p : Nat} (h : InForm s) : InForm (s.padRelease p) := h.setLatches

theorem InForm.padFlush {p : Nat} (h : InForm s) : InForm (s.padFlush p) := h.updPad

theorem InForm.cvtRequest {p : Nat} {t : Time64} {trig sched : Bool} (h : InForm s) :
    InForm (s.cvtRequest p t trig sched).1 := by
  have hskip : InForm (if trig then (s, true) else (s.setFlag (aCvt p 4) 3, false)).1 := h.iteFst (fun h => h) (·.setFlag)
  refine h.iteFst (fun h => h) fun h => ?_
  dsimp only
  split
  · exact h.iteFst (fun _ => hskip) (·.setCvt)
  · exact h.iteFst (·.setCvt) fun h => h.iteFst (·.setCvt) fun _ => hskip

/-- What `State.trigger` does once the request has its place: that place as a parameter, so that a proof can take it apart. -/
def Machine.State.triggerAt (s : State) (p : Nat) (x : Cvt) (q : CvtReq) (r : Time64 × Nat × Bool) : State :=
  let (at_, cyc, late) := r
  let s := if late && q.late then s.setFlag (aCvt p 4) 0 else s
  let cfg := s.reg (aCvt p 0)
  let s := s.setCvt p { x with busy := true, rise := if s.cvtBusy p || x.fall.any (s.cycle < ·) then x.rise else cyc
                               req := none, last := at_, prev := some at_, fall := some (cyc + fld cfg 24 4) }
  s.raiseIn (cyc + 4) (640 + p) (periods (s.nowIn (cyc + 4 - s.cycle)))

/-- `State.trigger` for the request `q`. -/
def Machine.State.triggerFor (s : State) (p : Nat) (q : CvtReq) : State :=
  let s := s.atCycle (q.cyc + 1)
  let x := s.cvt p
  let a := spaced q.t x.prev
  let s := s.pass (s.decideIn a)
  s.triggerAt p x q (s.placement 0 a s.settled)

theorem trigger_eq_triggerFor (s : State) (p : Nat) :
    s.trigger p = match (s.cvt p).req with
      | none => s
      | some q => s.triggerFor p q := by
  generalize hf : State.trigger = f
  delta State.trigger at hf
  subst hf
  generalize hg : State.triggerFor = g
  delta State.triggerFor at hg
  subst hg
  generalize hk : State.triggerAt = k
  delta State.triggerAt at hk
  subst hk
  rfl

theorem InForm.triggerAt {p : Nat} {x : Cvt} {q : CvtReq} {r : Time64 × Nat × Bool} (h : InForm s) :
    InForm (s.triggerAt p x q r) :=
  (h.when (·.setFlag)).setCvt.raiseIn

theorem InForm.triggerFor {p : Nat} {q : CvtReq} (h : InForm s) : InForm (s.triggerFor p q) := by
  unfold State.triggerFor
  exact h.atCycle.pass.triggerAt

theorem InForm.trigger {p : Nat} (h : InForm s) : InForm (s.trigger p) := by
  rw [trigger_eq_triggerFor]
  split
  · exact h
  · exact h.triggerFor

theorem InForm.triggerFall {p : Nat} (h : InForm s) : InForm (s.triggerFall p) := by
  simp only [State.triggerFall]
  split
  · exact h
  · exact h.atCycle.updCvt

theorem InForm.cvtTimeout {p : Nat} (h : InForm s) : InForm (s.cvtTimeout p) := h.unless (·.atCycle.updCvt.setFlag)

theorem InForm.sampleIn {p : Nat} {v : Word} (h : InForm s) : InForm (s.sampleIn p v) :=
  h.unless fun h => h.ite (·.setCvt.raiseLater) (·.setCvt.setFlag)

theorem InForm.padRead {id off : Nat} (h : InForm s) : InForm (s.padRead id off).1 := by
  unfold State.padRead
  dsimp only
  refine h.settlePads.iteFst (fun h => ?_) fun h => h.iteFst (fun h => h) fun h => h.iteFst (fun h => ?_) fun h => h
  · split
    · exact h
    · exact h.stampOut.updPad
    · exact h
    · exact h
  · split
    · exact h
    · exact h
    · exact h.beside
    · exact h
    · split
      · exact h
      · exact h.setCvt
    · exact h
    · exact h
    · exact h

theorem InForm.padWrite {off : Nat} {old v : Word} (h : InForm s) : InForm (s.padWrite off old v) := by
  unfold State.padWrite
  split
  · split
    · exact (h.when (·.updPad)).unless (·.updPad)
    · exact ((((h.when (·.padRelease)).when (·.padHold)).when (·.padForce)).when (·.padFlush)).when (·.padStamp)
    · exact h
  · split
    · split
      · exact (h.unless (·.updCvt)).unless (·.updCvt)
      · exact h.updCvt.when (·.cvtRequest)
      · exact h
    · exact h

/-! ### Timer registers -/

theorem InForm.timerCycle {t : Nat} (h : InForm s) : InForm (s.timerCycle t) := h.unless (·.atCycle.updTmr.cycleSteps)

theorem InForm.lfEnd (h : InForm s) : InForm (s.lfEnd) := by
  refine h.foldl fun _ _ h => ?_
  split
  · exact h.when (·.updTmr)
  · exact h.updTmr.jump
  · exact h

theorem InForm.lfCaps (h : InForm s) : InForm (s.lfCaps) := (h.foldl fun _ _ => (·.captureOf)).beside

theorem InForm.lfCopy (h : InForm s) : InForm (s.lfCopy) := h.when (·.beside)

theorem InForm.lfSteps (h : InForm s) : InForm (s.lfSteps) :=
  h.foldl fun _ _ h => h.unless fun h => (h.unless (·.updTmr)).ite (·.jumpTo) fun h => h.when (·.steps)

theorem InForm.correct {rate : Option Word} {step : Option (BitVec 64)} (h : InForm s) : InForm (s.correct rate step) :=
  h.beside

theorem InForm.applyCorrection {c : Correction} (h : InForm s) : InForm (s.applyCorrection c) :=
  (h.elim fun _ => h.setReg).elim fun _ => (h.elim fun _ => h.setReg).beside.setFlag.count.setRegFld

theorem InForm.restamp (h : InForm s) : InForm (s.restamp) := h.beside

theorem InForm.tmrRead {id off : Nat} (h : InForm s) : InForm (s.tmrRead id off).1 := by
  unfold State.tmrRead
  dsimp only
  refine h.iteFst (fun h => ?_) fun h => ?_
  · split
    · exact h
    · exact h.setTmr
    · exact h
    · exact h
    · exact h
    · refine h.iteFst (fun h => h) fun h => ?_
      split
      · exact h
      · exact h
      · exact h
      · exact h
      · exact h.when (·.updSlot)
      · exact h.when (·.updSlot)
      · exact h
  · split <;> exact h

theorem InForm.compCommit {t i : Nat} {v : Word} (h : InForm s) : InForm (s.compCommit t i v) := by
  refine h.updSlot.unless fun h => ?_
  split
  · exact h.setFlag.updSlot.slotEvent
  · exact h.ite (·.updSlot) (·.setFlag)
  · exact h.setFlag

theorem InForm.tmrCtlWritten {t : Nat} {old : Word} (h : InForm s) : InForm (s.tmrCtlWritten t old) :=
  (h.updTmr.unless (·.setTmr)).ite (·.jump) fun h => h.when (·.updTmr)

theorem InForm.tmrWrite {off : Nat} {old v : Word} (h : InForm s) : InForm (s.tmrWrite off old v) := by
  unfold State.tmrWrite
  dsimp only
  refine h.ite (fun h => ?_) fun h => ?_
  · split
    · exact h.tmrCtlWritten.tmrReloaded
    · exact h.when (·.updTmr)
    · exact h.unless (·.updTmr.tmrReloaded)
    · exact h.updTmr
    · exact h.updTmr.tmrReloaded
    · exact h.updTmr
    · refine h.unless fun h => ?_
      split
      · exact h.when (·.updSlot)
      · exact h.compCommit
      · exact h
  · split
    · exact h.foldl fun _ _ => (·.tmrStart)
    · exact h.foldl fun _ _ => (·.tmrStop)
    · exact h.when (·.setSync)
    · exact h.unless (·.clamp.correct)
    · exact h.when (·.setReg)
    · exact h.unless (·.correct)
    · exact h

/-! ### The Hinge fabric -/

theorem InForm.readRoute {r src id : Nat} (h : InForm s) : InForm (s.readRoute r src id).1 := h.readCode.readCode

theorem InForm.putRoute {r : Nat} {w : RouteWas} (h : InForm s) : InForm (s.putRoute r w) :=
  h.memory (wf_writeBytes _ _ _)

theorem InForm.noteRoute {r : Nat} (h : InForm s) : InForm (s.noteRoute r) := h.unless (·.note)

theorem InForm.withOldRoutes {f : State → State} (h : InForm s) (hf : ∀ t, InForm t → InForm (f t)) :
    InForm (s.withOldRoutes f) :=
  (hf _ (h.foldl fun _ _ => (·.putRoute))).foldl fun _ _ => (·.putRoute)

theorem InForm.writeRoute {id r v : Nat} (h : InForm s) : InForm (s.writeRoute id r v) :=
  (h.landsAfter.noteWrites.noteRoute.when (·.beside.setFlag)).writeCode.writeCode

theorem InForm.dispatchOne {x : Spill} (h : InForm s) : InForm (s.dispatchOne x) := by
  simp only [State.dispatchOne]
  split
  · exact h.readRoute.when (·.beside)
  · exact h.readRoute

theorem InForm.dispatchNow (h : InForm s) : InForm (s.dispatchNow) :=
  (h.beside.unless (·.count)).foldl fun _ _ => (·.dispatchOne)

theorem InForm.dispatch (h : InForm s) : InForm s.dispatch :=
  h.unless fun h => h.atCycle.withOldRoutes fun _ => (·.dispatchNow)

theorem InForm.rollWindow (h : InForm s) : InForm (s.rollWindow) := h.unless (·.beside)

theorem InForm.routeRaise {c : Nat} (h : InForm s) : InForm (s.routeRaise c) :=
  h.rollWindow.ite (·.raiseIn) fun h => h.ite (·.beside.raiseIn) (·.setFlag.count.raise)

theorem InForm.noteGroups {a : Nat} {w : Word} (h : InForm s) : InForm (s.noteGroups a w) := h.unless (·.note)

theorem InForm.setGroup {g : Nat} {b : Bool} (h : InForm s) : InForm (s.setGroup g b) :=
  h.note.unless (·.noteGroups.setReg.routeRaise)

theorem InForm.grpWritten {j : Nat} {old v : Word} (h : InForm s) : InForm (s.grpWritten j old v) :=
  h.noteGroups.foldl fun _ _ => (·.raise)

theorem InForm.fireInput {n : Nat} {evs : List (Nat × Time64)} (h : InForm s) : InForm (s.fireInput n evs) := by
  refine h.unless fun h => ?_
  split
  · exact h.beside.count
  · exact h.ite (·.wakeLost) fun h => (h.beside.when (·.count.count)).wakeIsland

theorem InForm.taskFlag {n : Nat} {ovr : Bool} (h : InForm s) : InForm (s.taskFlag n ovr) := h.setFlag.count

theorem InForm.coincide {n c : Nat} (h : InForm s) : InForm (s.coincide n c) := h.when (·.taskFlag)

theorem InForm.overrun {n : Nat} {r : State × Bool} (h : InForm r.1) : InForm (Machine.overrun n r) := h.when (·.taskFlag)

theorem InForm.crossTask {n c : Nat} (h : InForm s) : InForm (s.crossTask n c) := h.beside

theorem InForm.landTask {n c : Nat} (h : InForm s) : InForm (s.landTask n c) := by
  refine h.unless fun h => h.ite (fun h => ?_) fun h => h.when (·.cvtRequest.overrun.coincide)
  dsimp only
  split
  · exact h.padForce
  · exact h.padHold
  · exact h.padRelease
  · exact h.padStamp

theorem InForm.fireTask {sh : Nat → Bool → State → State × Bool} {n c : Nat} (h : InForm s)
    (hsh : ∀ i b t, InForm t → InForm (sh i b t).1) : InForm (s.fireTask sh n c) := by
  refine h.ite (fun h => ?_) fun h => h.ite (·.crossTask.coincide) fun h => h.ite (fun h => (hsh _ _ _ h).overrun.coincide)
    fun h => h.ite (·.crossTask) fun h => h.ite (·.setGroup.coincide) fun h => h.ite (·.setGroup.coincide) fun h =>
      h.ite (·.routeRaise.coincide) (·.coincide)
  dsimp only
  split
  · exact (h.ite (·.taskFlag) (·.tmrStart)).coincide
  · exact h.tmrStop.coincide
  · exact h.tmrReload.coincide
  · exact h.tmrStepEvents
  · exact h.capture.overrun.coincide

theorem InForm.fireAll {sh : Nat → Bool → State → State × Bool} {due : List Fire} (h : InForm s)
    (hsh : ∀ i b t, InForm t → InForm (sh i b t).1) : InForm (s.fireAll sh due) :=
  h.foldl fun _ _ h => h.ite (·.fireInput) fun h => h.ite (·.coincide) (·.fireTask hsh)

theorem InForm.fire {sh : Nat → Bool → State → State × Bool} (h : InForm s)
    (hsh : ∀ i b t, InForm t → InForm (sh i b t).1) : InForm (s.fire sh) := by
  unfold State.fire
  split
  · exact h
  · exact h.unless fun h => (h.atCycle.beside.foldl fun _ _ => (·.landTask)).fireAll hsh

theorem InForm.tryWaite {id : Nat} (h : InForm s) : InForm (s.tryWaite id) := by
  simp only [State.tryWaite]
  split
  · refine h.unless fun h => ?_
    split
    · exact h.consume.updThr.completeWait
    · exact h
  · exact h

theorem InForm.deliverEvent {id k : Nat} (h : InForm s) : InForm (s.deliverEvent id k) := by
  simp only [State.deliverEvent]
  split
  · exact h
  · exact h.unless (·.updThr.tryWaite)

theorem InForm.refire {m : Missed} (h : InForm s) : InForm (s.refire m) := h.setRegFld.beside.fireInput

theorem InForm.unmissed (h : InForm s) : InForm (s.unmissed) := h.note

theorem InForm.landNote {id : Nat} (h : InForm s) : InForm (s.landNote id) := by
  simp only [State.landNote]
  split
  · exact h
  · exact h.beside.foldl fun _ _ => (·.refire)

theorem InForm.landNotes {id : Nat} (h : InForm s) : InForm (s.landNotes id) := h.foldl fun _ _ => (·.landNote)

theorem InForm.collect (h : InForm s) : InForm s.collect.1 := by
  refine h.foldlFst fun acc r h => ?_
  replace h := h.readRoute (r := r) (src := 3) (id := 0)
  generalize acc.1.readRoute r 3 0 = p at h ⊢
  obtain ⟨t, v⟩ := p
  dsimp only
  split
  · exact h.drawBit
  · exact h

theorem InForm.disableRoute {r : Nat} (h : InForm s) : InForm (s.disableRoute r) := h.when (·.writeCode)

theorem InForm.commitDone (h : InForm s) : InForm s.commitDone := by
  unfold State.commitDone
  replace h := h.collect
  generalize s.collect = p at h ⊢
  obtain ⟨t, read⟩ := p
  exact (h.beside.foldl fun _ _ => (·.disableRoute)).setReg.beside

theorem InForm.commitStart (h : InForm s) : InForm (s.commitStart) := h.ite (·.setFlag) (·.beside)

theorem InForm.hfRacc {v : Word} {id : Nat} (h : InForm s) : InForm (s.hfRacc v id) := by
  unfold State.hfRacc
  extract_lets r w t
  have ht : InForm t := by
    unfold t
    split
    · generalize clampRoute w = p
      obtain ⟨w, n⟩ := p
      exact h.clamp.writeRoute
    · exact h
  clear_value t
  split
  · replace ht := ht.readRoute (r := r) (src := 0) (id := id)
    generalize t.readRoute r 0 id = p at ht ⊢
    obtain ⟨t, w⟩ := p
    exact ht.foldl fun _ _ => (·.setReg)
  · exact ht

theorem InForm.hfRead {id off : Nat} (h : InForm s) : InForm (s.hfRead id off).1 := h

theorem InForm.hfWrite {id off : Nat} {old v : Word} (h : InForm s) : InForm (s.hfWrite id off old v) := by
  refine h.ite (fun h => h.foldl fun _ _ => (·.raise)) fun h => ?_
  split
  · exact (h.when (·.unmissed.clearCount.clearCount.clearCount.clearCount)).when (·.commitStart)
  · exact h.hfRacc
  · exact h.grpWritten
  · exact h.grpWritten
  · exact h

end Sys2Proof

/-! SUPPORT. The forms of the state (O60): local memories, branches, the Shackle, passes. -/

namespace Sys2Proof

open Machine

variable {s t : State}

/-! ### Local memories -/

theorem InForm.loadLocal {j a n id : Nat} (h : InForm s) : InForm (s.loadLocal j a n id).1 :=
  h.readCode.iteFst (fun h => h) fun h => h

theorem InForm.loadPair {k a n id : Nat} (h : InForm s) : InForm (s.loadPair k a n id).1 :=
  h.loadLocal.iteFst (·.loadLocal) fun h => h

theorem InForm.load {n : Nat} {signed : Bool} {b : Beat} {rd ra : Reg} {imm : BitVec 18} (h : InForm s) :
    InForm (Machine.load n signed b rd ra imm s) := by
  refine h.beat fun id t h => ?_
  refine .ite trivial (.ite trivial ?_)
  split
  case h_1 => exact .ite (h.loadPair.of_eq ‹_›).updThr (h.loadPair.of_eq ‹_›).updThr.advance.twinStops
  case h_2 => exact h.loadPair.of_eq ‹_›
  case h_3 => exact (h.loadPair.of_eq ‹_›).oneSided

theorem InForm.storeData {k a : Nat} {v : Word} (h : InForm s) : InForm (s.storeData k a v) :=
  h.foldl fun _ _ h => (h.ite (·.updEng fun _ he => he.dropLocal) (·.flushLocal)).writeCode

theorem InForm.storeCode {k a : Nat} {v : Word} (h : InForm s) : InForm (s.storeCode k a v) :=
  h.foldl fun _ _ => (·.writeCode.snoop)

theorem InForm.storeNarrow {k id a n v : Nat} (h : InForm s) (hn : a % 4 + n ≤ 4) (hlow : 0x10000 ≤ a) (hhigh : a < 0x14000) :
    InForm (s.storeNarrow k id a n v) := by
  rw [storeNarrow_eq]
  replace h : InForm (if (s.eng k).localMerge.any (fun m => m.addr != a - a % 4) then s.flushLocal k else s) :=
    h.when (·.flushLocal)
  generalize (if (s.eng k).localMerge.any (fun m => m.addr != a - a % 4) then s.flushLocal k else s) = r at h ⊢
  have hentry := narrowEntry_form (v := v) id (localFits_of_mergeForm h.2 k) hn hlow hhigh
  exact (h.updEng (f := ({ · with localMerge := some (narrowEntry r k id a n v) })) fun e he => ⟨hentry, he.2⟩).when (·.flushLocal)

theorem InForm.storeSmall {n : Nat} {b : Beat} {rd ra : Reg} {imm : BitVec 18} (h : InForm s) (hn : n = 1 ∨ n = 2) :
    InForm (Machine.storeSmall n b rd ra imm s) := by
  refine h.beat fun id t h => ?_
  dsimp only
  split
  · exact trivial
  · split
    · exact trivial
    · exact h.foldl fun _ _ h => h.storeNarrow (by obtain rfl | rfl := hn <;> omega) (by omega) (by omega)

/-! ### Control transfers and frames -/

theorem InForm.fillSuccessor {id : Nat} (h : InForm s) : InForm (s.fillSuccessor id) := h.when (·.fill)

theorem fits_transfer {id : Nat} {target : Word} {f : Thread → Thread} (h : InForm s) : (transfer id target f s).Fits :=
  .ite trivial (.ite trivial h.fillSuccessor.updThr)

theorem InForm.readFrame {k id : Nat} {sp : Nat} (h : InForm s) : InForm (s.readFrame k id sp).1 := by
  refine h.foldlFst fun _ _ h => ?_
  dsimp only
  split <;> exact h.loadPair.of_eq ‹_›

/-! ### The Shackle -/

theorem InForm.raiseVc {v : Nat} (h : InForm s) : InForm (s.raiseVc v) := h.when (·.raise)

theorem InForm.raiseIv (h : InForm s) : InForm (s.raiseIv) := h.raiseVc

theorem InForm.mirrorWin {off len dst : Nat} (h : InForm s) : InForm (s.mirrorWin off len dst) := by
  refine h.foldl fun _ _ h => ?_
  split
  · have h := h.readCode.of_eq ‹_›
    exact h.memory (wf_writeBytes _ _ _)
  · have h := h.readCode.of_eq ‹_›
    exact (h.memory (wf_writeBytes _ _ _)).setFlag

theorem InForm.writeStatus {n : Nat} (h : InForm s) : InForm (s.writeStatus n) := h.memory (wf_writeBytes _ _ _)

theorem InForm.snapshot (h : InForm s) : InForm (s.snapshot) :=
  h.unless fun h => ((h.when (·.mirrorWin.mirrorWin)).when (·.pass)).writeStatus

theorem InForm.ownOut (h : InForm s) : InForm (s.ownOut) := by
  simp only [State.ownOut]
  split
  · exact h
  · exact h.atChain.beside.unless fun h => h.ite (·.setRegFld.beside) (·.shkGateOn.setRegFld.beside)

theorem InForm.holdExpiry (h : InForm s) : InForm s.holdExpiry := by
  unfold State.holdExpiry
  split
  · exact h
  · exact h.atCycle.setRegFld.beside (s := State.setRegFld _ aOwnStat 1 1 0)

theorem InForm.ownership {b : Bool} {mode : Option (Option Mode)} (h : InForm s) : InForm (s.ownership b mode) :=
  h.beside.setRegFld.count.unless (·.clearFlag)

theorem InForm.disown (h : InForm s) : InForm (s.disown) := h.when (·.ownership)

theorem InForm.heartbeatEnd (h : InForm s) : InForm (s.heartbeatEnd) :=
  h.beside.setRegFld.unless (·.count.count.raise)

theorem InForm.ownDecision {tkok : Bool} (h : InForm s) : InForm (s.ownDecision tkok) :=
  h.unless fun h =>
    h.ite (fun h => h.when (·.ownership)) fun h =>
      h.ite (·.setFlag.ownership) fun h => h.when (·.setFlag.ownership)

theorem InForm.ownCommit {c : Time64} (h : InForm s) : InForm (s.ownCommit c) := by
  refine (?_ : InForm _).beside
  split
  · refine (?_ : InForm _).beside.raise
    split
    · exact h.when (·.setMode)
    · exact h.enterSafe
    · exact h
  · split
    · exact h.when (·.setMode)
    · exact h.enterSafe
    · exact h

theorem InForm.applyWin {off len src : Nat} (h : InForm s) : InForm (s.applyWin off len src) :=
  h.foldl fun _ _ => (·.writeCode)

theorem InForm.mirrorApply (h : InForm s) : InForm (s.mirrorApply) := by
  simp only [State.mirrorApply]
  split
  · exact h
  · exact h.unless (·.applyWin.applyWin.pass.beside.raiseIv)

theorem InForm.applyDeadline (h : InForm s) : InForm (s.applyDeadline) := h.unless (·.atChain.setFlag.beside.raiseIv)

theorem InForm.shkWrite {off : Nat} {v : Word} (h : InForm s) : InForm (s.shkWrite off v) := by
  simp only [State.shkWrite]
  split
  · exact ((h.when (·.clearCount.clearCount.clearCount)).when (·.armFlag)).when (·.setRegFld)
  · exact h.setReg.clamp
  · exact h

/-! ### Passes -/

theorem InForm.pointRead {key n : Nat} (h : InForm s) : InForm (s.pointRead key n).1 :=
  h.iteFst (·.loadIn) (·.loadBytes)

theorem InForm.mergeBits {key : Nat} {mask v : Nat} (h : InForm s) : InForm (s.mergeBits key mask v) :=
  (h.readCode.memory (wf_writeBytes _ _ _)).markCode

theorem InForm.imageBit {off bitNo : Nat} {b : Bool} (h : InForm s) : InForm (s.imageBit off bitNo b) := h.mergeBits

theorem InForm.imageBytes {off : Nat} {bs : List Byte} (h : InForm s) : InForm (s.imageBytes off bs) := h.storeBytes

theorem InForm.pointWrite {e : Nat} {v : Word} (h : InForm s) : InForm (s.pointWrite e v) :=
  h.ite (·.imageBit) (·.imageBytes)

theorem InForm.unread (h : InForm s) : InForm (s.unread) := h.count

theorem InForm.imageSource {off n : Nat} (h : InForm s) : InForm (s.imageSource off n).1 := by
  refine h.iteFst (fun h => h) fun h => ?_
  split
  · exact h.pointRead.of_eq ‹_›
  · have h := h.pointRead.of_eq ‹_›
    exact h.unread

theorem InForm.source {e : Nat} {miss : Bool} (h : InForm s) : InForm (s.source e miss).1 := by
  unfold State.source
  dsimp only
  split
  · exact h
  · split
    · exact h
    · exact h.setCvt
  · refine h.iteFst (fun h => h) fun h => ?_
    split
    · exact h.imageSource.of_eq ‹_›
    · exact h.imageSource
  · split
    · exact h.imageSource.of_eq ‹_›
    · exact h.imageSource

theorem InForm.extension {i : Nat} (h : InForm s) : InForm (s.extension i).1 := by
  simp only [State.extension]
  split
  · exact h.readCode.unread
  · exact h.readCode.when (·.count)

theorem InForm.inputPoint {i e : Nat} {x : Nat} {miss : Bool} {c : Nat} (h : InForm s) : InForm (s.inputPoint i e x miss c).1 :=
  h.source.beside.pass.pointWrite

theorem InForm.destination {e : Nat} {v : Word} {buf : Tab (BitVec 2)} (h : InForm s) : InForm (s.destination e v buf).1 := by
  simp only [State.destination]
  split
  · exact h.iteFst (fun h => h) fun h => h
  · exact h.iteFst (fun h => h.when (·.imageBit)) (·.imageBytes)
  · exact h.imageBytes

theorem InForm.outputPoint {e : Nat} {x : Nat} {buf : Tab (BitVec 2)} {c : Nat} (h : InForm s) :
    InForm (s.outputPoint e x buf c).1 := by
  simp only [State.outputPoint]
  split
  · split
    · exact (h.pointRead.when (·.unread)).pass.destination
    · exact h.pointRead.when (·.unread)
  · exact (h.pointRead.when (·.unread)).pass.destination

theorem InForm.qualityWord {q : List (Nat × Bool)} {d : Nat} (h : InForm s) : InForm (s.qualityWord q d) :=
  h.mergeBits

theorem InForm.overrunPass {n : Nat} (h : InForm s) : InForm (s.overrunPass n) := h.unless (·.setFlag.count)

theorem InForm.notStarted {d : PassDue} (h : InForm s) : InForm (s.notStarted d) := h.when (·.setFlag)

theorem InForm.takePass {k : Pass} {x : State × PassDue} (h : InForm s) (hx : s.takePass k = some x) : InForm x.1 := by
  unfold State.takePass at hx
  dsimp only at hx
  split at hx
  · cases hx
  · cases hx
    exact (h.beside.count.overrunPass.foldl fun _ _ => (·.notStarted)).atChain

theorem InForm.rxWord {src i : Nat} (h : InForm s) : InForm (s.rxWord src i) := h.imageBytes

theorem InForm.txWord {i : Nat} (h : InForm s) : InForm (s.txWord i).1 := by
  refine h.iteFst (fun h => h) fun h => ?_
  split
  · exact h.readCode.of_eq ‹_›
  · have h := h.readCode.of_eq ‹_›
    exact h.setFlag

theorem InForm.withRegs {l : Tab Word} {f : State → State} (h : InForm s) (hf : ∀ t, InForm t → InForm (f t)) :
    InForm (s.withRegs l f) :=
  (hf _ (h.foldl fun _ _ h => h.unless (·.setReg))).foldl fun _ _ h => h.unless (·.setReg)

theorem InForm.passClock (h : InForm s) : InForm (s.passClock) := h.elim fun _ => h.atCycle

theorem InForm.setRun {r : Option PassRun} (h : InForm s) : InForm (s.setRun r) := h.beside

theorem InForm.passStart {k : Pass} {image : Nat} (h : InForm s) : InForm (s.passStart k image) := by
  refine h.unless fun h => ?_
  split
  · exact h
  next hx => exact (h.takePass hx).notStarted.setRun.pass.when (·.setFlag)

theorem InForm.walkEntry {w : Walk} {k : Pass} {miss : Bool} {i : Nat} (h : InForm w.s) : InForm (w.entry k miss i).s := by
  unfold Walk.entry
  split
  · exact h
  · split
    · exact (h.readCode.of_eq ‹_›).unread
    next t e he =>
      replace h := h.readCode.of_eq he
      split
      · exact h
      · split
        · exact h.count
        · have hx : InForm (if wType e = 2 then t.extension i else (t, some 0)).1 := h.iteFst (·.extension) fun h => h
          generalize (if wType e = 2 then t.extension i else (t, some 0)) = p at hx ⊢
          obtain ⟨u, x⟩ := p
          dsimp only
          split
          · exact hx
          · split
            · exact hx.outputPoint
            · exact hx.inputPoint

theorem InForm.passAct {r : PassRun} {x : PassStep} (h : InForm s) : InForm (s.passAct r x) := by
  cases x with
  | copy src i => exact h.rxWord.setRun
  | entry i => exact (InForm.walkEntry (w := ⟨s, r.q, r.buf, r.cost⟩) h).setRun
  | tail => exact h.setRun
  | quality d => exact h.pass.qualityWord.setRun
  | snap i => exact h.txWord.setRun.when (·.beside)

theorem InForm.passStep (h : InForm s) : InForm s.passStep := by
  unfold State.passStep
  split
  · exact h
  · split
    · exact h
    · exact (h.passClock.withRegs fun _ => (·.passAct)).passClock

theorem InForm.passEnd {cost reg lo vc : Nat} (h : InForm s) : InForm (s.passEnd cost reg lo vc) :=
  h.setRegFld.beside.raiseVc

theorem InForm.passFinish (h : InForm s) : InForm (s.passFinish) := by
  simp only [State.passFinish]
  split
  · exact h
  · split
    · exact (h.setRun.passClock.when (·.beside)).passEnd.beside.snapshot
    · exact (h.setRun.passClock.when (·.beside)).passEnd
    · exact (h.setRun.passClock.when (·.beside)).passEnd.beside

theorem InForm.passSteps {n : Nat} (h : InForm s) : InForm (s.passSteps n) := h.foldl fun _ _ => (·.passStep)

theorem InForm.runPass {k : Pass} {image : Nat} (h : InForm s) : InForm (s.runPass k image) := by
  simp only [State.runPass]
  split
  · exact h.when (·.passStart)
  · refine (h.when (·.passStart)).unless fun h => ?_
    split
    · exact h.beside.passSteps
    · exact h.passSteps.passSteps.passFinish

theorem InForm.passLate {c : Time64} (h : InForm s) : InForm (s.passLate c) := h.unless (·.beside.setFlag)

theorem InForm.bufLand (h : InForm s) : InForm (s.bufLand) := by
  simp only [State.bufLand]
  split
  · exact h
  · exact (h.atCycle.when (·.setFlag)).beside.foldl fun _ _ => (·.setRegFld)

theorem InForm.armFlip {v : Word} (h : InForm s) : InForm (s.armFlip v) := h.beside

theorem InForm.relocate {id : Nat} (h : InForm s) : InForm (s.relocate id) := h.setThr.fill

theorem InForm.flip {skip : List Nat} (h : InForm s) : InForm (s.flip skip) :=
  h.unless fun h => (h.foldl fun _ _ => (·.relocate)).beside.setReg.noteSet.raiseVc

theorem InForm.scnWrite {off : Nat} {v : Word} (h : InForm s) : InForm (s.scnWrite off v) := by
  simp only [State.scnWrite]
  split
  · exact h.when (·.clearCount.clearCount.clearCount.clearCount)
  · exact h.armFlip
  · exact h.when (·.beside)
  · exact h

end Sys2Proof

/-! SUPPORT. The forms of the state (O60): the chain, contexts, engine registers, far replies, the scrubber and the NV store. -/

namespace Sys2Proof

open Machine

variable {s t : State}

/-! ### The chain -/

theorem InForm.chDrop {n : Nat} (h : InForm s) : InForm (s.chDrop n) := h.count

theorem InForm.chDup (h : InForm s) : InForm (s.chDup) := h.count

theorem InForm.setPort {p : Port} {b : Bool} (h : InForm s) : InForm (s.setPort p b) := h.unless (·.beside.raise)

theorem InForm.emit {p : Port} {f : Frame} (h : InForm s) : InForm (s.emit p f) :=
  h.ite (fun h => by cases p <;> exact h.beside) fun h => h.when fun h => by cases p <;> exact h.beside

theorem InForm.forward {p : Port} {f : Frame} (h : InForm s) : InForm (s.forward p f) := h.unless (·.emit)

theorem InForm.crcCount {p : Port} (h : InForm s) : InForm (s.crcCount p) := by
  simp only [State.crcCount]
  split <;> exact h.count

theorem InForm.fresh {f : Frame} (h : InForm s) : InForm (s.fresh f).1 := h.iteFst (·.chDup) (·.beside)

theorem InForm.passOn {p : Port} {f : Frame} (h : InForm s) : InForm (s.passOn p f) :=
  h.unless fun h => (h.unless (·.crcCount)).ite (·.chDrop.forward) fun h => h.unless (·.forward)

theorem InForm.queueOwn {type dst : Nat} {payload : List Byte} {seq : Option Byte} (h : InForm s) :
    InForm (s.queueOwn type dst payload seq) :=
  h.beside

theorem InForm.remember {f : OwnFrame} (h : InForm s) : InForm (s.remember f) := h.beside

theorem InForm.sendBoth {f : OwnFrame} (h : InForm s) : InForm (s.sendBoth f) := h.remember.emit.emit

theorem InForm.sendOwn (h : InForm s) : InForm (s.sendOwn) := by
  refine h.unless fun h => ?_
  split
  · exact h.when (·.beside.sendBoth)
  · exact h.unless fun h => (h.beside.sendBoth.when (·.drGone)).when (·.raiseIn)
  · exact h

theorem InForm.takeAddr {a : Nat} (h : InForm s) : InForm (s.takeAddr a) := h.setReg.raise.beside.when (·.setMode)

theorem InForm.address {p : Port} {f : Frame} (h : InForm s) : InForm (s.address p f) :=
  h.unless fun h =>
    h.ite (·.crcCount.forward) fun h =>
      h.unless fun h =>
        h.ite (·.forward) fun h =>
          h.ite (fun h => (h.when (·.takeAddr)).forward) fun h =>
            h.ite (fun h => (h.unless (·.setFlag)).forward) (·.forward)

theorem InForm.showSched {p coff : Nat} (h : InForm s) : InForm (s.showSched p coff) := h.setReg.setReg

theorem InForm.startLocal (h : InForm s) : InForm (s.startLocal) := h.beside

theorem InForm.takeSched {ti : Time64} {p coff : Nat} (h : InForm s) : InForm (s.takeSched ti p coff) := by
  refine (?_ : InForm _).beside
  split
  · exact h.beside.showSched
  · exact h.unless (·.beside.count)

theorem InForm.insertRecord {p : Port} {f : Frame} {tn : Word} (h : InForm s) : InForm (s.insertRecord p f tn) :=
  h.unless fun h => (h.unless (·.setFlag)).beside.remember.emit

theorem InForm.tickFrame {p : Port} {f : Frame} (h : InForm s) : InForm (s.tickFrame p f) :=
  h.unless fun h =>
    h.ite (·.chDrop) fun h =>
      ((h.unless (·.takeSched)).setReg.beside.setRegFld.unless fun h =>
         (h.unless (·.setRegFld.raise)).setRegFld.setReg.memory (wf_writeBytes _ _ _)).insertRecord

theorem InForm.tickRecord {p : Port} {f : Frame} (h : InForm s) : InForm (s.tickRecord p f) :=
  h.unless (·.memory (wf_writeBytes _ _ _))

theorem InForm.chainDue {due : Time64} {miss : Bool} (h : InForm s) : InForm (s.chainDue due miss) :=
  h.unless (·.beside)

theorem InForm.exchange {due : Time64} (h : InForm s) : InForm (s.exchange due) :=
  ((h.unless (·.memory (wf_writeBytes _ _ _))).foldl fun _ _ => (·.setReg)).beside.chainDue

theorem InForm.exchangeComplete (h : InForm s) : InForm (s.exchangeComplete) := h.when (·.exchange)

theorem InForm.shackleTick {tkok : Bool} (h : InForm s) : InForm (s.shackleTick tkok) :=
  (h.heartbeatEnd.when (·.ownDecision)).beside.when (·.writeStatus)

theorem InForm.tick (h : InForm s) : InForm (s.tick) := by
  simp only [State.tick]
  split
  · exact h
  · exact h.unless fun h =>
        ((h.atChain.beside.unless (·.showSched)).chDrop.raise.beside.shackleTick.when (·.besideUpd)).foldl fun _ _ h =>
          h.when (·.cvtRequest)

theorem InForm.halfTick (h : InForm s) : InForm s.halfTick := by
  unfold State.halfTick
  split
  · exact h
  · refine h.unless fun h => ?_
    extract_lets half past t chain u chain' c f v
    have hu : InForm u := h.atChain.raise.beside
    have hv : InForm v := hu.ite (·.beside) fun h => h.unless fun h => h.count.count.unless fun h => h.setFlag.when (·.enterSafe)
    clear_value v
    exact hv.unless fun h => h.ite (·.exchange) (·.beside.chainDue)

theorem InForm.stepSched (h : InForm s) : InForm (s.stepSched) := by
  simp only [State.stepSched]
  split
  · exact h
  · exact h.when (·.beside)

theorem InForm.setProbe {p : Port} {x : Probe} (h : InForm s) : InForm (s.setProbe p x) := by
  simp only [State.setProbe]
  split <;> exact h.beside

theorem InForm.emitProbe {p : Port} {payload : List Byte} (h : InForm s) : InForm (s.emitProbe p payload) := by
  simp only [State.emitProbe]
  split <;> exact h.beside

theorem InForm.probeSend {p : Port} (h : InForm s) : InForm (s.probeSend p) :=
  h.unless fun h => (h.when (·.atCycle)).when (·.setProbe.emitProbe)

theorem InForm.probeAnswer {p : Port} {f : Frame} {t2 t3 : Time64} (h : InForm s) : InForm (s.probeAnswer p f t2 t3) :=
  h.ite (fun h => h.when (·.crcCount)) fun h => h.unless (·.emitProbe)

theorem InForm.probeEcho {p : Port} {f : Frame} {t4 : Time64} (h : InForm s) : InForm (s.probeEcho p f t4) :=
  h.ite (fun h => h.when (·.crcCount)) fun h => h.unless fun h => h.setProbe.unless (·.setReg)

theorem InForm.servo {t0 : Time64} {o : Int} (h : InForm s) : InForm (s.servo t0 o) := by
  simp only [State.servo]
  split
  · exact h.correct.setSync.beside
  · exact h.correct.beside.ite (·.setSync) fun h => h.when (·.setSync)

theorem InForm.timeFrame {p : Port} {f : Frame} {stamp : Time64} {residence : Nat} (h : InForm s) :
    InForm (s.timeFrame p f stamp residence) :=
  h.unless fun h =>
    h.ite (·.crcCount.forward) fun h =>
      h.ite (·.forward) fun h =>
        h.unless fun h => (h.unless fun h => h.ite (·.forward) (·.forward)).unless (·.setReg.raise.servo)

theorem InForm.syncTimeout (h : InForm s) : InForm (s.syncTimeout) := h.unless (·.atCycle.setSync)

theorem InForm.evSend {v : Word} (h : InForm s) : InForm (s.evSend v) := h.clamp.ite (·.setFlag.chDrop) (·.queueOwn)

theorem InForm.eventFrame {p : Port} {f : Frame} (h : InForm s) : InForm (s.eventFrame p f) := by
  refine h.unless fun h => ?_
  split
  · exact h.fresh.of_eq ‹_›
  · have h := h.fresh.of_eq ‹_›
    exact (h.memory (wf_writeBytes _ _ _)).raiseIn

theorem InForm.upBuf {payload : List Byte} (h : InForm s) : InForm (s.upBuf payload) :=
  h.ite (·.chDrop) fun h => (h.memory (wf_writeBytes _ _ _)).setReg.raise

theorem InForm.heartbeat {x : Peer} (h : InForm s) : InForm (s.heartbeat x) :=
  (h.setReg.setRegFld.when (·.setFlag.count)).beside

theorem InForm.shackleFrame {p : Port} {f : Frame} (h : InForm s) : InForm (s.shackleFrame p f) := by
  refine h.unless fun h => h.ite (·.chDrop) fun h => ?_
  split
  · exact h.fresh.of_eq ‹_›
  · have h := h.fresh.of_eq ‹_›
    exact (h.memory (wf_writeBytes _ _ _)).unless fun h => h.beside.unless (·.raise.heartbeat)

theorem InForm.heartbeatSend (h : InForm s) : InForm (s.heartbeatSend) :=
  h.unless fun h => (h.memory (wf_writeByte _ _ _)).beside.sendOwn

theorem InForm.chRead {id off : Nat} (h : InForm s) : InForm (s.chRead id off).1 := by
  refine h.iteFst (fun h => h) fun h => ?_
  split
  · exact h
  · exact h.beside
  · exact h
  · exact h
  · exact h

theorem InForm.chWrite {off : Nat} {old v : Word} (h : InForm s) : InForm (s.chWrite off old v) := by
  refine h.ite (·.memory (wf_writeWord _ _ _)) fun h => ?_
  split
  · exact (((h.when fun h =>
                 h.foldl fun _ _ => (·.clearCount.clearCount)).unless (·.setPort)).unless (·.setPort)).when (·.startLocal)
  · exact h.when (·.setReg.clamp)
  · exact h.evSend
  · exact h.when (·.setRegFld)
  · exact h

/-! ### Contexts and thread control -/

theorem InForm.ctxWrite {id sel : Nat} {v : Word} (h : InForm s) : InForm (s.ctxWrite id sel v).1 := by
  refine h.iteFst (fun h => h) fun h => h.iteFst (·.setThr) fun h => ?_
  split
  · exact h.clamp.updThr
  · exact h.setThr
  · exact h.clamp.updThr
  · exact h.clamp.updThr
  · exact h

theorem InForm.masterBeat {b : Beat} {reads : List Dest} {ra : Reg} {w : Word} {f : Nat → Nat → State → State × Bool}
    (h : InForm s) (hf : ∀ id target t, InForm t → InForm (f id target t).1) : InForm (Machine.masterBeat b reads ra w f s) := by
  refine h.beat fun id t h => .ite trivial ?_
  generalize ((t.thr id).rd ra).toNat % 16 = target
  refine .ite h.updThr ?_
  replace h := hf id (id - id % 16 + target) t h
  generalize f id (id - id % 16 + target) t = p at h ⊢
  exact h.updThr

theorem InForm.toReady {id : Nat} (h : InForm s) : InForm (s.toReady id) := h.fill.updThr

theorem InForm.releaseStopped {id : Nat} (h : InForm s) : InForm (s.releaseStopped id) := h.updThr.toReady

theorem InForm.atOnce {id : Nat} (h : InForm s) : InForm (s.atOnce id) := h.when (·.updThr)

/-! ### Engine registers -/

theorem InForm.engWrite {k off : Nat} {old v : Word} (h : InForm s) : InForm (s.engWrite k off old v) :=
  h.ite (fun h => h.when (·.engineReset)) fun h =>
    h.ite (fun h => h.when fun h => (h.when (·.noteSet)).updEng) fun h => h.when fun h => h.unless (·.updThr)

theorem InForm.releaseTrapped {id : Nat} (h : InForm s) : InForm (s.releaseTrapped id) :=
  h.ite (·.releaseStopped) fun h => h.when (·.setThr)

theorem InForm.trpWrite {k off : Nat} {v : Word} (h : InForm s) : InForm (s.trpWrite k off v) := by
  simp only [State.trpWrite]
  split
  · exact h.foldl fun _ _ => (·.releaseTrapped)
  · exact h.when (·.setRegFld)
  · exact h

theorem InForm.wheelSwitch {k : Nat} (h : InForm s) : InForm (s.wheelSwitch k) :=
  h.unless fun h => (h.foldl fun _ _ => (·.setReg)).updEng.foldl fun _ _ => (·.setSt)

theorem InForm.requestHalt {id : Nat} (h : InForm s) : InForm (s.requestHalt id) := by
  simp only [State.requestHalt]
  split
  · exact h
  · exact h.updThr
  · exact h.halt

theorem InForm.resume {id : Nat} (h : InForm s) : InForm (s.resume id) :=
  h.ite (·.updThr) (·.fill.updThr.tryWaite.farWake)

theorem InForm.stepThread {id : Nat} (h : InForm s) : InForm (s.stepThread id) := h.when (·.resume.updThr)

theorem InForm.freezeThreads {b : Bool} {ids : List Nat} (h : InForm s) : InForm (s.freezeThreads b ids) :=
  h.ite (fun h => h.foldl fun _ _ h => h.unless (·.requestHalt.updThr)) fun h => h.foldl fun _ _ => (·.resume)

theorem InForm.freeze {b : Bool} (h : InForm s) : InForm (s.freeze b) := h.freezeThreads

theorem InForm.dbgCtlWritten {old v : Word} (h : InForm s) : InForm (s.dbgCtlWritten old v) :=
  (h.unless (·.freeze)).when (·.lfEnd)

theorem InForm.dbgErr (h : InForm s) : InForm (s.dbgErr) := h.setFlag

theorem InForm.ctxData {ident : Nat} {wr : Option Word} (h : InForm s) : InForm (s.ctxData ident wr).1 := by
  refine h.iteFst (·.gateCount.dbgErr) fun h => ?_
  split
  · exact h
  · exact h.ctxWrite.unless fun _ => h.dbgErr

theorem InForm.mData {id : Nat} {wr : Option Word} (h : InForm s) : InForm (s.mData id wr).1 := by
  refine h.setReg.iteFst (·.gateCount.dbgErr) fun h => ?_
  dsimp only
  split
  · exact h.flushLocalAt.writeCode.when (·.snoop)
  · split
    · exact h.flushLocalAt.readCode.of_eq ‹_›
    · have h := h.flushLocalAt.readCode.of_eq ‹_›
      exact h.dbgErr

theorem InForm.dbgWrite {k off : Nat} {v : Word} (h : InForm s) : InForm (s.dbgWrite k off v) := by
  refine h.unless fun h => ?_
  dsimp only
  split
  · exact h.foldl fun _ _ => (·.requestHalt)
  · exact h.foldl fun _ _ => (·.resume)
  · exact h.foldl fun _ _ => (·.stepThread)
  · exact h

theorem InForm.eccWrite {off : Nat} {v : Word} (h : InForm s) : InForm (s.eccWrite off v) := by
  simp only [State.eccWrite]
  split
  · exact h.when fun h => h.foldl fun _ _ => (·.clearCount.clearCount)
  · exact h.when (·.armFlag)
  · exact h.when (·.setRegFld)

/-- The state in which a scrubber step has its word, and that word's address: of the repair slot, or of the position. -/
def Machine.State.scrubTurn (s : State) (m : Nat) : State × Nat :=
  let pos := tabGet 0 s.ecc.pos m
  match tabFind s.ecc.repair m with
  | some key => ({ s with ecc := { s.ecc with repair := tabErase s.ecc.repair m } }, key)
  | none =>
    let last := pos + 1 == cwCount m
    let s := { s with ecc := { s.ecc with pos := tabSet s.ecc.pos m (if last then 0 else pos + 1) } }
    let s := if last then
        let us := s.lapCount m / 200
        ({ s with ecc := { s.ecc with lapAcc := tabErase s.ecc.lapAcc m
                                      lapFrom := tabSet s.ecc.lapFrom m s.cycle } }).setReg (aEcc m 0x14)
          (word (min 0xFFFFFFFF us))
      else s
    (s, cwKey m pos)

/-- What a scrubber step does with its word. -/
def Machine.State.scrubWord (s : State) (m key : Nat) : State :=
  let bad := tabGet 0 s.ecc.bad key
  let raw := s.rawWord key
  match s.readCode key 1 0 with
  | (s, none) => s
  | (s, some v) =>
    if bad = 0 then s
    else if ones bad = 1 ∨ v ≠ raw then
      { s with mem := writeBytes s.mem key (leBytes (cwBytes m) v), ecc := { s.ecc with bad := tabErase s.ecc.bad key } }
    else s

theorem scrub_eq (s : State) (m : Nat) : s.scrub m =
    if !s.sys.mode.executes || !bit (s.reg (aSys 0x4000)) 0 || !s.memRuns m || !s.scrubRoom m then s
    else (s.scrubTurn m).1.scrubWord m (s.scrubTurn m).2 := by
  generalize hf : State.scrub = f
  delta State.scrub at hf
  subst hf
  generalize hg : State.scrubTurn = g
  delta State.scrubTurn at hg
  subst hg
  generalize hk : State.scrubWord = k
  delta State.scrubWord at hk
  subst hk
  rfl

theorem InForm.scrubTurn {m : Nat} (h : InForm s) : InForm (s.scrubTurn m).1 := by
  unfold State.scrubTurn
  split
  · exact h.beside
  · exact h.beside.when (·.beside.setReg)

theorem InForm.scrubWord {m key : Nat} (h : InForm s) : InForm (s.scrubWord m key) := by
  unfold State.scrubWord
  split
  · exact h.readCode.of_eq ‹_›
  · exact (h.readCode.of_eq ‹_›).unless fun h => h.when (·.memory (wf_writeBytes _ _ _))

theorem InForm.scrub {m : Nat} (h : InForm s) : InForm (s.scrub m) := by
  rw [scrub_eq]
  exact h.unless fun h => h.scrubTurn.scrubWord

/-! ### Far replies -/

theorem InForm.farReply {id n : Nat} (h : InForm s) : InForm (s.farReply id n) := by
  simp only [State.farReply]
  split
  · exact h
  · exact h.when fun h => (h.foldl fun _ _ => (·.deliver)).updThr.farWake

theorem InForm.farError {id n : Nat} (h : InForm s) : InForm (s.farError id n) := by
  simp only [State.farError]
  split
  · exact h
  · split
    · exact h
    · exact h.when fun h => (h.foldl fun _ _ => (·.deliver)).updThr.leaveWait.farWake

theorem InForm.padLand {k : Nat} (h : InForm s) : InForm (s.padLand k) := by
  simp only [State.padLand]
  split
  · exact h
  · split
    · exact h.updEng.psetLand.updThr
    · exact h.updEng.stampOut.updThr

theorem InForm.padCatch {id : Nat} (h : InForm s) : InForm (s.padCatch id) := h.foldl fun _ _ h => h.when (·.padLand)

theorem InForm.settleFar {k : Nat} (h : InForm s) : InForm (s.settleFar k) := by
  refine (h.foldl fun _ _ => (·.padLand)).foldl fun _ _ h => h.foldl fun _ _ h => ?_
  dsimp only
  split
  · exact h.ite (·.farError) (·.farReply)
  · exact h

/-! ### The scrubber and the NV store -/

theorem InForm.rawPut {page start : Nat} {data : List Byte} {ks : List Nat} (h : InForm s) :
    InForm (s.rawPut page start data ks) :=
  h.memory fun hm => List.foldlRecOn (motive := (Memory.wf · = true)) ks _ hm fun m hm _ _ => wf_writeByte m _ _ hm

theorem InForm.cutRaw (h : InForm s) : InForm (s.cutRaw) := by
  simp only [State.cutRaw]
  split
  · exact h
  · refine h.unless fun h => ?_
    split
    · exact h.drawNat.besideNv
    · exact (h.drawNat.rawPut.drawBit.when (·.rawPut)).besideNv

theorem InForm.ringBusy (h : InForm s) : InForm (s.ringBusy).1 :=
  h.iteFst (fun h => h) fun h => h.iteFst (fun h => h) (·.drawBit.beside)

theorem InForm.cutRing (h : InForm s) : InForm (s.cutRing) := by
  simp only [State.cutRing]
  split
  · exact h
  · split
    · have h := h.ringBusy.of_eq ‹_›
      exact h.drawNat.besideNv
    · exact h.ringBusy.of_eq ‹_›

end Sys2Proof

/-! SUPPORT. The forms of the state (O60): the Tumbler, Shuttle commands, modes and islands. -/

namespace Sys2Proof

open Machine

variable {s t : State}

/-! ### The Tumbler -/

theorem InForm.tumTurn {step id : Nat} (h : InForm s) : InForm (s.tumTurn step id) := (h.when (·.pass)).note

theorem InForm.holdLock {id a : Nat} (h : InForm s) : InForm (s.holdLock id a) := h.beside

theorem InForm.acquire {id a : Nat} (h : InForm s) : InForm (s.acquire id a).1 := by
  simp only [State.acquire]
  split
  · exact h.tumTurn.holdLock
  · exact h.tumTurn
  · exact h.tumTurn.iteFst (·.holdLock) (·.count)

theorem InForm.release {id a : Nat} (h : InForm s) : InForm (s.release id a).1 :=
  h.tumTurn.iteFst (·.freeLock) (·.count)

theorem InForm.clearMark {a : Nat} (h : InForm s) : InForm (s.clearMark a) := h.when (·.beside)

theorem InForm.clearMarks (h : InForm s) : InForm (s.clearMarks) := h.beside

theorem InForm.lockResult {id : Nat} {r : State × LockCode} (h : InForm r.1) : InForm (State.lockResult id r) := h.beside

theorem InForm.lreq {id : Nat} {v : Word} (h : InForm s) : InForm (s.lreq id v) := by
  refine (?_ : InForm _).lockResult
  split
  · exact h.clamp.release
  · exact h.clamp.tumTurn.clearMark
  · exact h.clamp.acquire

theorem InForm.lqry {id : Nat} {v : Word} (h : InForm s) : InForm (s.lqry id v) := h.clamp.tumTurn.beside

theorem InForm.setMail {c : Nat} {m : Mail} (h : InForm s) : InForm (s.setMail c m) := h.beside

theorem InForm.mailStage {id c : Nat} {v : Word} (h : InForm s) : InForm (s.mailStage id c v) :=
  (h.tumTurn.when (·.count)).setMail

theorem InForm.mailCommit {id c : Nat} {v : Word} (h : InForm s) : InForm (s.mailCommit id c v) :=
  h.tumTurn.ite (·.setMail.raise) (·.count)

theorem InForm.mailRead {id c : Nat} {w : Bool} (h : InForm s) : InForm (s.mailRead id c w).1 := by
  refine h.iteFst (fun h => ?_) (·.beside)
  split
  · exact h.iteFst (·.beside) fun h => h
  · exact h

theorem InForm.tumRead {id off : Nat} (h : InForm s) : InForm (s.tumRead id off).1 := by
  refine h.tumTurn.iteFst (fun h => ?_) fun h => h
  split
  · exact h
  · exact h.mailRead
  · exact h.mailRead
  · exact h

theorem InForm.tumWrite {id off : Nat} {v : Word} (h : InForm s) : InForm (s.tumWrite id off v) := by
  refine h.ite (fun h => ?_) fun h => ?_
  · dsimp only
    split
    · exact h.mailStage
    · exact h.mailCommit
    · exact h
  · split
    · exact ((h.when (·.clearCount.clearCount.clearCount.clearCount.clearCount)).when (·.tumTurn.clearMarks)).unless (·.beside)
    · exact h.lreq
    · exact h.lqry
    · exact h

/-! ### Shuttle registers -/

theorem InForm.setChan {c : Nat} {x : Chan} (h : InForm s) : InForm (s.setChan c x) := h.beside

theorem InForm.updChan {c : Nat} {f : Chan → Chan} (h : InForm s) : InForm (s.updChan c f) := h.setChan

theorem InForm.chanStart {c : Nat} (h : InForm s) : InForm (s.chanStart c).1 := h.iteFst (fun h => h) (·.setChan)

theorem InForm.chanStop {c : Nat} (h : InForm s) : InForm (s.chanStop c) :=
  h.unless fun h => h.ite (·.setChan) (·.setChan)

theorem InForm.chanReset {c : Nat} (h : InForm s) : InForm (s.chanReset c) := h.holderReset.setChan.setReg

theorem InForm.shTask {c : Nat} {start : Bool} (h : InForm s) : InForm (Machine.shTask c start s).1 :=
  h.iteFst (·.chanStart) (·.chanStop)

theorem InForm.chanUnlock {c a : Nat} (h : InForm s) : InForm (s.chanUnlock c a) := h.release.lockResult

theorem InForm.chanHalt {c code : Nat} {addr : Word} (h : InForm s) : InForm (s.chanHalt c code addr) := by
  refine (?_ : InForm _).updChan.setReg.raise
  split
  · exact h.chanUnlock
  · exact h

theorem InForm.chanAcquire {c : Nat} (h : InForm s) : InForm (s.chanAcquire c) := by
  simp only [State.chanAcquire]
  split
  · exact h.acquire.lockResult.updChan
  · exact h.acquire.lockResult.chanHalt
  · exact h.acquire.lockResult.updChan.setFlag
  · exact h.acquire.lockResult.updChan

theorem InForm.chanBoundary {c : Nat} (h : InForm s) : InForm (s.chanBoundary c) := h.when (·.setChan)

theorem InForm.chanRetry {c : Nat} (h : InForm s) : InForm (s.chanRetry c) :=
  h.unless fun h => h.ite (·.setChan) (·.atCycle.count.chanAcquire)

theorem InForm.shWrite {off : Nat} {old v : Word} (h : InForm s) : InForm (s.shWrite off old v) := by
  refine h.unless fun h => ?_
  dsimp only
  split
  · exact ((h.when (·.chanStart)).when (·.chanStop)).when (·.chanReset)
  · exact h.ite (·.setReg) (·.clamp)
  · exact h

/-! ### Modes, islands and resets -/

theorem InForm.engDefaults {k : Nat} (h : InForm s) : InForm (s.engDefaults k) := h.beside

theorem InForm.govDrop {k : Nat} (h : InForm s) : InForm (s.govDrop k) := h.beside

theorem InForm.switchOff {k : Nat} (h : InForm s) : InForm (s.switchOff k) :=
  h.govDrop.unless fun h =>
    (h.flushLocal.flushFar.deregisterAll.lapHold.foldl fun _ _ => (·.holderReset.setThr)).loseEngine.engDefaults.setEng ⟨rfl, rfl⟩

theorem InForm.retain {k : Nat} (h : InForm s) : InForm (s.retain k) := by
  unfold State.retain
  extract_lets t u
  have hu : InForm u := h.flushLocal.flushFar.settleFar.lapHold.foldl fun _ _ => (·.updThr)
  exact hu.updEng

theorem InForm.deregisterEngs {ks : List Nat} (h : InForm s) : InForm (s.deregisterEngs ks) := h.deregisterAll

theorem InForm.goDown {m : Mode} (h : InForm s) : InForm (s.goDown m) :=
  (h.deregisterEngs.foldl fun _ _ h =>
     h.ite (·.retain) (·.switchOff.setRegFld)).setPort.setPort.setMode.gateOn.beside.setRegFld

theorem InForm.tryDoze (h : InForm s) : InForm (s.tryDoze) := by
  simp only [State.tryDoze]
  split
  · exact h.unless (·.goDown)
  · exact h

theorem InForm.startEntry {m : Mode} (h : InForm s) : InForm (s.startEntry m) := by
  unfold State.startEntry
  extract_lets sys t u
  have ht : InForm t := h.beside
  have hu : InForm u := ht.foldl fun _ _ h => h.when (·.setChan)
  exact hu.tryDoze

theorem InForm.takeMode {id : Nat} {m : Mode} {port : Bool} {wait : Option Nat} (h : InForm s) :
    InForm (s.takeMode id m port wait).1 := by
  refine h.note.iteFst (fun h => h) fun h => h.iteFst (·.note) fun h => ?_
  split
  · exact h.enterSafe
  · exact h.ite (·.beside) (·.startEntry)
  · exact h.ite (·.beside) (·.startEntry)
  · exact h.setMode.beside
  · exact h.setMode.disown
  · exact h.setMode

theorem InForm.requestMode {id : Nat} {m : Mode} {port : Bool} {wait : Option Nat} (h : InForm s) :
    InForm (s.requestMode id m port wait).1 := by
  refine h.iteFst (fun h => h) fun h => ?_
  split
  · exact h.takeMode
  · exact h.iteFst (fun h => h) fun h => h.iteFst (·.undoRequest.takeMode) fun h => h

theorem InForm.modeReq {id : Nat} {v : Word} (h : InForm s) : InForm (s.modeReq id v) :=
  h.ite (·.clamp) fun h => h.requestMode.unless (·.setFlag)

theorem InForm.maskUp (h : InForm s) : InForm (s.maskUp) :=
  h.unless fun h => h.foldl fun _ _ h => h.unless (·.setRegFld.govQueue)

theorem InForm.porst (h : InForm s) : InForm (s.porst) := h.beside

/-- What a unit reset keeps of the memories holds no merge entry and no image that is staged (R427). -/
theorem InForm.cleared {mem : Memory} {ecc regs hinge pads sys kpr tap pins reply free pending} (h : InForm s)
    (hm : Memory.wf s.mem = true → Memory.wf mem = true) :
    InForm { mem, ecc, regs, hinge, pads, sys, kpr, tap, pins, reply, free, pending, nv := s.nv } :=
  (inForm_iff _).2 ⟨hm h.wf, ((inForm_iff s).1 h).2.1, nofun, nofun, nofun⟩

theorem InForm.unitReset {cause : Nat} {off : Bool} {por : Option Straps} (h : InForm s) :
    InForm (s.unitReset cause off por) := by
  unfold State.unitReset
  extract_lets t sys off src straps keepAddr keepSel kept r r1 r2 r3 r4
  have hr : InForm r := h.cutRaw.cutRing.cleared (Memory.wf_filter _ _)
  clear_value r
  have h1 : InForm r1 := hr.unless (·.setFlag)
  have h2 : InForm r2 := h1.unless (·.setRegFld)
  have h3 : InForm r3 := h2.unless (·.setReg)
  have h4 : InForm r4 := h3.when (·.setRegFld.setRegFld)
  exact h4.maskUp

theorem InForm.engineStart {k : Nat} (h : InForm s) : InForm (s.engineStart k) :=
  h.unless fun h => (h.when (·.setRegFld)).updThr.toReady

theorem InForm.admitHead (h : InForm s) : InForm (s.admitHead) := by
  simp only [State.admitHead]
  split
  · exact h
  · refine h.unless fun h =>
        (h.atCycle.beside.when (·.count)).setRegFld.raise.ite (·.updEng) fun h => h.unless fun h => ?_
    split
    · exact h.engineStart
    · exact h
    · exact h.updEng

theorem InForm.islandRuns {k : Nat} (h : InForm s) : InForm (s.islandRuns k) := by
  unfold State.islandRuns
  extract_lets e t u v w x y
  have ht : InForm t := h.setEng (h.entries k)
  have hu : InForm u := ht.foldl fun _ _ => (·.updThr)
  have hv : InForm v := hu.when (·.lapGo)
  have hw : InForm w := hv.foldl fun _ _ => (·.deliverEvent)
  have hx : InForm x := hw.when (·.engineStart)
  have hy : InForm y := hx.when (·.freezeThreads)
  exact hy.when (·.retain)

theorem InForm.lock {k : Nat} (h : InForm s) : InForm (s.lock k) :=
  h.unless fun h =>
    h.atCycle.ite (·.islandRuns) fun h =>
      h.ite (·.islandRuns.islandRuns) fun h => h.ite (·.updEng) (·.islandRuns)

theorem InForm.engPwrField {k n : Nat} (h : InForm s) : InForm (s.engPwrField k n) := by
  simp only [State.engPwrField]
  split
  · exact h.setRegFld.switchOff
  · split
    · exact h.govDrop.setRegFld.clamp
    · exact h.updEng
    · exact h.retain
    · exact h
  · split
    · exact h
    · exact h.updEng
    · exact h.govQueue

theorem InForm.wakeRecord {x : WakeSource} (h : InForm s) : InForm (s.wakeRecord x) := by
  simp only [State.wakeRecord]
  split
  · exact h.setFlag.setRegFld
  · exact h.setFlag

theorem InForm.govQueueAt {ks : List Nat} {c : Nat} (h : InForm s) : InForm (s.govQueueAt ks c) :=
  h.foldl fun _ _ => (·.govQueue.setRegFld.beside)

theorem InForm.wakeDoze (h : InForm s) : InForm (s.wakeDoze) :=
  h.pass.beside.setMode.gateOn.setReg.lfEnd.stepSched.govQueueAt

theorem InForm.wake {src : WakeSource} (h : InForm s) : InForm (s.wake src) := by
  refine h.unless fun h => ?_
  split
  · exact h.ite (·.wakeRecord) (·.wakeRecord.wakeDoze)
  · exact h.ite (·.wakeRecord) (·.wakeRecord.unitReset)
  · exact h.when (·.beside.setFlag)

theorem InForm.lfTick (h : InForm s) : InForm (s.lfTick) :=
  (h.note.unless (·.lfCaps.lfCopy.lfSteps)).unless fun h => h.unless fun h => h.setReg.when (·.beside)

theorem InForm.aonDone (h : InForm s) : InForm (s.aonDone) := by
  simp only [State.aonDone]
  split
  · exact h
  · split
    · refine h.beside.aonGone.ite (·.beside) fun h => h.ite (·.beside) fun h => ?_
      split
      · exact h.setReg
      · exact h
    · refine (h.beside.aonGone.ite (·.beside) fun h => h.ite (·.beside) fun h => ?_).updThr
      split
      · exact h.setReg
      · exact h

theorem InForm.aonBusy (h : InForm s) : InForm (s.aonBusy).1 :=
  h.iteFst (fun h => h) fun h => h.iteFst (fun h => h) fun h => h.iteFst (fun h => h) (·.drawBit)

theorem InForm.sysWrite {id off : Nat} {v : Word} (h : InForm s) : InForm (s.sysWrite id off v) := by
  simp only [State.sysWrite]
  split
  · exact h.modeReq
  · exact h.when (·.beside)
  · exact h.deregisterEngs.foldl fun _ _ => (·.engPwrField)
  · exact h.foldl fun _ _ => (·.queueStart)
  · exact h

end Sys2Proof

/-! SUPPORT. The forms of the state (O60): the Keeper, updates, the dictionary's requests, accesses of the address map. -/

namespace Sys2Proof

open Machine

variable {s t : State}

/-! ### The Keeper -/

theorem InForm.loadValue {mask : Nat} {a bits : Nat} {v : Word} (h : InForm s) : InForm (s.loadValue mask a bits v) :=
  h.unless fun h => h.setReg.clamp.when (·.setReg)

theorem InForm.loadCells {lo n : Nat} {cells : Memory} (h : InForm s) (hc : Memory.wf cells = true) :
    InForm (s.loadCells lo n cells) := by
  unfold State.loadCells
  extract_lets ecc t firsts
  have ht : InForm t := h.memory fun hm => wf_loadRange hm hc
  split
  · exact ht.markCode
  · exact ht

theorem InForm.loadImage {k : Nat} {x : EngImage} (h : InForm s) (hx : imageForm x = true) : InForm (s.loadImage k x) :=
  ((h.loadCells hx).foldl fun _ _ => (·.setReg)).setRegFld

theorem InForm.clampRoutes (h : InForm s) : InForm (s.clampRoutes) :=
  h.foldl fun _ _ h => h.unless fun h => (h.memory (wf_writeBytes _ _ _)).clamp

theorem InForm.loadProfile {p : Profile} (h : InForm s) (hp : profileForm p = true) : InForm (s.loadProfile p) := by
  obtain ⟨hward, hroutes, -⟩ := (profileForm_iff p).1 hp
  unfold State.loadProfile
  extract_lets mask a b c d e
  have ha : InForm a := h.foldl fun _ _ h => by
    split
    · exact h.loadValue
    · exact h
  have hb : InForm b := ((ha.loadCells hward).loadCells hroutes).clampRoutes
  have hc : InForm c := hb.setReg.setReg
  have hd : InForm d := hc.foldl fun t k h => by
    cases hx : p.image k with
    | none => exact h
    | some x => exact h.loadImage (imageForm_image hp hx)
  have he : InForm e := hd.elim fun _ => hd.setReg
  exact he.beside

theorem InForm.saveTable {lo n : Nat} (h : InForm s) :
    InForm (s.saveTable lo n).1 ∧ Memory.wf (s.saveTable lo n).2 = true := by
  refine List.foldlRecOn (motive := fun p : State × Memory => InForm p.1 ∧ Memory.wf p.2 = true) _ _ ⟨h, wf_saveRange h.wf⟩ ?_
  intro p hp key _
  obtain ⟨h, hm⟩ := hp
  replace h := h.readCode (key := key) (src := 0) (id := 289)
  generalize p.1.readCode key 0 289 = q at h ⊢
  obtain ⟨t, v⟩ := q
  cases v with
  | some v => exact ⟨h, wf_writeBytes _ _ _ hm⟩
  | none => exact ⟨h.drawWord.drawWord, wf_writeBytes _ _ _ hm⟩

theorem InForm.picture {p : Profile} (h : InForm s) (hp : profileForm p = true) :
    InForm (s.picture p).1 ∧ profileForm (s.picture p).2 = true := by
  have hw := h.saveTable (lo := 0x50080000) (n := wardBytes)
  have hr := hw.1.saveTable (lo := 0x60000000) (n := routeBytes)
  exact ⟨hr.1, (profileForm_iff _).2 ⟨hw.2, hr.2, ((profileForm_iff p).1 hp).2.2⟩⟩

theorem InForm.evalJournal (h : InForm s) : InForm (s.evalJournal) := by
  simp only [State.evalJournal]
  split
  · exact h
  · exact h.ite (·.besideNv) (·.setFlag.setReg.setReg)

theorem InForm.scanEnd (h : InForm s) : InForm (s.scanEnd) := h.beside.when (·.raise)

theorem InForm.readAnchors (h : InForm s) : InForm (s.readAnchors) := h.beside.setRegFld

theorem InForm.readJournal (h : InForm s) : InForm (s.readJournal) := h.when (·.evalJournal)

theorem InForm.portsAsSet (h : InForm s) : InForm (s.portsAsSet) := (h.unless (·.setPort)).unless (·.setPort)

theorem InForm.selected {p : Profile} {n : Nat} (h : InForm s) (hp : s.selected = (n, some p)) : profileForm p = true := by
  unfold State.selected at hp
  split at hp
  · cases hp
  next q hq =>
    split at hq
    · have hform := h.profiles _ (mem_of_tabFind _ _ _ hq)
      split at hp
      · cases hp
      · split at hp
        · cases hp
        · cases hp
          exact hform
    · cases hq

theorem InForm.recallEnd {key : Option (BitVec 256)} (h : InForm s) : InForm (s.recallEnd key) := by
  refine h.unless fun h => ?_
  have hprof := fun p n => h.selected (p := p) (n := n)
  generalize s.selected = r at hprof ⊢
  obtain ⟨stat, prof⟩ := r
  refine ((?_ : InForm _).readJournal.commitDone.beside.setMode.scanEnd.when (·.startLocal)).when (·.queueStart)
  cases prof with
  | none => exact (h.beside.readAnchors.loadCells rfl).loadCells rfl
  | some p => exact (h.beside.readAnchors.loadProfile (hprof p stat rfl)).portsAsSet

theorem InForm.nvReadyRises (h : InForm s) : InForm (s.nvReadyRises) := h.unless fun h => h.beside.when (·.maskUp)

theorem InForm.rescan {key : Option (BitVec 256)} (h : InForm s) : InForm (s.rescan key) := h.when (·.beside)

theorem InForm.rescanEnd (h : InForm s) : InForm (s.rescanEnd) := h.unless (·.readAnchors.readJournal.scanEnd)

theorem InForm.ringPut {i : Nat} {v : List Byte} {replace : Bool} (h : InForm s) : InForm (s.ringPut i v replace).1 :=
  h.iteFst (fun h => h) (·.beside)

theorem InForm.ringQueue {i : Nat} {v : List Byte} (h : InForm s) : InForm (s.ringQueue i v).1 :=
  h.iteFst (·.ringPut) fun h => h.iteFst (·.ringBusy.ringPut) (·.ringPut)

theorem InForm.tryWrite {r : RingItem} {v : List Byte} {bad j : Nat} {p : State × Tab (List Byte)} (h : InForm p.1) :
    InForm (r.tryWrite v bad p j).1 := h.iteFst (fun h => h) (·.drawNat)

theorem InForm.ringStep {failures : Nat} (h : InForm s) : InForm (s.ringStep failures) := by
  refine h.unless fun h => ?_
  split
  · exact h
  · split
    · exact h
    next i v q _ _ r _ =>
      extract_lets bad tries
      have hw : InForm ((upTo tries).foldl (r.tryWrite v bad) (s, r.store)).1 := h.foldlFst fun _ _ => (·.tryWrite)
      generalize (upTo tries).foldl (r.tryWrite v bad) (s, r.store) = p at hw ⊢
      obtain ⟨t, store⟩ := p
      exact (((hw.besideNv.count.count.when (·.beside.setFlag.raise))).when (·.raise)).tryDoze

theorem InForm.kprStart {id : Nat} {v : Word} {own : Option (List Byte)} (h : InForm s) : InForm (s.kprStart id v own) :=
  (h.when (·.clamp)).ite (·.setFlag) fun h => h.unless (·.beside)

theorem InForm.setLive {n : Nat} (h : InForm s) : InForm (s.setLive n) := h.drawNat.besideNv

theorem InForm.format {c : KprCmd} {nverr : Bool} (h : InForm s) : InForm (s.format c nverr).1 := by
  refine h.iteFst (fun h => h) fun h => ?_
  extract_lets raw
  generalize formatRings c.data = p
  obtain ⟨rings, n⟩ := p
  exact h.clamp.iteFst (fun h => h) fun h => h.iteFst (fun h => h) fun h => (h.setProfiles (List.forall_mem_nil _)).setLive.setRegFld

theorem InForm.kprRun {c : KprCmd} {nverr : Bool} (h : InForm s) : InForm (s.kprRun c nverr).1 := by
  refine h.iteFst (fun h => h) fun h => ?_
  split
  · exact h.iteFst (fun h => h) fun h => h
  · exact h.iteFst (fun h => h) fun h => h.iteFst (·.cutRaw) (·.rawPut.besideNv)
  · split <;> exact h
  · split
    · exact h
    · split <;> exact h.ringQueue.of_eq ‹_›
  · exact h.format

theorem InForm.kprFill (h : InForm s) : InForm (s.kprFill) := by
  simp only [State.kprFill]
  split
  · exact h
  · exact h.unless (·.drawNat.memory (wf_writeBytes _ _ _))

theorem InForm.kprResult {op id code : Nat} (h : InForm s) : InForm (s.kprResult op id code) :=
  h.setReg.raise.unless (·.raise)

theorem InForm.kprEnd {mismatches : Nat} {nverr : Bool} (h : InForm s) : InForm (s.kprEnd mismatches nverr).1 := by
  simp only [State.kprEnd]
  split
  · exact h
  · exact ((h.kprRun.when (·.count)).unless (·.memory (wf_writeBytes _ _ _))).beside.kprResult.tryDoze

theorem InForm.stored (h : InForm s) (n : Nat) : profileForm (tabGet {} s.nv.profiles n) = true := by
  unfold tabGet
  cases hn : tabFind s.nv.profiles n with
  | none => rfl
  | some p => exact h.profiles _ (mem_of_tabFind _ _ p hn)

theorem InForm.saveEnd {nverr : Bool} (h : InForm s) : InForm (s.saveEnd nverr) := by
  unfold State.saveEnd
  split
  · exact h
  next n _ =>
    extract_lets kpr t stat
    have ht : InForm t.drawBit.1 := (h.beside : InForm t).drawBit
    generalize t.drawBit = p at ht ⊢
    obtain ⟨u, fits⟩ := p
    have hp := ht.picture (ht.stored n)
    dsimp only at ht hp ⊢
    generalize u.picture (tabGet {} u.nv.profiles n) = q at hp ⊢
    obtain ⟨v, p⟩ := q
    exact (ht.ite (·.kprResult.beside) fun h => h.ite (·.kprResult.beside) fun h => h.ite (·.kprResult.beside) fun _ =>
      (hp.1.setProfiles (forall_mem_tabSet hp.1.profiles hp.2)).setRegFld.setLive.beside.kprResult.beside).tryDoze

theorem InForm.kprRead {id off : Nat} (h : InForm s) : InForm (s.kprRead id off).1 := by
  refine h.iteFst (·.kprFill) fun h => h.iteFst (fun h => h) fun h => ?_
  split
  · exact h
  · exact h
  · exact h
  · exact h
  · exact h.besideUpd
  · exact h
  · exact h

/-! ### Updates -/

theorem InForm.setReasonCode {c : Nat} (h : InForm s) : InForm (s.setReasonCode c) := h.setRegFld

theorem InForm.setReason {r : Reason} (h : InForm s) : InForm (s.setReason r) := h.setReasonCode

theorem InForm.updFail {r : Reason} (h : InForm s) : InForm (s.updFail r) := by
  refine InForm.setReason ?_
  exact h.setUpd (List.forall_mem_nil _) h.commit

theorem InForm.updIdle (h : InForm s) : InForm s.updIdle := h.setUpd (List.forall_mem_nil _) h.commit

theorem InForm.updAbort (h : InForm s) : InForm (s.updAbort) := h.unless (·.updIdle)

theorem InForm.updOpen {session : Word} {hd : List Byte} (h : InForm s) : InForm (s.updOpen session hd).1 :=
  h.iteFst (·.setReason) fun h => h.updIdle.iteFst (·.updFail) fun h => h.iteFst (·.updFail) (·.setReg.besideUpd)

theorem InForm.stageIn {k off : Nat} {bs : List Byte} (h : InForm s) : InForm (s.stageIn k off bs) :=
  h.ite (·.gateCount) fun h => h.storeBytes.foldl fun _ _ => (·.snoop)

theorem InForm.stage {off : Nat} {bs : List Byte} (h : InForm s) : InForm (s.stage off bs) :=
  (h.foldl fun _ _ => (·.stageIn)).besideUpd

theorem InForm.sealTry (h : InForm s) : InForm (s.sealTry) := h.when (·.besideUpd)

theorem InForm.sealAsk (h : InForm s) : InForm (s.sealAsk) := h.besideUpd.sealTry

theorem InForm.sealCmd (h : InForm s) : InForm (s.sealCmd) := h.unless fun h => h.ite (·.updFail) (·.sealAsk)

theorem InForm.zeroRest {k : Nat} (h : InForm s) : InForm (s.zeroRest k) := h.stageIn

theorem InForm.readPayload {k : Nat} (h : InForm s) : InForm (s.readPayload k).1 :=
  h.iteFst (·.gateCount) (·.loadBytes)

theorem InForm.verify {ks : List Nat} (h : InForm s) : InForm (s.verify ks).1 := by
  simp only [State.verify]
  split
  · exact h
  · exact h.readPayload.foldlFst fun _ _ => (·.readPayload)

theorem InForm.extent {k : Nat} {payload : List Byte} (h : InForm s) : imageForm (s.extent k payload) = true := by
  have hold : imageForm (tabGet {} (tabGet {} s.nv.profiles s.upd.profile).images k) = true := by
    have hi := ((profileForm_iff _).1 (h.stored s.upd.profile)).2.2
    generalize (tabGet {} s.nv.profiles s.upd.profile).images = l at hi ⊢
    unfold tabGet
    cases hk : tabFind l k with
    | none => rfl
    | some x => exact hi _ (mem_of_tabFind _ _ x hk)
  exact wf_loadRange hold (wf_saveRange (wf_writeBytes _ _ _ rfl))

theorem InForm.sealEnd {nverr : Bool} (h : InForm s) : InForm (s.sealEnd nverr) := by
  refine h.unless fun h => ?_
  extract_lets ks fail t
  have hfail (u : State) (r : Reason) (hu : InForm u) : InForm (fail u r) := hu.updFail.raise.raise.tryDoze
  have ht : InForm t := h.foldl fun _ _ => (·.zeroRest)
  clear_value fail t
  have hv := ht.verify (ks := ks)
  split
  next he => exact hfail _ _ (hv.of_eq he)
  next u payload he =>
    have hu : InForm u := hv.of_eq he
    split
    · exact hfail _ _ hu
    · refine hu.ite (hfail _ _) fun hu => hu.ite (hfail _ _) fun hu => ?_
      have hb := hu.drawBit
      generalize u.drawBit = p at hb ⊢
      obtain ⟨w, fits⟩ := p
      dsimp only at hb
      refine hb.ite (hfail _ _) fun hw => ?_
      extract_lets ext
      have hext : ∀ x ∈ ext, imageForm x.2 = true :=
        List.foldlRecOn (motive := fun l : Tab EngImage => ∀ x ∈ l, imageForm x.2 = true) ks _ nofun
          fun l hl k _ => forall_mem_tabSet hl hw.extent
      refine InForm.tryDoze (InForm.raise ?_)
      exact hw.setUpd hext hw.commit

theorem InForm.updRelocate (h : InForm s) : InForm (s.updRelocate) := (h.foldl fun _ _ => (·.relocate)).setReg.flip

theorem InForm.updRestart {ks : List Nat} (h : InForm s) : InForm (s.updRestart ks) :=
  (h.setReg.foldl fun _ _ => (·.engineReset)).flip

theorem InForm.judged (h : InForm s) : InForm (s.judged) := h.when (·.besideUpd)

theorem InForm.activate (h : InForm s) : InForm s.activate := by
  refine h.unless fun h => ?_
  extract_lets verdict upd t upd2 u hd ks a b c version
  have ht : InForm t := h.besideUpd
  clear_value t
  refine ht.unless fun ht => ht.ite (fun ht => InForm.setReasonCode ?_) fun ht => InForm.raise ?_
  · exact ht.besideUpd
  · have ha : InForm a := ht.foldl fun _ _ => (·.setRegFld)
    have hb : InForm b := ha.ite (·.updRestart) (·.updRelocate)
    have hc : InForm c := hb.setReg.count
    refine hc.setUpd (List.forall_mem_nil _) fun c hc => ?_
    cases hc
    exact ht.extents

theorem InForm.updSchedule {t : Time64} (h : InForm s) : InForm (s.updSchedule t).1 := by
  refine h.activate.iteFst (fun h => h.when (·.besideUpd)) fun h => ?_
  split
  · exact h.setReason
  · exact h.besideUpd

theorem InForm.updCommit {nverr : Bool} (h : InForm s) : InForm (s.updCommit nverr) := by
  unfold State.updCommit
  split
  · exact h
  next n hd ext he =>
    have hext := h.commit _ he
    extract_lets upd t order p images mask nv u
    have ht : InForm t := h.setUpd h.extents nofun
    have hp := (profileForm_iff p).1 (ht.stored n)
    have himages : ∀ x ∈ images, imageForm x.2 = true :=
      List.foldlRecOn (motive := fun l : Tab EngImage => ∀ x ∈ l, imageForm x.2 = true) ext _ hp.2.2
        fun l hl x hx => forall_mem_tabSet hl (hext x hx)
    have hnew : profileForm { p with images := images, mask := mask } = true := (profileForm_iff _).2 ⟨hp.1, hp.2.1, himages⟩
    have hu : InForm u := ht.ite (·.setFlag.raise) fun ht =>
      (ht.setProfiles (forall_mem_tabSet ht.profiles hnew)).setRegFld.setLive
    exact hu.tryDoze

theorem InForm.updIgnore (h : InForm s) : InForm (s.updIgnore) := h.count

theorem InForm.stager {pl : List Byte} (h : InForm s) : InForm (s.stager pl) := by
  simp only [State.stager]
  split
  · exact h.updOpen
  · exact h.ite (·.updIgnore) fun h => h.stage.ite (·.sealAsk) (·.sealTry)
  · exact h.ite (·.updAbort) fun h => h.ite (·.updAbort.updIgnore) (·.updIgnore)
  · exact h.updIgnore

theorem InForm.updateFrame {p : Port} {f : Frame} (h : InForm s) : InForm (s.updateFrame p f) := by
  refine h.unless fun h => ?_
  split
  · exact h.fresh.of_eq ‹_›
  · have h := h.fresh.of_eq ‹_›
    exact h.upBuf.unless (·.stager.setRegFld)

theorem InForm.updCtl {v : Word} (h : InForm s) : InForm (s.updCtl v) :=
  ((h.when (·.clearCount.clearCount)).when (·.sealCmd)).when (·.updAbort)

/-! ### Requests of the dictionary -/

theorem InForm.sendDr {hd : DictHeader} {payload : List Byte} (h : InForm s) : InForm (s.sendDr hd payload) := by
  refine h.unless fun h => ?_
  dsimp only
  split
  · exact h.beside.queueOwn
  · exact h.beside.beside

theorem InForm.respond {hd : DictHeader} {cmd : Nat} {last : Bool} {st : Status} {data : List Byte} (h : InForm s) :
    InForm (s.respond hd cmd last st data) :=
  h.sendDr

theorem InForm.dfwClear (h : InForm s) : InForm (s.dfwClear) := h.setRegFld.setRegFld.beside

theorem InForm.dfwRequest {hd : DictHeader} {cmd : Nat} {data : List Byte} (h : InForm s) : InForm (s.dfwRequest hd cmd data) :=
  h.storeBytes.setRegFld.setRegFld.beside.raiseLater

theorem InForm.dfwCommit {v : Word} (h : InForm s) : InForm (s.dfwCommit v) := by
  simp only [State.dfwCommit]
  split
  · exact h.clamp.setFlag
  · split
    · exact h.clamp.loadBytes.dfwClear.respond
    · exact h.clamp.loadBytes.dfwClear.sendDr

/-! ### Accesses of the address map -/

theorem InForm.fieldWrite {a : Nat} {v : Word} (h : InForm s) : InForm (s.fieldWrite a v) := by
  simp only [State.fieldWrite]
  split
  · exact h
  · exact h.setReg.clamp

theorem InForm.kprWrite {id off : Nat} {v : Word} (h : InForm s) : InForm (s.kprWrite id off v) := by
  refine h.ite (·.kprFill.memory (wf_writeWord _ _ _)) fun h => ?_
  split
  · exact (h.when (·.clearCount.clearCount)).when (·.ackFlag.setReg.setReg.besideNv)
  · exact h.kprStart
  · exact h.updCtl
  · exact h

theorem InForm.sysHighWrite {id off : Nat} {old v : Word} (h : InForm s) : InForm (s.sysHighWrite id off old v) :=
  h.ite (·.engWrite) fun h =>
    h.ite (·.trpWrite) fun h =>
      h.ite (·.dbgCtlWritten) fun h =>
        h.ite (·.ctxData) fun h =>
          h.ite (·.mData) fun h =>
            h.ite (·.dbgWrite) fun h =>
              h.ite (·.eccWrite) fun h =>
                h.ite (·.scnWrite) fun h => h.ite (·.dfwCommit) fun h => h.when (·.shkWrite)

theorem InForm.regAction {id a : Nat} {old v : Word} (h : InForm s) : InForm (s.regAction id a old v) := by
  simp only [State.regAction]
  split
  · exact h.tmrWrite
  · exact h.hfWrite
  · exact h.padWrite
  · exact h.shWrite
  · exact h.tumWrite
  · exact h.chWrite
  · exact h.kprWrite
  · exact h.ite (·.sysWrite) (·.sysHighWrite)

theorem InForm.writeActs {id a : Nat} {v : Word} (h : InForm s) : InForm (s.writeActs id a v) :=
  h.fieldWrite.regAction

theorem InForm.regWrite {id a : Nat} {v : Word} (h : InForm s) : InForm (s.regWrite id a v) :=
  h.unless fun h =>
    h.ite (·.beside) fun h => ((h.landsAfter.when (·.pass)).when (·.settlePads)).noteWrites.writeActs

theorem InForm.imageUse {id a n : Nat} (h : InForm s) : InForm (s.imageUse id a n) := h.when (·.imageCycles)

theorem InForm.busWrite {id a : Nat} {v : Word} (h : InForm s) : InForm (s.busWrite id a v).1 :=
  h.iteFst (·.imageUse.storeIn) fun h =>
    h.iteFst (fun h => h) fun h => h.iteFst (·.gateCount) fun h => h.iteFst (fun h => h) (·.regWrite)

theorem InForm.sysHighRead {id off : Nat} (h : InForm s) : InForm (s.sysHighRead id off).1 :=
  h.iteFst (fun h => h) fun h =>
    h.iteFst (·.ctxData) fun h =>
      h.iteFst (·.mData) fun h =>
        h.iteFst (fun h => h) fun h => h.iteFst (fun h => h) fun h => h.iteFst (fun h => h) fun h => h

theorem InForm.regRead {id a : Nat} (h : InForm s) : InForm (s.regRead id a).1 := by
  simp only [State.regRead]
  split
  · exact h.tmrRead
  · exact h.hfRead
  · exact h.padRead
  · exact h
  · exact h.tumRead
  · exact h.chRead
  · exact h.kprRead
  · exact h.iteFst (·.aonBusy) fun h => h.iteFst (fun h => h) (·.sysHighRead)

theorem InForm.busRead {id a n : Nat} (h : InForm s) : InForm (s.busRead id a n).1 := by
  refine h.iteFst (fun h => ?_) fun h => h.iteFst (fun h => h) fun h => h.iteFst (·.gateCount) (·.regRead)
  split <;> exact h.imageUse.loadIn.of_eq ‹_›

theorem InForm.tapLands (h : InForm s) : InForm (s.tapLands) := by
  simp only [State.tapLands]
  split
  · exact h.drawBit.when (·.busWrite)
  · exact h

theorem InForm.resetNow {cause : Nat} (h : InForm s) : InForm (s.resetNow cause) := h.tapLands.unitReset

theorem InForm.settle (h : InForm s) : InForm (s.settle) := h.ite (·.resetNow) (·.tryDoze)

theorem InForm.masterErr {id a : Nat} {c : Trap} {info : Word} (h : InForm s) : InForm (s.masterErr id a c info) :=
  h.ite (·.updThr) fun h => h.when (·.chanHalt)

theorem InForm.inTurn {id a : Nat} (h : InForm s) : InForm (s.inTurn id a) := h.when (·.padCatch)

theorem InForm.masterTurn {id a : Nat} (h : InForm s) : InForm (s.masterTurn id a) :=
  h.when (·.landNotes.flushFar.inTurn)

theorem InForm.masterWrite {id a : Nat} {v : Word} (h : InForm s) : InForm (s.masterWrite id a v) := by
  refine h.unless fun h => ?_
  split
  · have h := h.masterTurn.busWrite.of_eq ‹_›
    exact h.settle
  · have h := h.masterTurn.busWrite.of_eq ‹_›
    exact h.masterErr

theorem InForm.masterRead {id a : Nat} (h : InForm s) : InForm (s.masterRead id a) := by
  refine h.unless fun h => ?_
  split
  · have h := h.masterTurn.busRead.of_eq ‹_›
    exact h.beside
  · have h := h.masterTurn.busRead.of_eq ‹_›
    exact h.masterErr.beside

end Sys2Proof

/-! SUPPORT. The forms of the state (O60): running Shuttle channels, the dictionary's objects, the fabric's events. -/

namespace Sys2Proof

open Machine

variable {s t : State}

/-! ### Running Shuttle channels -/

theorem InForm.engLoad {k a n id : Nat} (h : InForm s) : InForm (s.engLoad k a n id).1 :=
  h.foldlFst fun _ _ => (·.flushLocalAt.readCode)

theorem InForm.engStore {k a n v : Nat} (h : InForm s) : InForm (s.engStore k a n v) :=
  h.foldl fun _ _ h => h.flushLocalAt.writeCode.when (·.snoop)

theorem InForm.shLoad {c a n : Nat} (h : InForm s) : InForm (s.shLoad c a n).1 := by
  simp only [State.shLoad]
  split
  · exact h.iteFst (·.engLoad) (·.gateCount)
  · refine h.iteFst (·.loadIn (n := n)) fun h => h.iteFst (fun h => h) fun h => ?_
    split <;> exact h.busRead.of_eq ‹_›

theorem InForm.shStore {c a n v : Nat} (h : InForm s) : InForm (s.shStore c a n v).1 := by
  simp only [State.shStore]
  split
  · exact h.iteFst (·.engStore) (·.gateCount)
  · refine h.iteFst (·.storeIn) fun h => h.iteFst (fun h => h) fun h => ?_
    split <;> exact h.busWrite.of_eq ‹_›

theorem InForm.descWords {c a : Nat} (h : InForm s) : InForm (s.descWords c a).1 := by
  refine h.foldlFst fun _ _ h => ?_
  split
  · exact h
  · split <;> exact h.shLoad.of_eq ‹_›

theorem InForm.chanFetch {c : Nat} (h : InForm s) : InForm (s.chanFetch c) := by
  refine h.unless fun h => h.ite (·.chanHalt) fun h => ?_
  split
  · have h := h.descWords.of_eq ‹_›
    exact h.chanHalt
  · have h := h.descWords.of_eq ‹_›
    exact h.ite (·.chanHalt) fun h => h.updChan.when (·.chanAcquire)

theorem InForm.chanElement {c : Nat} (h : InForm s) : InForm (s.chanElement c) := by
  simp only [State.chanElement]
  split
  · exact h
  · refine h.unless fun h => ?_
    split
    · have h := h.shLoad.of_eq ‹_›
      exact h.chanHalt
    · have h := h.shLoad.of_eq ‹_›
      split
      · have h := h.shStore.of_eq ‹_›
        exact h.chanHalt
      · have h := h.shStore.of_eq ‹_›
        exact h.updChan.chanBoundary

theorem InForm.chanRelease {c : Nat} (h : InForm s) : InForm (s.chanRelease c) := h.chanUnlock.updChan

theorem InForm.chanDone {c : Nat} (h : InForm s) : InForm (s.chanDone c) := by
  simp only [State.chanDone]
  split
  · exact h
  · exact h.unless fun h =>
        ((h.when (·.chanRelease)).when (·.raise)).setRegFld.setReg.updChan.ite (·.updChan) (·.chanBoundary)

/-! ### Accesses of the dictionary -/

theorem InForm.engBytes {k a n : Nat} (h : InForm s) : InForm (s.engBytes k a n).1 :=
  h.foldlFst fun _ _ => (·.engLoad)

theorem InForm.engPut {k a : Nat} {bs : List Byte} (h : InForm s) : InForm (s.engPut k a bs).1 := by
  refine h.foldlFst fun _ _ h => h.iteFst (fun h => h) fun h => h.iteFst (·.engStore) fun h => ?_
  split
  · have h := h.engLoad.of_eq ‹_›
    exact h.engStore
  · exact h.engLoad.of_eq ‹_›

theorem InForm.domainRead {t : Target} {off n : Nat} (h : InForm s) : InForm (s.domainRead t off n).1 := by
  simp only [State.domainRead]
  split
  · exact h
  · exact h
  · exact h.iteFst (·.engBytes) (·.gateCount)
  · exact h.loadBytes
  · split
    · exact h.iteFst (·.engBytes) (·.gateCount)
    · exact h
  · exact h

theorem InForm.domainWrite {t : Target} {off : Nat} {bs : List Byte} (h : InForm s) : InForm (s.domainWrite t off bs).1 := by
  simp only [State.domainWrite]
  split
  · exact h.memory (wf_writeBytes _ _ _)
  · exact h.iteFst (·.engPut) (·.gateCount)
  · exact h.storeBytes
  · exact h.iteFst (·.stage) fun h => h
  · exact h

theorem InForm.targetRead {t : Target} (h : InForm s) : InForm (s.targetRead t).1 := by
  simp only [State.targetRead]
  split
  · exact h
  · split <;> exact h.busRead.of_eq ‹_›
  · exact h.iteFst (fun h => h) (·.gateCount)
  · exact h.readRoute
  · exact h.readCode
  · exact h.iteFst (·.gateCount) (·.stampOut)
  · exact h.iteFst (fun h => h) (·.busRead)
  · exact h
  · exact h
  · exact h.kprFill
  · exact h
  · exact h
  · exact h
  · exact h
  · exact h
  · exact h

theorem InForm.clampTo {v target : Nat} (h : InForm s) : InForm (s.clampTo v target) := h.clamp

theorem InForm.modeWrite {r : DictHeader} {v : Nat} (h : InForm s) : InForm (s.modeWrite r v).1 := by
  refine h.clampTo.beside.iteFst (fun h => h) fun h => ?_
  split
  · exact h.requestMode.of_eq ‹_›
  · have h := h.requestMode.of_eq ‹_›
    exact h.iteFst (·.beside) fun h => h

theorem InForm.keepSelection {v : Nat} (h : InForm s) : InForm (s.keepSelection v) := h.beside

theorem InForm.profileOf {v : Nat} (h : InForm s) : InForm (s.profileOf v).1 := h.clampTo

theorem InForm.targetWrite {r : DictHeader} {t : Target} {bs : List Byte} (h : InForm s) : InForm (s.targetWrite r t bs).1 := by
  simp only [State.targetWrite]
  split
  · exact h.busWrite
  · exact h.iteFst (·.ctxWrite) (·.gateCount)
  · exact h.clamp.writeRoute
  · exact h.clampTo.landLanes
  · exact h.modeWrite
  · exact h.when (·.beside)
  · exact h.profileOf.when (·.keepSelection)
  · exact h.profileOf.keepSelection.beside
  · exact h.profileOf.beside
  · exact h.kprFill.memory (wf_writeBytes _ _ _)
  · exact h.clampTo.beside
  · exact h.beside
  · exact h.clampTo.ite (·.sealCmd) fun h => h.when (·.updAbort)
  · exact h.updOpen
  · exact h.updSchedule
  · exact h.clampTo.beside
  · exact h

/-! ### Events of the fabric -/

theorem InForm.stampFor {ch : Nat} {stamp : Option Time64} (h : InForm s) : InForm (s.stampFor ch stamp).1 := by
  refine h.iteFst (fun h => h) fun h => ?_
  cases stamp with
  | none => exact h.drawWord.drawWord
  | some t => exact h

theorem InForm.wdExpire {id : Nat} (h : InForm s) : InForm (s.wdExpire id) := by
  simp only [State.wdExpire]
  split
  · exact h
  · exact h.unless (·.atCycle.updThr)

theorem InForm.entryTurn {k t : Nat} (h : InForm s) : InForm (s.entryTurn k t) := by
  refine h.unless fun h => ?_
  split
  case h_1 | h_2 =>
    split
    · exact h
    · split
      · exact h
      · exact h.takePosition.takeBoundary
  case h_3 =>
    split
    case h_5 => exact h
    all_goals
      split
      · exact h.leaveWait.takePosition.takeBoundary
      · exact h.leaveWait
  case h_4 => exact h

theorem InForm.latchTask {n : Nat} (h : InForm s) : InForm (s.latchTask n) :=
  h.ite (fun h => h.ite (·.padForce) fun h => h.when (·.padHold)) fun h =>
    h.when fun h => h.ite (·.beside) fun h => h.when (·.beside)

theorem InForm.fireSlot {i : Fin 32} (h : InForm s) : InForm (s.fireSlot i) := by
  simp only [State.fireSlot]
  split
  · exact h
  · exact ((h.foldl fun _ _ => (·.latchTask)).when (·.setFlag)).when (·.wake)

/-! ### The dictionary agent -/

theorem InForm.joinQueue {q : Byte × Bool × List Byte} {src : Source} (h : InForm s) : InForm (s.joinQueue q src) :=
  h.unless (·.beside)

theorem InForm.takeRequest {r : DictHeader} {cmd : Nat} {data : List Byte} (h : InForm s) :
    InForm (s.takeRequest r cmd data) := by
  simp only [State.takeRequest]
  split <;> exact h.beside

theorem InForm.closeTransfer {src : Source} {tag : Byte} (h : InForm s) : InForm (s.closeTransfer src tag) := h.beside

theorem InForm.putTransfer {t : Transfer} (h : InForm s) : InForm (s.putTransfer t) := h.closeTransfer.beside

theorem InForm.kprAsk {q : KprReq} {op arg : Nat} {bs : List Byte} (h : InForm s) : InForm (s.kprAsk q op arg bs) :=
  h.ite (·.kprStart.beside) (·.respond.closeTransfer)

theorem InForm.serveRead {r : DictHeader} (h : InForm s) : InForm (s.serveRead r) := by
  simp only [State.serveRead]
  split
  · exact h.respond
  · refine h.ite (·.respond) fun h => h.ite (·.respond) fun h => h.ite (·.respond) fun h => ?_
    split
    · exact h.kprAsk
    · split
      · have h := h.targetRead.of_eq ‹_›
        exact h.respond
      · have h := h.targetRead.of_eq ‹_›
        exact h.respond

theorem InForm.serveWrite {r : DictHeader} {data : List Byte} (h : InForm s) : InForm (s.serveWrite r data) := by
  simp only [State.serveWrite]
  split
  · exact h.respond
  · refine h.ite (·.respond) fun h =>
        h.ite (·.respond) fun h => h.ite (·.respond) fun h => h.ite (·.respond) fun h => ?_
    split
    · exact h.kprAsk
    · exact h.targetWrite.respond

theorem InForm.openTransfer {r : DictHeader} {write : Bool} {total : Nat} {staged : List Byte} (h : InForm s) :
    InForm (s.openTransfer r write total staged) :=
  h.putTransfer

theorem InForm.initRead {r : DictHeader} {o : Obj} {n : Nat} {staged : List Byte} (h : InForm s) :
    InForm (s.initRead r o n staged) :=
  h.respond.unless (·.openTransfer)

theorem InForm.serveReadInit {r : DictHeader} (h : InForm s) : InForm (s.serveReadInit r) := by
  simp only [State.serveReadInit]
  split
  · exact h.closeTransfer.respond
  · refine h.closeTransfer.ite (·.respond) fun h => h.ite (·.respond) fun h => h.ite (fun h => ?_) (·.initRead)
    split
    · have h := h.targetRead.of_eq ‹_›
      exact h.initRead
    · have h := h.targetRead.of_eq ‹_›
      exact h.respond

theorem InForm.serveWriteInit {r : DictHeader} {data : List Byte} (h : InForm s) : InForm (s.serveWriteInit r data) := by
  simp only [State.serveWriteInit]
  split
  · exact h.closeTransfer.respond
  · exact h.closeTransfer.ite (·.respond) fun h =>
        h.ite (·.respond) fun h =>
          h.ite (·.respond) fun h => h.ite (·.respond) fun h => h.respond.unless (·.openTransfer)

theorem InForm.segError {r : DictHeader} {e : Status} (h : InForm s) : InForm (s.segError r e) :=
  h.respond.closeTransfer

theorem InForm.readSegment {r : DictHeader} {o : Obj} {t : Transfer} {off n : Nat} (h : InForm s) :
    InForm (s.readSegment r o t off n) := by
  refine (h.ite (·.closeTransfer) (·.putTransfer)).ite (·.respond) fun h => ?_
  split
  · exact h.kprAsk
  · split
    next t bs he =>
      have h : InForm t := by
        refine InForm.of_eq ?_ he
        exact h.iteFst (·.domainRead) (·.targetRead)
      split
      · exact h.respond
      · exact h.segError

theorem InForm.takeStaged {r : DictHeader} {o : Obj} {bs : List Byte} (h : InForm s) : InForm (s.takeStaged r o bs) := by
  refine h.closeTransfer.ite (·.respond) fun h => ?_
  split
  · exact h.kprAsk
  · exact h.targetWrite.respond

theorem InForm.writeSegment {r : DictHeader} {o : Obj} {t : Transfer} {off : Nat} {data : List Byte} {last : Bool}
    (h : InForm s) :
    InForm (s.writeSegment r o t off data last) := by
  refine h.ite (fun h => h.ite (·.segError) fun h => ?_) fun h => h.ite (·.takeStaged) (·.putTransfer.respond)
  split
  · have h := h.domainWrite.of_eq ‹_›
    exact h.segError
  · have h := h.domainWrite.of_eq ‹_›
    exact ((h.ite (·.closeTransfer) (·.putTransfer)).when fun h => h.ite (·.sealAsk) (·.sealTry)).respond

theorem InForm.serveSegment {r : DictHeader} {data : List Byte} {room : Nat} (h : InForm s) :
    InForm (s.serveSegment r data room) := by
  refine h.ite (·.respond) fun h => ?_
  split
  · exact h.respond
  · dsimp only
    split
    · exact h.segError
    · refine h.ite (fun h => ?_) fun h => h.ite (·.readSegment) fun h => h.ite (·.segError) (·.readSegment)
      split
      · exact h.segError
      · exact h.ite (·.writeSegment) fun h => h.ite (·.segError) fun h => h.ite (·.segError) (·.writeSegment)

theorem InForm.serveAbort {r : DictHeader} (h : InForm s) : InForm (s.serveAbort r) := by
  refine h.ite (·.respond) fun h => ?_
  split
  · exact h.respond
  · exact h.respond.closeTransfer

theorem InForm.serveTaken {r : DictHeader} {cmd : Nat} {data : List Byte} {room : Nat} (h : InForm s) :
    InForm (s.serveTaken r cmd data room) := by
  refine h.ite (fun h => h.ite (·.respond) fun h => h.ite (·.dfwRequest) (·.respond)) fun h => ?_
  split
  · exact h.serveRead
  · exact h.serveWrite
  · exact h.serveReadInit
  · exact h.serveWriteInit
  · exact h.serveSegment
  · exact h.serveAbort
  · exact h

theorem InForm.noteClamp {before : Nat} {r : DictHeader} (h : InForm s) : InForm (s.noteClamp before r) :=
  h.unless (·.beside)

theorem InForm.serve {r : DictHeader} {cmd : Nat} {data : List Byte} {room : Nat} (h : InForm s) :
    InForm (s.serve r cmd data room) :=
  h.unless fun h => h.ite (·.joinQueue) (·.takeRequest.serveTaken.noteClamp)

theorem InForm.kprAnswer {code : Nat} {bs : List Byte} (h : InForm s) : InForm (s.kprAnswer code bs) := by
  simp only [State.kprAnswer]
  split
  · exact h
  · exact h.beside.ite (·.respond) (·.respond.closeTransfer)

end Sys2Proof

/-! SUPPORT. The forms of the state (O60): far instructions, divides, the test port. -/

namespace Sys2Proof

open Machine

variable {s t : State}

/-! ### Far instructions -/

theorem InForm.request {id : Nat} {isle : Isle} {phase : FarPhase} {dests : List (Dest × Word)} {err : Option (Trap × Word)}
    (h : InForm s) :
    InForm (s.request id isle phase dests err) :=
  h.updThr

theorem fits_farNext {id : Nat} (h : InForm s) : (farNext id s).Fits := .ite h h

theorem InForm.farBeat {b : Beat} {reads : List Dest} {body : Nat → State → Act} (h : InForm s)
    (hb : ∀ id t, InForm t → (body id t).Fits) : InForm (Machine.farBeat b reads body s) :=
  (h.beat fun id _ h => hb id _ h.landNotes.flushFar).settle

theorem InForm.answered {id a : Nat} {ans : Answer} {dests : List (Dest × Word)} (h : InForm s) :
    InForm (s.answered id a ans dests) := by
  simp only [State.answered]
  split <;> exact h.request

theorem fits_farCheck {n : Nat} {ea : Word} {ok : Nat → Bool} {a : Act} (ha : a.Fits) : (farCheck n ea ok a).Fits :=
  .ite trivial (.ite trivial ha)

theorem InForm.farLoad {n : Nat} {signed : Bool} {b : Beat} {rd ra : Reg} {imm : BitVec 14} (h : InForm s) :
    InForm (Machine.farLoad n signed b rd ra imm s) := by
  refine h.farBeat fun id t h => fits_farCheck ?_
  replace h := (h.inTurn (id := id) (a := (ea14 (t.thr id) ra imm).toNat)).busRead (id := id)
    (a := (ea14 (t.thr id) ra imm).toNat) (n := n)
  generalize (t.inTurn id (ea14 (t.thr id) ra imm).toNat).busRead id (ea14 (t.thr id) ra imm).toNat n = p at h ⊢
  exact fits_farNext h.answered

theorem mergeEntry_form {id a n v : Nat} (h : InForm s) (hn : a % 8 + n ≤ 8) (hi : inImage a = true) :
    farForm (id / 16) (mergeEntry s id a n v) = true := by
  have hold : LanesFit 8 ((s.eng (id / 16)).farMerge.getD ⟨a - a % 8, [], id, s.cycle⟩).lanes := by
    have he := (h.entries (id / 16)).2
    cases hm : (s.eng (id / 16)).farMerge with
    | none => exact ⟨rfl, nofun⟩
    | some m =>
      simp only [hm, Option.all_some, farForm, Bool.and_eq_true, decide_eq_true_eq, List.all_eq_true] at he
      exact ⟨he.1.1.2, he.1.2⟩
  obtain ⟨hsorted, hlanes⟩ := joined_fit (new := lanesOf (a % 8) n v) hold fun l hl => by have := mem_lanesOf hl; omega
  simp only [inImage, Bool.and_eq_true, decide_eq_true_eq] at hi
  simp only [farForm, mergeEntry, inImage, Bool.and_eq_true, decide_eq_true_eq, List.all_eq_true]
  exact ⟨⟨⟨⟨decide_eq_true (by omega), decide_eq_true (by omega), decide_eq_true (by omega)⟩, hsorted⟩, hlanes⟩, trivial⟩

theorem InForm.storeFar {id a n v : Nat} (h : InForm s) (hn : a % 8 + n ≤ 8) (hi : inImage a = true) :
    InForm (s.storeFar id a n v) := by
  rw [storeFar_eq]
  have hroom : InForm (mergeRoom s id a) := h.when (·.flushFar)
  generalize mergeRoom s id a = r at hroom ⊢
  have hentry := mergeEntry_form (id := id) (v := v) hroom hn hi
  have hstored : InForm (mergeStored r id a n v) :=
    (hroom.updEng (f := ({ · with farMerge := some (mergeEntry r id a n v) })) fun e he => ⟨he.1, hentry⟩).request
  exact hstored.when (·.flushFar)

theorem InForm.storeReg {id a : Nat} {v : Word} (h : InForm s) : InForm (s.storeReg id a v) := by
  simp only [State.storeReg]
  split
  · have h := h.flushFar.inTurn.busWrite.of_eq ‹_›
    exact h.request
  · have h := h.flushFar.inTurn.busWrite.of_eq ‹_›
    exact h.request

theorem InForm.farStore {n : Nat} {b : Beat} {rd ra : Reg} {imm : BitVec 14} (h : InForm s) (hn : n = 1 ∨ n = 2 ∨ n = 4) :
    InForm (Machine.farStore n b rd ra imm s) := by
  refine (h.beat fun id t h => ?_).settle
  replace h := h.landNotes (id := id)
  dsimp only
  unfold farCheck
  split
  · exact trivial
  next halign =>
    split
    · exact trivial
    · split
      next hi => exact h.storeFar (by obtain rfl | rfl | rfl := hn <;> omega) hi
      · exact fits_farNext h.storeReg

theorem InForm.farBit {new : Thread → Option Bool} {b : Beat} {reads : List Dest} {rd ra : Reg} {off : BitVec 9} {i : BitVec 5}
    (h : InForm s) : InForm (Machine.farBit new b reads rd ra off i s) := by
  refine h.farBeat fun id t h => fits_farCheck ?_
  replace h := (h.landsAfter (id := id) (a := (eaBit (t.thr id) ra off).toNat)).imageCycles (n := 2)
  dsimp only
  split
  next he => exact (h.readCode.of_eq he).request
  next he =>
    replace h := h.readCode.of_eq he
    split
    · exact h.noteWrites.writeCode.request
    · exact h.request

theorem InForm.padSend {r : PadReq} {dests : List (Dest × Word)} (h : InForm s) : InForm (s.padSend r dests) :=
  h.request.updEng

theorem InForm.flushOwn {id : Nat} (h : InForm s) : InForm (s.flushOwn id) :=
  (h.foldl fun _ _ h => h.when (·.flushLocal)).when (·.flushFar)

/-! ### Divides -/

theorem InForm.divide {f : Word → Word → Word × Bool} {b : Beat} {rd ra rb : Reg} {cut : DivCut} (h : InForm s) :
    InForm (Machine.divide f b rd ra rb cut s) := by
  refine h.beat fun id t h => ?_
  have hs : InForm (if (t.thr id).div.isSome then t else t.setThr id ((t.thr id).cancel (.reg rd))) := h.unless (·.setThr)
  cases cut with
  | whole => exact hs.updThr
  | part => exact hs.updThr
  | event k =>
    dsimp only
    split
    · exact hs.deliverEvent.updThr.takeInt
    · exact hs.deliverEvent.updThr

/-! ### Events of the pads -/

theorem InForm.commitPads {c : Time64} (h : InForm s) : InForm (s.commitPads c) :=
  h.foldl fun _ _ h => h.when (·.place)

theorem InForm.commitGate (h : InForm s) : InForm (s.commitGate) := by
  simp only [State.commitGate]
  split
  · exact h.unless fun h => h.ite (·.gateOff.ownership) (·.gateOff)
  · exact h.gateOff
  · exact h.when (·.gateOn)
  · exact h

theorem InForm.outputCommit (h : InForm s) : InForm (s.outputCommit) := by
  simp only [State.outputCommit]
  split
  · exact h
  · exact h.unless (·.pass.commitPads.atChain.raise.beside.passLate.ownCommit.commitGate.ownCommit)

theorem InForm.padEdge {p : Nat} {level : Bool} {sub : BitVec 6} (h : InForm s) : InForm (s.padEdge p level sub) :=
  h.edge.foldl fun _ _ => (·.fireSlot)

/-! ### The ports -/

theorem InForm.lrpReject (h : InForm s) : InForm (s.lrpReject) := h.beside

theorem InForm.ackResponse (h : InForm s) : InForm (s.ackResponse) := h.when (·.drGone.beside)

theorem InForm.lrpCtl {v : Word} (h : InForm s) : InForm (s.lrpCtl v) :=
  h.unless fun h =>
    (h.when (·.ackResponse)).when fun h => h.clamp.ite (·.lrpReject) fun h => h.ite (·.lrpReject) (·.beside)

theorem InForm.tapScan {i : TapReg} {last : Bool} {act : State → State} (h : InForm s) (ha : ∀ t, InForm t → InForm (act t)) :
    InForm (s.tapScan i last act) :=
  InForm.ite (s := { s with tap := { s.tap with ir := i.code } }) h (ha _) fun h => h.when (·.beside)

theorem InForm.tapLaunch {data : Option Word} (h : InForm s) : InForm (s.tapLaunch data) :=
  h.ite (·.beside) fun h => h.ite (·.beside) (·.beside)

theorem InForm.tapDone {err : Bool} {data : Option Word} (h : InForm s) : InForm (s.tapDone err data) := h.beside

/-! ### Register commands -/

theorem InForm.lrpStatWrite {v : Word} (h : InForm s) : InForm (s.lrpStatWrite v) := h.when (·.beside)

/-! ### Events of the timers -/

theorem InForm.tbCorrection (h : InForm s) : InForm (s.tbCorrection) := by
  simp only [State.tbCorrection]
  split
  · exact h
  · exact h.unless fun h => (h.atCycle.beside.foldl fun _ _ => (·.applyCorrection)).restamp.when (·.stepSched)

end Sys2Proof

/-! SUPPORT. The forms of the state (O60): every command keeps them. -/

namespace Sys2Proof

open Machine

variable {s t : State}

/-! ### Every command -/

/-- The outcome of a command at `s`: a state, which has the forms where `s` has them. -/
def KeepsForm (s : State) (o : Out) : Prop := ∃ t, o = .next t ∧ (InForm s → InForm t)

theorem KeepsForm.next (h : InForm s → InForm t) : KeepsForm s (.next t) := ⟨t, rfl, h⟩

theorem KeepsForm.ite {o p : Out} {c : Prop} {_ : Decidable c} (ho : KeepsForm s o) (hp : KeepsForm s p) :
    KeepsForm s (if c then o else p) := by
  split
  · exact ho
  · exact hp

theorem keeps_writeCmd {id : Id} {a : Nat} {v : Word} : KeepsForm s (writeCmd id a v s) := .next (·.masterWrite)

theorem keeps_readCmd {id : Id} {a : Nat} : KeepsForm s (readCmd id a s) := .next (·.masterRead)

theorem keeps_accessCmd {id : Id} {a : Nat} {wr : Option Word} : KeepsForm s (accessCmd id a wr s) := by
  cases wr with
  | none => exact keeps_readCmd
  | some v => exact keeps_writeCmd

/-! Instructions of the threads. -/

theorem keeps_stw {b : Beat} {rd ra : Reg} {imm : BitVec 18} : KeepsForm s (execStw b rd ra imm s) :=
  .next fun h => h.beat fun _ _ h =>
    .ite trivial (.ite trivial (.ite (.ite h.storeCode trivial) h.storeData))

theorem keeps_bCond {b : Beat} {cond : BitVec 4} {off : BitVec 22} : KeepsForm s (execBCond b cond off s) :=
  .next fun h => h.beat fun _ _ h => .ite (fits_transfer h) h

theorem keeps_trapOp {b : Beat} {n : BitVec 4} : KeepsForm s (execTrap b n s) :=
  .next fun h => h.beat fun _ _ _ => .ite trivial trivial

theorem keeps_rfi {b : Beat} : KeepsForm s (execRfi b s) := by
  refine .next fun h => h.beat fun id t h => .ite h (.ite trivial (.ite trivial ?_))
  replace h := h.readFrame (k := id / 16) (id := id) (sp := ((t.thr id).rd 14).toNat)
  dsimp only
  generalize t.readFrame (id / 16) id ((t.thr id).rd 14).toNat = p at h ⊢
  obtain ⟨u, r⟩ := p
  dsimp only at h ⊢
  split
  · exact h.oneSided
  · exact h
  · exact .ite h.updThr.goTo.twinStops (.ite h (.ite h h.updThr))

theorem keeps_nop {b : Beat} {w : Word} : KeepsForm s (execNop b w s) :=
  .next fun h => h.beat fun _ _ h => .ite trivial (.ite h h)

theorem keeps_tset {b : Beat} {rd ra : Reg} {sel : BitVec 8} : KeepsForm s (execTset b rd ra sel s) :=
  .next (·.masterBeat fun _ _ _ => (·.ctxWrite))

theorem keeps_tget {b : Beat} {rd ra : Reg} {sel : BitVec 8} : KeepsForm s (execTget b rd ra sel s) :=
  .next (·.masterBeat fun _ _ _ => (·.updThr))

theorem keeps_tgo {b : Beat} {ra : Reg} : KeepsForm s (execTgo b ra s) :=
  .next (·.masterBeat fun _ _ _ h => h.iteFst (·.releaseStopped) fun h => h)

theorem keeps_trst {b : Beat} {ra : Reg} : KeepsForm s (execTrst b ra s) :=
  .next (·.masterBeat fun _ _ _ => (·.resetThread))

theorem keeps_tstop {b : Beat} : KeepsForm s (execTstop b s) := .next (·.beat fun _ _ h => h.advance.setSt)

theorem keeps_yield {b : Beat} : KeepsForm s (execYield b s) :=
  .next (·.beat fun _ _ h => .ite h h.advance.setSt.updEng)

theorem keeps_prio {b : Beat} {n : BitVec 3} : KeepsForm s (execPrio b n s) := .next (·.beat fun _ _ h => h.setRegFld)

theorem keeps_waite {b : Beat} {rd : Reg} : KeepsForm s (execWaite b rd s) :=
  .next (·.beat fun _ _ h => h.setSt.updThr.tryWaite.atOnce)

theorem keeps_sig {b : Beat} {n : BitVec 4} : KeepsForm s (execSig b n s) :=
  .next (·.farBeat fun _ _ h => h.raiseLater.request)

theorem keeps_lock {b : Beat} {rd ra : Reg} {imm : BitVec 14} : KeepsForm s (execLock b rd ra imm s) := by
  refine .next (·.farBeat fun id t h => fits_farCheck ?_)
  replace h := h.acquire (id := id) (a := (ea14 (t.thr id) ra imm).toNat)
  generalize t.acquire id (ea14 (t.thr id) ra imm).toNat = p at h ⊢
  exact h.request

theorem keeps_ulock {b : Beat} {ra : Reg} {imm : BitVec 14} : KeepsForm s (execUlock b ra imm s) :=
  .next (·.farBeat fun _ _ h => fits_farCheck h.release.request)

theorem keeps_waitl {b : Beat} {ra : Reg} {imm : BitVec 14} : KeepsForm s (execWaitl b ra imm s) :=
  .next (·.farBeat fun _ _ h => fits_farCheck
    (.ite h.setSt.updThr.tumTurn.beside.request h.setSt.updThr.tumTurn.completeWait.atOnce))

theorem keeps_mput {b : Beat} {rd : Reg} {ch : Fin 64} {w : Bool} : KeepsForm s (execMput b rd ch w s) :=
  .next (·.farBeat fun _ _ h => (h.ite (·.mailCommit) (·.mailStage)).request)

theorem keeps_mget {b : Beat} {rd : Reg} {ch : Fin 64} {w : Bool} : KeepsForm s (execMget b rd ch w s) := by
  refine .next (·.farBeat fun id t h => ?_)
  dsimp only
  replace h : InForm ((t.tumTurn 8 0).mailRead id ch.val w).1 := h.tumTurn.mailRead
  generalize (t.tumTurn 8 0).mailRead id ch.val w = p at h ⊢
  exact h.request

theorem keeps_pset {b : Beat} {pad : PadSelect} {level : BitVec 2} {rb : Reg} : KeepsForm s (execPset b pad level rb s) :=
  .next fun h => h.ite (·.beat fun _ _ _ => trivial) (·.farBeat fun _ _ h => h.padSend)

theorem keeps_pcap {b : Beat} {rd : Reg} {pad : PadSelect} : KeepsForm s (execPcap b rd pad s) :=
  .next fun h => h.ite (·.beat fun _ _ _ => trivial) (·.farBeat fun _ _ h => h.padSend)

theorem keeps_syncOp {b : Beat} : KeepsForm s (execSync b s) :=
  .next (·.beat fun _ _ h => .ite h.flushOwn h.flushOwn)

/-! Commands that act where something is due. -/

theorem keeps_wakeEvent {src : WakeSource} : KeepsForm s (execWakeEvent src s) := by
  refine .next fun h => ?_
  split <;> exact h.when (·.wake)

theorem keeps_localMergeTimeout {eng : Fin 16} : KeepsForm s (execLocalMergeTimeout eng s) := by
  refine .next fun h => ?_
  split
  · exact h
  · exact h.when (·.atCycle.flushLocal)

theorem keeps_farMergeTimeout {eng : Fin 16} : KeepsForm s (execFarMergeTimeout eng s) := by
  refine .next fun h => ?_
  split
  · exact h
  · exact h.when (·.atCycle.flushFar)

theorem keeps_capturePairTimeout {i : Fin 32} {slot : Fin 4} : KeepsForm s (execCapturePairTimeout i slot s) := by
  refine .next fun h => ?_
  split
  · exact h.atCycle.updSlot
  · exact h

theorem keeps_transferTimeout {src : Source} {tag : Byte} : KeepsForm s (execTransferTimeout src tag s) := by
  refine .next fun h => ?_
  split
  · exact h
  · exact h.unless (·.atCycle.closeTransfer.beside)

theorem keeps_keeperCommandDone {mismatches : Nat} {nverr : Bool} : KeepsForm s (execKeeperCommandDone mismatches nverr s) := by
  refine .next (·.unless fun h => ?_)
  split
  next he => exact (h.kprEnd.of_eq he).when (·.kprAnswer)
  next he => exact h.kprEnd.of_eq he

theorem keeps_dqFrame {p : Port} {f : Frame} : KeepsForm s (execDqFrame p f s) := by
  refine .next (·.unless fun h => ?_)
  split
  next he => exact h.fresh.of_eq he
  next he => exact (h.fresh.of_eq he).ite (·.chDrop) (·.beside)

theorem keeps_dfwTimeout : KeepsForm s (execDfwTimeout s) := by
  refine .next fun h => ?_
  split
  · exact h
  · exact h.atCycle.count.dfwClear.respond

theorem keeps_lrpResponse : KeepsForm s (execLrpResponse s) := by
  refine .next fun h => ?_
  split
  · exact h
  · exact h.memory (wf_writeBytes _ _ _)

theorem keeps_debugAccessDone : KeepsForm s (execDebugAccessDone s) := by
  refine .next fun h => ?_
  split
  · exact h
  · refine h.ite (·.tapDone) fun h => ?_
    split
    · split
      next he => exact (h.busRead.of_eq he).tapDone
      next he => exact (h.busRead.of_eq he).tapDone
    · split
      next he => exact (h.busWrite.of_eq he).tapDone.settle
      next he => exact (h.busWrite.of_eq he).tapDone

theorem keeps_dozeEntryStart : KeepsForm s (execDozeEntryStart s) := by
  refine .next fun h => ?_
  split
  · exact h.ite (·.startEntry) fun h => h.when (·.atCycle.startEntry)
  · exact h

/-! The test port. -/

theorem keeps_dbga {value : Word} : KeepsForm s (execDbga value s) :=
  .next (·.tapScan fun _ h => h.beside.unless (·.tapLaunch))

theorem keeps_dbgdUpdate {value : Word} : KeepsForm s (execDbgdUpdate value s) :=
  .next (·.tapScan fun _ h => h.when (·.tapLaunch))

theorem keeps_dbgdCapture : KeepsForm s (execDbgdCapture s) := by
  refine .next (·.tapScan fun t h => ?_)
  cases t.tap.data with
  | none => exact h.drawWord.beside
  | some w => exact h.beside

theorem keeps_dbgrst {value : BitVec 16} : KeepsForm s (execDbgrst value s) :=
  .next (·.tapScan fun _ h => h.when (·.resetNow))

theorem keeps_idcode : KeepsForm s (execIdcode s) := .next (·.tapScan fun _ h => h.beside)

theorem keeps_exec (c : Instr) (s : State) : KeepsForm s (exec c s) := by
  cases c with
  | add | sub | cmp | mov | movh | mul | mulh | arm => exact .next (·.regBeat)
  | andOp | orOp | xorOp => exact .next (·.logic)
  | shl | shr | sar | rot => exact .next (·.shift)
  | divOp | divu | remOp | remu => exact .next (·.divide)
  | ldw | ldh | ldhu | ldb | ldbu => exact .next (·.load)
  | stw => exact keeps_stw
  | sth => exact .next (·.storeSmall (.inr rfl))
  | stb => exact .next (·.storeSmall (.inl rfl))
  | fldW | fldH | fldHu | fldB | fldBu => exact .next (·.farLoad)
  | fstW => exact .next (·.farStore (.inr (.inr rfl)))
  | fstH => exact .next (·.farStore (.inr (.inl rfl)))
  | fstB => exact .next (·.farStore (.inl rfl))
  | fbt | fbs | fbc | fbw => exact .next (·.farBit)
  | bCond => exact keeps_bCond
  | br | bl | jr | jrL | ret => exact .next (·.beat fun _ _ => fits_transfer)
  | tset => exact keeps_tset
  | tget => exact keeps_tget
  | tgo => exact keeps_tgo
  | tstop => exact keeps_tstop
  | trst => exact keeps_trst
  | yield => exact keeps_yield
  | prio => exact keeps_prio
  | sig => exact keeps_sig
  | waite => exact keeps_waite
  | lock => exact keeps_lock
  | ulock => exact keeps_ulock
  | waitl => exact keeps_waitl
  | mput => exact keeps_mput
  | mget => exact keeps_mget
  | pset => exact keeps_pset
  | pcap => exact keeps_pcap
  | trapOp => exact keeps_trapOp
  | rfi => exact keeps_rfi
  | syncOp => exact keeps_syncOp
  | nop => exact keeps_nop
  | farReply => exact .next (·.farReply)
  | farErrorReply => exact .next (·.farError)
  | registerWrite => exact .ite (.next (·.lrpStatWrite)) (.ite keeps_writeCmd (.next fun h => h))
  | interruptEntry => exact .next (·.entryTurn)
  | wdog => exact .next fun h => h.when (·.wdExpire)
  | eventDelivery => exact .next fun h => h.when (·.deliverEvent)
  | consumeNote => exact .next fun h => h.when (·.landNote)
  | modeRequest | softReset | sysEngpwrWrite | sysEngstartWrite | engineReset | engWhctlCommit | trpRel
    | dbgFreeze | dbgHalt | dbgRun | dbgStep | clrcnt | eccInjArm | lreqAcquire | lreqRelease | lreqClear
    | tumLqry | bclrall | tumCntclr | mbW0Write | mbW1Write | hfRaccWr | hfRaccRd | hfCommit | hfCntclr
    | hfRaise | hfGrpenWrite | tstart | tmrstop | tmrCntlWrite | tmrToplWrite | compLWrite | tbRateWrite
    | tbSteplWrite | tbCtlWrite | padStamp | qflush | padRelease | padHold | padSforce | padCfgWrite
    | padFpuWrite | cvtSchedlWrite | cvtCfgWrite | scnFliplWrite | flipCancel | scnCntclr | shGo | shStop
    | shRst | chEvsend | chUpstAck | chCntclr | swreq | swcan | shkCntclr | dfwRsp | rawRead | rawWrite
    | ringRead | ringWrite | formatNv | tornclr | kprCntclr | sealImage | updAbort | updCntclr => exact keeps_writeCmd
  | powerOnReset => exact .next (·.tapLands.porst.unitReset)
  | recallComplete => exact .next (·.recallEnd)
  | islandLock => exact .next fun h => h.when (·.lock)
  | wakeEvent => exact keeps_wakeEvent
  | wheelSwitch => exact .next fun h => h.when (·.wheelSwitch)
  | dbgCtxdataAccess | dbgMdataAccess => exact keeps_accessCmd
  | scrubStep => exact .next (·.scrub)
  | localMergeTimeout => exact keeps_localMergeTimeout
  | farMergeTimeout => exact keeps_farMergeTimeout
  | mbW0Read | mbW1Read | tmrCntlRead | capLRead | capHRead | tbNowlRead | padStlRead | cvtRdataRead
    | cvtLastlRead | chTilRead => exact keeps_readCmd
  | raiseEvent => exact .next fun h => h.when (·.stampFor.raiseIn)
  | latchRouteFire => exact .next fun h => h.when (·.fireSlot)
  | timerStep => exact .next (·.timerCycle)
  | compareMatch => exact .next fun h => h.when (·.timerCycle)
  | timerWrap => exact .next fun h => h.updTmr.timerCycle.unless fun _ => h
  | capturePairTimeout => exact keeps_capturePairTimeout
  | psetLand | pcapLand => exact .next fun h => h.when (·.padLand)
  | edgePlace => exact .next fun h => h.when (·.placeHead)
  | padEdge => exact .next (·.padEdge)
  | calLap => exact .next fun h => h.when (·.setRegFld)
  | triggerPlace => exact .next fun h => h.when (·.trigger)
  | triggerFall => exact .next fun h => h.when (·.triggerFall)
  | cvtBusyTimeout => exact .next fun h => h.when (·.cvtTimeout)
  | sampleDelivery => exact .next fun h => h.when (·.sampleIn)
  | shuttleDescriptor => exact .next fun h => h.when (·.chanFetch.tryDoze)
  | shuttleElement => exact .next fun h => h.when (·.beside.chanElement.tryDoze)
  | shuttleDescriptorDone => exact .next fun h => h.when (·.chanDone.tryDoze)
  | shuttleLockRetry => exact .next fun h => h.when (·.chanRetry.tryDoze)
  | portUp => exact .next fun h => h.when (·.setPort)
  | portDown => exact .next (·.setPort)
  | frameForward => exact .next (·.passOn)
  | addressFrame => exact .next (·.address)
  | dqFrame => exact keeps_dqFrame
  | tickFrame => exact .next (·.tickFrame)
  | tickRecord => exact .next (·.tickRecord)
  | timeDistribution => exact .next (·.timeFrame)
  | probeSend => exact .next (·.probeSend)
  | probeRequest => exact .next (·.probeAnswer)
  | probeEcho => exact .next (·.probeEcho)
  | eventFrame => exact .next (·.eventFrame)
  | updateFirmwareKind | updateOpen | updateData | updateClose => exact .next (·.updateFrame)
  | shackleFrame => exact .next (·.shackleFrame)
  | dictRead | dictWrite | segmentedReadInitiate | segmentedWriteInitiate | segment | abortTransfer
    | firmwareObjectRequest => exact .next (·.serve)
  | transferTimeout => exact keeps_transferTimeout
  | saveComplete => exact .next fun h => h.when (·.saveEnd)
  | lrpGo | lrpAck => exact .next (·.lrpCtl)
  | lrpReqWrite => exact .next fun h => h.unless fun h => h.ite (·.lrpReject) (·.memory (wf_writeWord _ _ _))
  | keeperCommandDone => exact keeps_keeperCommandDone
  | ringStep => exact .next (·.ringStep)
  | keeperRescan => exact .next (·.rescan)
  | sealDone => exact .next fun h => h.when (·.sealEnd)
  | activationCommit => exact .next fun h => h.when (·.updCommit)
  | dbga => exact keeps_dbga
  | dbgdUpdate => exact keeps_dbgdUpdate
  | dbgrst => exact keeps_dbgrst
  | dbgenChange | trstN | rstNAssert => exact .next (·.beside)
  | deadlk => exact .next fun h => h.when (·.deadlock)
  | pinReset => exact .next fun h => h.beside.unless (·.resetNow)
  | refclkLoss => exact .next fun h => (h.foldl fun _ _ => (·.padForce)).beside
  | refclkReturn | dictReset => exact .next fun h => h.when (·.resetNow)
  | governorAdmission => exact .next (·.admitHead)
  | wakeTimer => exact .next fun h => h.when (·.wake)
  | aonWriteDone => exact .next (·.aonDone)
  | routeDispatch => exact .next (·.dispatch)
  | routeFire => exact .next (·.fire fun _ _ _ => (·.shTask))
  | loopWindow => exact .next fun h => h.when (·.atCycle.rollWindow)
  | latchCommitDone => exact .next fun h => h.when (·.commitDone)
  | lfTick => exact .next (·.lfTick)
  | tbCorrection => exact .next (·.tbCorrection)
  | outputCommit => exact .next (·.outputCommit)
  | calSettled => exact .next fun h => h.when (·.setFlag.raise)
  | ownOutChange => exact .next fun h => h.when (·.ownOut)
  | shackleHoldExpiry => exact .next fun h => h.when (·.holdExpiry)
  | tickInstant => exact .next (·.activate.tick.judged)
  | halfTick => exact .next (·.halfTick)
  | localInputPass | chainInputPass | outputPass => exact .next fun h => h.when (·.runPass)
  | exchangeComplete => exact .next fun h => h.when (·.exchangeComplete)
  | commitBufferLand => exact .next fun h => h.when (·.bufLand)
  | flip => exact .next fun h => h.when (·.flip)
  | syncTimeout => exact .next fun h => h.when (·.syncTimeout)
  | ownFrameSend => exact .next (·.sendOwn)
  | heartbeatSend => exact .next fun h => h.when (·.heartbeatSend)
  | mirrorApply => exact .next fun h => h.when (·.mirrorApply)
  | applyDeadline => exact .next fun h => h.when (·.applyDeadline)
  | dfwTimeout => exact keeps_dfwTimeout
  | lrpResponse => exact keeps_lrpResponse
  | activation => exact .next fun h => h.when (·.activate)
  | dbgdCapture => exact keeps_dbgdCapture
  | debugAccessDone => exact keeps_debugAccessDone
  | idcode => exact keeps_idcode
  | nvReady => exact .next (·.nvReadyRises)
  | dozeEntryStart => exact keeps_dozeEntryStart
  | keeperRescanEnd => exact .next (·.rescanEnd)

theorem keeps_step (s : State) : KeepsForm s (step s) := by
  unfold step
  split
  · exact .next (·.pass)
  next c rest _ =>
    obtain ⟨t, ht, hform⟩ := keeps_exec c { s with pending := rest }
    exact ⟨t, ht, fun h => hform h.beside⟩

/-- Settles O60: each function of the model keeps the forms, so each command completes in a state that has them. -/
theorem stepKeepsForm : Obligations.StepKeepsForm := by
  unfold Obligations.StepKeepsForm
  refine ⟨fun c s => ?_, fun s => ?_⟩
  · obtain ⟨t, ht, -⟩ := keeps_exec c s
    exact ⟨t, ht⟩
  · obtain ⟨t, ht, hform⟩ := keeps_step s
    exact ⟨t, ht, fun hm he => hform ⟨hm, he⟩⟩

end Sys2Proof

/-! SUPPORT. O29: a far merge entry that drains in a cycle in which, by the state's own record, a higher identity has written its
byte. -/

namespace Sys2Proof

open Machine

/-- A byte waits in the far merge entry of engine 3, due at cycle 1008; the record of one cycle's writes (R42) is of that cycle, which
lies ahead, and names the byte and the identity 288, above the storing thread's. -/
def writtenAhead : State :=
  { State.reset with
    cycle := 1000
    engines := [(3, { power := .on, farMerge := some ⟨0x4005FFF8, [(7, 0x55)], 49, 1000⟩ })]
    same := { cyc := 1008, writes := [(0x4005FFFF, 288)] } }

/-- The record is not of the present cycle, so that no write counts as landed in it. -/
theorem writtenAhead_clean : Clean writtenAhead := ⟨rfl, by decide +kernel, rfl⟩

theorem writtenAhead_form : farForm 3 ⟨0x4005FFF8, [(7, 0x55)], 49, 1000⟩ = true := by decide +kernel

/-- At the drain the recorded write goes ahead of the waiting store (R42), and the byte keeps its old value. -/
theorem farMergeTimeout_outranked : ∃ t, exec (.farMergeTimeout 3) writtenAhead = .next t
    ∧ imageByte writtenAhead 3 0x4005FFFF = 0x55 ∧ readByte t.mem 0x4005FFFF = 0 :=
  ⟨_, rfl, by decide +kernel, by decide +kernel⟩

/-- Refutes O29: in its clause on the drain of a far merge entry, `Clean` asks that no write has landed in the present cycle, and
nothing asks it of the cycle 8 later in which the entry is written. In `writtenAhead` the record `same` is of that later cycle and
names a write of a higher identity to the waiting byte; so that byte is not written (R42). A record is made in its own cycle, so no
run of the block comes to this state; the statement speaks of every state. -/
theorem not_memoryErrors : ¬ Obligations.MemoryErrors := by
  unfold Obligations.MemoryErrors
  intro h
  obtain ⟨-, -, -, -, -, -, hfar⟩ := h 0 0 3 0 writtenAhead
  obtain ⟨t, he, -, -, himage, -⟩ := hfar _ rfl (by decide +kernel) writtenAhead_clean writtenAhead_form rfl
  obtain ⟨u, hu, hwaits, hkept⟩ := farMergeTimeout_outranked
  obtain rfl : u = t := Host.Outcome.next.inj (hu.symm.trans he)
  have hwritten : readByte u.mem 0x4005FFFF = imageByte writtenAhead 3 0x4005FFFF := himage _ (by decide)
  rw [hwaits, hkept] at hwritten
  exact absurd hwritten (by decide)

end Sys2Proof
